-- ==== Sys2Proof/Word.lean ====
section
/-! DEFINITION. The words the manual computes with: bytes, 16-bit values, time tags and cycle numbers. -/

namespace Sys2Proof

/-- A byte, as it travels on the Mould Link and on the Board Port (R177). -/
abbrev Byte := BitVec 8

/-- A 16-bit value. -/
abbrev Half := BitVec 16

/-- A time tag: the station's own time in 1 µs ticks, 32 bits, wrapping ("Time tag" of the terms). -/
abbrev Tag := BitVec 32

/-- A set cycle number, 0 to 65534; its addition and subtraction are modulo 65535 (R3, R15). "Unset" is `none : Option CycleNo`. -/
abbrev CycleNo := Fin 65535

end Sys2Proof
end

