-- ==== Sys2Proof/Syntax.lean ====
section
/-! DEFINITION. The commands of the block: one constructor of `Instr` per row of spec/opcode_table.json.
A command is one whole, indivisible step of the part (95_what_each_step_holds.md). -/

namespace Sys2Proof

/-- The four channels of a station. -/
inductive Channel where
  | c1 | c2 | c3 | c4
deriving DecidableEq, Repr

/-- The two lanes of the Mould Link (R41). -/
inductive Lane where
  | x | y
deriving DecidableEq, Repr

/-- The eight station numbers. -/
inductive Station where
  | s1 | s2 | s3 | s4 | s5 | s6 | s7 | s8
deriving DecidableEq, Repr

/-- A hit identity: origin station, channel and origin tag ("Hit identity" of the terms). The station and the channel
are numbers as an EVENT frame carries them, which may lie outside 1 to 8 and 1 to 4 (R109, R178). -/
structure HitId where
  station : Nat
  channel : Nat
  tag : Tag
deriving DecidableEq, Repr

/-- A word of one of the five protected stores (R161): a byte of the configuration block, a segment's record in the
Segment Table, a word of the snapshot (0: its cycle number and age; n: the record of segment n), an entry of the Hit
Window, an entry of the Applied Event List (named by its event's key). What a "word" is the manual leaves open: log entry 6. -/
inductive StoreWord where
  | config (offset : Nat)
  | segment (n : Nat)
  | snapshot (n : Nat)
  | window (id : HitId)
  | applied (key : HitId)
deriving DecidableEq, Repr

/-- One bit of a stored word that has flipped: what the parity checks exist to catch (chapter 10's opening). -/
structure Upset where
  word : StoreWord
  bit : Nat
deriving DecidableEq, Repr

/-- When a command happens: the station's local time tag at that moment, and the bits of the protected stores that
have flipped since the command before it (log entries 2 and 5). -/
structure Moment where
  tag : Tag
  upsets : List Upset
deriving DecidableEq, Repr

/-- Why a frame being assembled is broken (R56). -/
inductive BrokenCause where
  | badSync | framingError | earlyRest | oversize
deriving DecidableEq, Repr

/-- A lane at rest, as a waiting attempt finds it: `lastByte` is the tag at which the last stop bit ended of the bytes heard on it and
ignored since its receiver began to hunt (R45, R56), if there were any (log entry 10). -/
structure RestingLane where
  lane : Lane
  lastByte : Option Tag
deriving DecidableEq, Repr

/-- The commands of the OG-340: one per row of the table, each with the moment it happens at.
`RESET`, `RESET_RELEASE` and `POWER_ON` carry no moment, because they stop and restart the time tag itself (log entry 3). -/
inductive Instr where
  /-- CYC_RISING (R3). -/
  | cycRising (m : Moment)
  /-- FIL_RISING (R4). -/
  | filRising (m : Moment)
  /-- VIB_RISING (R4). -/
  | vibRising (m : Moment)
  /-- STR_RISING (R5). -/
  | strRising (m : Moment)
  /-- STR_FALLING (R6). -/
  | strFalling (m : Moment)
  /-- SETTLE_TIMER_EXPIRY (R10). -/
  | settleTimerExpiry (m : Moment)
  /-- CYCLE_TIMER_EXPIRY (R12). -/
  | cycleTimerExpiry (m : Moment)
  /-- SAMPLE (R20): the signed 16-bit sample of one lane of the sample port. -/
  | sample (m : Moment) (ch : Channel) (value : Half)
  /-- LOCKOUT_TIMER_EXPIRY (R30) of one channel. -/
  | lockoutTimerExpiry (m : Moment) (ch : Channel)
  /-- SAMPLE_LOSS (R33) on one channel. -/
  | sampleLoss (m : Moment) (ch : Channel)
  /-- SAMPLE_RECOVERY (R34) on one channel. -/
  | sampleRecovery (m : Moment) (ch : Channel)
  /-- PULSE_WIDTH_END (R37) of one channel. -/
  | pulseWidthEnd (m : Moment) (ch : Channel)
  /-- RECOVERY_END (R37) of one channel. -/
  | recoveryEnd (m : Moment) (ch : Channel)
  /-- ACCESS_GAP_REACHED (R45) on one lane. -/
  | accessGapReached (m : Moment) (lane : RestingLane)
  /-- ACCESS_TIMER_EXPIRY (R49). -/
  | accessTimerExpiry (m : Moment)
  /-- ATTEMPT_SENT (R50): the echo of the last check byte matches. -/
  | attemptSent (m : Moment)
  /-- ECHO_MISMATCH (R50): an echoed byte differs or has a framing error. -/
  | echoMismatch (m : Moment)
  /-- ECHO_TIMEOUT (R50): the echo of byte `index` of the frame (0: the first sync byte) did not come in time. -/
  | echoTimeout (m : Moment) (index : Nat)
  /-- FRAME_COMPLETE (R56): the bytes of the frame assembled on the lane, from its first sync byte to its second check byte. -/
  | frameComplete (m : Moment) (lane : Lane) (bytes : List Byte)
  /-- FRAME_BROKEN (R56). -/
  | frameBroken (m : Moment) (lane : Lane) (cause : BrokenCause)
  /-- FRAME_HANDLER_TAKE (R58). -/
  | frameHandlerTake (m : Moment)
  /-- JOIN_TIMER_EXPIRY (R67). -/
  | joinTimerExpiry (m : Moment)
  /-- SILENCE_TIMER_EXPIRY (R73) of one station's record. -/
  | silenceTimerExpiry (m : Moment) (station : Station)
  /-- PRESENCE_TIMER_EXPIRY (R76). -/
  | presenceTimerExpiry (m : Moment)
  /-- CLOSE_EXPIRY (R87). -/
  | closeExpiry (m : Moment)
  /-- PUBLICATION_DEADLINE (R92) of the pending entry with this key. -/
  | publicationDeadline (m : Moment) (key : HitId)
  /-- DIGEST_WINDOW_EXPIRY (R135). -/
  | digestWindowExpiry (m : Moment)
  /-- TRANSFER_LEAD_EXPIRY (R141). -/
  | transferLeadExpiry (m : Moment)
  /-- SLOT_TAG_REACHED (R151). -/
  | slotTagReached (m : Moment)
  /-- SLOT_WAIT_END (R151). -/
  | slotWaitEnd (m : Moment)
  /-- FIRE_TAG_REACHED (R152). -/
  | fireTagReached (m : Moment)
  /-- WINDOW_FIRE_TAG (R154). -/
  | windowFireTag (m : Moment)
  /-- END_TAG_REACHED (R156). -/
  | endTagReached (m : Moment)
  /-- SCRUB_READ (R161). -/
  | scrubRead (m : Moment)
  /-- LOGOUT_TIMER_EXPIRY (R165). -/
  | logoutTimerExpiry (m : Moment)
  /-- LOAD (R170): the command with its parameter bytes, the 2,048-byte block. -/
  | load (m : Moment) (block : List Byte)
  /-- LOAD_CHECK_COMPLETE (R171). -/
  | loadCheckComplete (m : Moment)
  /-- START (R172). -/
  | start (m : Moment)
  /-- RESTART (R172). -/
  | restart (m : Moment)
  /-- STATUS (R169). -/
  | status (m : Moment)
  /-- NEXT_NOTICE (R174). -/
  | nextNotice (m : Moment)
  /-- READ_SEGMENT (R169) with its parameter byte. -/
  | readSegment (m : Moment) (n : Byte)
  /-- READ_PEER (R169) with its parameter byte. -/
  | readPeer (m : Moment) (n : Byte)
  /-- READ_COUPLING (R169). -/
  | readCoupling (m : Moment)
  /-- READ_FAULT (R167). -/
  | readFault (m : Moment)
  /-- CLEAR_FAULT (R167). -/
  | clearFault (m : Moment)
  /-- SEGMENT_CONTROL (R173) with its four parameter bytes. -/
  | segmentControl (m : Moment) (kind group value mask : Byte)
  /-- SELECT_RISE (R168): select rises after `bytesOut` whole bytes were clocked out since the command was judged
  (the status byte is the first of them). -/
  | selectRise (m : Moment) (bytesOut : Nat)
  /-- RESET (R176): the RESET pin is held low. -/
  | reset
  /-- POWER_ON (R176). -/
  | powerOn
  /-- FRAME_START (R56) on one lane. -/
  | frameStart (m : Moment) (lane : Lane)
  /-- RESET_RELEASE (R176): the RESET pin rises. -/
  | resetRelease
  /-- NO_COMMAND_BYTE (R168): a transaction whose command byte names no command. -/
  | noCommandByte (m : Moment) (byte : Byte)
deriving DecidableEq, Repr

end Sys2Proof
end

