-- ==== Sys2Proof/Config.lean ====
section
/-! DEFINITION. The free values: what the manual leaves open, as constants with no body. -/

namespace Sys2Proof

/-- Which of several entries of the transmit queue of the same class and the same age is selected: R48 says "in either
order". The n-th such choice of a run reads `freeChoice n`; nothing constrains it (log entry 12). -/
opaque Config.freeChoice : Nat → Nat

end Sys2Proof
end

