-- ==== Sys2Proof/Machine/State.lean ====
section
/-! DEFINITION. The state of one OG-340, block by block as the manual lays it out, as plain data; the reasons a step can
stop; the state after reset. The tables that open chapters 1 to 11 name the fields. -/

namespace Sys2Proof.Machine

/-! ## Fixed sets of names -/

/-- The eight press phases (chapter 1). -/
inductive Phase where
  | idle | feed | fill1 | shake1 | fill2 | shake2 | strip | ret
deriving DecidableEq, Repr

/-- The station states (R64). -/
inductive StationState where
  | unconfigured | configured | joining | running | frozen
deriving DecidableEq, Repr

/-- The channel states (R23). -/
inductive ChannelState where
  | off | muted | hush | quiet | inHit | lockout | pulsing | recover
deriving DecidableEq, Repr

/-- The roles of a channel (R23). -/
inductive Role where
  | off | listen | pulse | muted
deriving DecidableEq, Repr

/-- The standings (R138). -/
inductive Standing where
  | novice | alone | inStep | outOfStep | split
deriving DecidableEq, Repr

/-- The health of a lane (R54); it follows from the failure run (Flags.lean). -/
inductive LaneHealth where
  | good | failing | faulty
deriving DecidableEq, Repr

/-- The state of a coupling record (R157). -/
inductive Coupling where
  | unchecked | good | weak | dead
deriving DecidableEq, Repr

/-- The state of a peer record (R68 to R74). -/
inductive PeerState where
  | absent | present | missing | loggedOut | foreign
deriving DecidableEq, Repr

/-- The state of a segment (R115). -/
inductive SegState where
  | clear | watch | suspect | cracked
deriving DecidableEq, Repr

/-- The frame kinds (R42, 12.1). -/
inductive FrameKind where
  | logout | control | event | hit | pulse | digest | row | presence
deriving DecidableEq, Repr

/-- The control kinds (R122). -/
inductive ControlKind where
  | excludeSet | release
deriving DecidableEq, Repr

/-- How a failed attempt ended (chapter 3, section 5). -/
inductive FailCause where
  | clash | mute | starved
deriving DecidableEq, Repr

/-- What made a close (R13). -/
inductive CloseCause where
  | settle | cyc | cycleTimer
deriving DecidableEq, Repr

/-- The kind of a close (R13). -/
inductive CloseKind where
  | normal | disordered | abandoned
deriving DecidableEq, Repr

/-- The fault kinds of the fault record (R163). -/
inductive FaultKind where
  | read | scrub
deriving DecidableEq, Repr

/-- The stores of the fault record (R163). -/
inductive Store where
  | configuration | segmentTable | snapshot
deriving DecidableEq, Repr

/-- The parts of a logout (R164). -/
inductive LogoutPart where
  | part1 | part2 | part3
deriving DecidableEq, Repr

/-! ## Fixed numbers of like things -/

/-- One value for each of the four channels. -/
structure Four (α : Type) where
  c1 : α
  c2 : α
  c3 : α
  c4 : α
deriving DecidableEq, Repr

/-- One value for each lane. -/
structure PerLane (α : Type) where
  x : α
  y : α
deriving DecidableEq, Repr

/-- One value for each station number. -/
structure Eight (α : Type) where
  s1 : α
  s2 : α
  s3 : α
  s4 : α
  s5 : α
  s6 : α
  s7 : α
  s8 : α
deriving DecidableEq, Repr

/-! ## The Phase Tracker (chapter 1) -/

/-- The cycle timer: stopped, running to a tag, or expired-in-return (R12). -/
inductive CycleTimer where
  | stopped
  | running (due : Tag)
  | expiredInReturn
deriving DecidableEq, Repr

/-- The Phase Tracker. -/
structure Tracker where
  phase : Phase
  /-- the current cycle number, or unset (R8) -/
  cycle : Option CycleNo
  isOpen : Bool
  disordered : Bool
  abandoned : Bool
  lastClosed : Option CycleNo
  lastDisordered : Bool
  lastAbandoned : Bool
  /-- the settle timer: stopped, or the tag at which it expires (R10) -/
  settle : Option Tag
  cycleTimer : CycleTimer
  /-- the stray edge count, 0 to 65535 (R7) -/
  stray : Nat
deriving DecidableEq, Repr

/-! ## The Channel Units and the Own Hit Queue (chapter 2) -/

/-- Where a hit goes, decided at its start (R25). -/
inductive HitKind where
  | capture | own | localHit
deriving DecidableEq, Repr

/-- The hit being measured on a channel in IN-HIT (R25 to R28). -/
structure OpenHit where
  kind : HitKind
  arrival : Tag
  phase : Phase
  /-- the hit threshold, in amplitude steps, and the threshold level, an envelope (R22) -/
  threshold : Nat
  level : Nat
  peak : Nat
  peakTag : Tag
  crossings : Nat
  lastCrossing : Tag
  /-- whether the preceding sample of the hit was below the hit threshold (R27) -/
  below : Bool
  energySum : Nat
  saturated : Bool
  /-- whether the cycle in which the hit arrived has closed since (R29) -/
  cycleGone : Bool
deriving DecidableEq, Repr

/-- The loss and recovery watch of a channel (R33, R34). -/
inductive LossWatch where
  /-- nothing is watched: before START -/
  | unwatched
  /-- the lane is watched; the tag of its last sample, or of START before the first one -/
  | watching (last : Tag)
  /-- OFF after sample loss; the recovery span's start tag and the tag of its last sample, once a sample has come -/
  | lost (span : Option (Tag × Tag))
deriving DecidableEq, Repr

/-- One Channel Unit. The noise floor follows from the floor window (Operands.lean). -/
structure ChannelUnit where
  state : ChannelState
  role : Role
  /-- the envelopes of the most recent floor samples, newest first, at most 32 000 (R21) -/
  floorWindow : List Nat
  openHit : Option OpenHit
  /-- the lockout timer: stopped, or the tag at which it expires (R30) -/
  lockout : Option Tag
  /-- the end of the pulse width in PULSING, of the recovery time in RECOVER (R37) -/
  pulseTimer : Option Tag
  watch : LossWatch
  /-- the sample-loss count, 0 to 255 (R32) -/
  losses : Nat
deriving DecidableEq, Repr

/-- The measured features of a completed hit (2.4). -/
structure Features where
  peak : Nat
  rise : Nat
  duration : Nat
  crossings : Nat
  energy : Nat
  saturated : Bool
  long : Bool
deriving DecidableEq, Repr

/-- A completed hit record (2.4, 12.2). -/
structure HitRecord where
  station : Nat
  channel : Nat
  arrival : Tag
  phase : Phase
  features : Features
deriving DecidableEq, Repr

/-- A record on the Own Hit Queue, with the tag at which it was appended (R31, R48). -/
structure QueuedHit where
  hit : HitRecord
  appended : Tag
deriving DecidableEq, Repr

/-- The four Channel Units, the Own Hit Queue they share and the station's hit counts (R31, R32). -/
structure Channels where
  units : Four ChannelUnit
  /-- oldest first, at most 16 -/
  queue : List QueuedHit
  detected : Nat
  lost : Nat
deriving DecidableEq, Repr

/-! ## The Link Unit (chapter 3) -/

/-- A descriptor of the transmit queue (R46). The requesting block follows from the kind; `ref` names the descriptor
to its requester (log entry 8). -/
structure Descriptor where
  ref : Nat
  kind : FrameKind
  payload : List Byte
  /-- the request tag -/
  tag : Tag
deriving DecidableEq, Repr

/-- What the attempt in hand is doing (R49, R50). -/
inductive AttemptPhase where
  /-- waiting for the gap, with the tag at which the access timer expires -/
  | waiting (due : Tag)
  /-- transmitting, with the attempt's sender stamp (R44) -/
  | transmitting (stamp : Tag)
deriving DecidableEq, Repr

/-- The current frame (R48 to R53). -/
structure CurrentFrame where
  /-- its descriptor, or none for a HIT frame -/
  ref : Option Nat
  kind : FrameKind
  payload : List Byte
  /-- the header cycle field, taken when the first attempt began (R44) -/
  cycle : Option CycleNo
  lane : Lane
  attempt : AttemptPhase
  retries : Nat
  lastFailure : Option FailCause
  /-- no retry is left to it: a HIT frame cut by a close (R53), or any frame at a freeze (R63) -/
  noRetry : Bool
  /-- its outcome is reported to no requester (R63) -/
  unreported : Bool
deriving DecidableEq, Repr

/-- A complete frame as received: its bytes from the first sync byte on, the receive stamp and the own-echo mark (R56, R57). -/
structure RxFrame where
  bytes : List Byte
  stamp : Tag
  own : Bool
deriving DecidableEq, Repr

/-- The receiver of a lane: hunting, or assembling a frame in the fill buffer (R56). -/
inductive Receiver where
  | hunting
  | assembling (stamp : Tag) (own : Bool)
deriving DecidableEq, Repr

/-- What the Link Unit keeps for each lane. -/
structure LaneUnit where
  /-- the failure run, 0 to 255 (R54) -/
  run : Nat
  receiver : Receiver
  hold : Option RxFrame
  /-- the clock value from which the lane's idle time counts (R45) -/
  idleFrom : Nat
  broken : Nat
  rejected : Nat
  overruns : Nat
  accepted : Nat
deriving DecidableEq, Repr

/-- The Link Unit. -/
structure Link where
  /-- the transmit queue, at most 12 descriptors, the current frame's among them -/
  queue : List Descriptor
  current : Option CurrentFrame
  home : Lane
  lost : Bool
  lanes : PerLane LaneUnit
  /-- which held frame completed first, when both hold buffers are full (R58) -/
  holdFirst : Lane
  /-- the frame handler: idle, or busy with a frame of this lane (R58) -/
  handler : Option (Lane × RxFrame)
  /-- kind and sender of the last accepted frames, newest first, at most 4 (R61) -/
  lastAccepted : List (FrameKind × Station)
  sent : Nat
  dropped : Nat
  retriesBegun : Nat
  /-- the model's own: the next descriptor's `ref` -/
  nextRef : Nat
deriving DecidableEq, Repr

/-! ## The Membership Unit (chapter 4) -/

/-- The last PRESENCE content of a record, as received (R72, R177). -/
structure PresenceContent where
  phase : Byte
  age : Nat
  standing : Byte
  coupling : Byte
  lanes : Byte
deriving DecidableEq, Repr

/-- The last DIGEST of a record (R75). -/
structure DigestContent where
  cycle : Option CycleNo
  digest : BitVec 32
  age : Nat
  standing : Byte
  /-- the seven counts, as received: 14 bytes -/
  counts : List Byte
  arrival : Tag
deriving DecidableEq, Repr

/-- The logout record: each part's bytes after its part byte, as received (R74). -/
structure LogoutRecord where
  part1 : Option (List Byte)
  part2 : Option (List Byte)
  part3 : Option (List Byte)
deriving DecidableEq, Repr

/-- One record of the Peer Table (4.4), with its silence timer. -/
structure PeerRecord where
  state : PeerState
  fingerprint : Option (BitVec 32)
  lastHeard : Option Tag
  /-- signed µs, two's complement (R70) -/
  offset : Option (BitVec 32)
  presence : Option PresenceContent
  digest : Option DigestContent
  logout : LogoutRecord
  taken : Nat
  heldBack : Nat
  /-- the silence timer: stopped, or the tag at which it expires (R73) -/
  silence : Option Tag
deriving DecidableEq, Repr

/-- The Membership Unit. -/
structure Membership where
  station : StationState
  number : Option Station
  fingerprint : Option (BitVec 32)
  peers : Eight PeerRecord
  joinTimer : Option Tag
  presenceTimer : Option Tag
deriving DecidableEq, Repr

/-! ## The Coincidence Unit (chapter 5) -/

/-- An entry of the Hit Window (R78). -/
structure HitEntry where
  id : HitId
  localArrival : Tag
  phase : Phase
  /-- none: pending -/
  features : Option Features
  own : Bool
deriving DecidableEq, Repr

/-- The publication of a pending entry (R91). -/
inductive Publication where
  | waiting
  | queued (ref : Nat)
  | sent
deriving DecidableEq, Repr

/-- An entry of the Pending Group List (R91). Its key is the identity of its first member. -/
structure PendingGroup where
  members : List HitEntry
  crowded : Bool
  rank : Nat
  deadline : Tag
  publication : Publication
deriving DecidableEq, Repr

/-- The counts of R97. -/
structure CoincidenceCounts where
  offCycle : Nat
  malformed : Nat
  duplicates : Nat
  late : Nat
  overflow : Nat
  groupsDropped : Nat
  published : Nat
  eventsDropped : Nat
  hitsDiscarded : Nat
  groupsDiscarded : Nat
deriving DecidableEq, Repr

/-- The Coincidence Unit. The open group is the Hit Window read from its earliest entry (5.4), not a store of its own. -/
structure Coincidence where
  /-- at most 64 entries, in window order (R78) -/
  window : List HitEntry
  horizon : Option Tag
  /-- at most 8, in the order they were made (R91) -/
  pendingGroups : List PendingGroup
  /-- the owner descriptors (R90) -/
  ownerRefs : List Nat
  counts : CoincidenceCounts
deriving DecidableEq, Repr

/-! ## The Evidence Unit (chapter 7) -/

/-- An EVENT record (R105). The method and the attributes keep their codes of 12.1. -/
structure EventRecord where
  cycle : Option CycleNo
  phase : Phase
  method : BitVec 2
  segment : Nat
  attrs : Byte
  hitCount : Nat
  sensorCount : Nat
  peak : Nat
  energy : Nat
  longest : Nat
  ids : List HitId
deriving DecidableEq, Repr

/-- An entry of the Applied Event List (R110). -/
structure AppliedEvent where
  event : EventRecord
  publisher : Nat
deriving DecidableEq, Repr

/-- An entry of a segment's history: an event count and a phase set, bit n for phase n (R115, 12.1). -/
structure HistoryEntry where
  count : Nat
  phases : Byte
deriving DecidableEq, Repr

/-- A segment record (R115). -/
structure SegmentRecord where
  state : SegState
  excluded : Bool
  /-- newest first, at most H -/
  history : List HistoryEntry
  quietRun : Nat
  /-- absent, or a cycle number as two bytes hold it (`none` inside: 65535) -/
  suspectSince : Option (Option CycleNo)
  crackedSince : Option (Option CycleNo)
deriving DecidableEq, Repr

/-- The counts of R130. -/
structure EvidenceCounts where
  applied : Nat
  stale : Nat
  duplicate : Nat
  listFull : Nat
  malformed : Nat
  unfolded : Nat
  controls : Nat
  malformedControls : Nat
deriving DecidableEq, Repr

/-- The Evidence Unit. -/
structure Evidence where
  /-- the Applied Event List, at most 96, oldest first -/
  applied : List AppliedEvent
  /-- the records of segments 1 to N_SEG; empty before a LOAD (R131) -/
  table : List SegmentRecord
  age : Nat
  warn : Bool
  stop : Bool
  /-- the output hold: the levels of WARN and STOP when OUT-OF-STEP was entered (R128) -/
  hold : Option (Bool × Bool)
  counts : EvidenceCounts
deriving DecidableEq, Repr

/-! ## The Agreement Unit (chapter 8) -/

/-- A CONTROL as a frame, a command and the carry list hold it (R122, R145). -/
structure Control where
  kind : ControlKind
  group : Byte
  value : Byte
  mask : Byte
deriving DecidableEq, Repr

/-- The snapshot of a close (R132). -/
structure Snapshot where
  cycle : Option CycleNo
  age : Nat
  records : List SegmentRecord
deriving DecidableEq, Repr

/-- The digest window while it runs (R135). -/
structure DigestWindow where
  due : Tag
  closeMoment : Tag
deriving DecidableEq, Repr

/-- A ROW as a receiver judges it (R144). -/
structure RowFrame where
  cycle : Option CycleNo
  digest : BitVec 32
  age : Nat
  first : Nat
  count : Nat
  last : Bool
  records : List SegmentRecord
deriving DecidableEq, Repr

/-- What a SENDING station is at: the lead, or a ROW in the transmit queue (R140, R141). -/
inductive SendStage where
  | lead (due : Tag)
  | row (ref : Nat) (last : Bool)
deriving DecidableEq, Repr

/-- The transfer state with its transfer record and buffer (chapter 8's opening table). -/
inductive Transfer where
  | idle
  | sending (nextFirst : Nat) (stage : SendStage)
  | awaiting (donor : Station) (cycle : Option CycleNo) (digest : BitVec 32) (nextFirst : Nat)
      (lastRow : Option RowFrame) (buffer : List SegmentRecord)
deriving DecidableEq, Repr

/-- The counts of R148. -/
structure AgreementCounts where
  decisions : Nat
  cut : Nat
  adoptions : Nat
  digestsNotSent : Nat
  rowsSent : Nat
  aborted : Nat
  rowsIgnored : Nat
  completed : Nat
  abandoned : Nat
deriving DecidableEq, Repr

/-- The Agreement Unit. -/
structure Agreement where
  snapshot : Option Snapshot
  ownDigest : Option (BitVec 32)
  standing : Standing
  /-- the standing as last decided: that of the previous decision, which a completed transfer leaves as it is (R134, R146) -/
  decided : Standing
  window : Option DigestWindow
  transfer : Transfer
  /-- the carry list, at most 8, in the order applied -/
  carry : List Control
  carryOverflow : Bool
  counts : AgreementCounts
deriving DecidableEq, Repr

/-! ## The Coupling Unit (chapter 9) -/

/-- A coupling record (R157). -/
structure CouplingRecord where
  state : Coupling
  lastPeak : Option Nat
  misses : Nat
deriving DecidableEq, Repr

/-- The station's own pulse in the current RETURN (9.1). -/
inductive Slot where
  | none
  | placed (tag : Tag)
  | waiting (tag : Tag)
  | queued (ref : Nat)
  | announced (fire : Tag)
  | firing
deriving DecidableEq, Repr

/-- The first capture of a channel in a pulse window (R155). -/
inductive Capture where
  | none
  | started (arrival : Tag)
  | peaked (peak : Nat)
  | withdrawn
deriving DecidableEq, Repr

/-- How far a pulse window is (R154 to R156). -/
inductive WindowStage where
  | pending | isOpen | judging
deriving DecidableEq, Repr

/-- A pulse window (R154). -/
structure PulseWindow where
  stage : WindowStage
  pulser : Station
  fire : Tag
  finish : Tag
  captures : Four Capture
deriving DecidableEq, Repr

/-- The counts of R160. -/
structure CouplingCounts where
  fired : Nat
  skipped : Nat
  judged : Nat
  abandoned : Nat
  ignored : Nat
  peerHits : Nat
deriving DecidableEq, Repr

/-- The Coupling Unit. -/
structure CouplingUnit where
  records : Four CouplingRecord
  slot : Slot
  /-- none: no window -/
  window : Option PulseWindow
  counts : CouplingCounts
deriving DecidableEq, Repr

/-! ## The Fault Unit (chapter 10) -/

/-- The fault record (R167). -/
structure FaultRecord where
  kind : Option FaultKind
  store : Option Store
  /-- absent, or a cycle number or unset -/
  cycle : Option (Option CycleNo)
  phase : Option Phase
  tag : Option Tag
  partsSent : Nat
  doubleFault : Bool
  restarts : Nat
deriving DecidableEq, Repr

/-- The Fault Unit. -/
structure FaultUnit where
  /-- the stored words whose parity does not match, with the bit that flipped (R161) -/
  flipped : List Upset
  /-- the scrub position: the word the scrub reads next -/
  scrub : StoreWord
  faultedWord : Option StoreWord
  /-- none: IDLE; else the part now requested -/
  logout : Option LogoutPart
  logoutTimer : Option Tag
  softFaults : Nat
  record : FaultRecord
deriving DecidableEq, Repr

/-! ## The Board Port (chapter 11) -/

/-- The load result (R170). -/
inductive LoadResult where
  | none
  | passed
  | failed (check index : Nat)
deriving DecidableEq, Repr

/-- The status byte of a judged command (R168). -/
inductive Status where
  | done | busy | refused | invalid
deriving DecidableEq, Repr

/-- The cause of a SEGMENT STATE notice (R129). -/
inductive SegCause where
  | fold | exclude | release | transfer
deriving DecidableEq, Repr

/-- The event of a LANE STATE notice (R54, R55). -/
inductive LaneEvent where
  | health (h : LaneHealth)
  | home | lost | restored
deriving DecidableEq, Repr

/-- The causes of an abandoned transfer (R147). -/
inductive AbandonCause where
  | order | mismatch | carry | donor | close
deriving DecidableEq, Repr

/-- The detail of a TRANSFER notice (R142, R146, R147). -/
inductive TransferEnd where
  | sent | aborted | completed
  | abandoned (cause : AbandonCause)
deriving DecidableEq, Repr

/-- The detail of a RESTARTED notice (R165, R166, R172). -/
inductive RestartCause where
  | command | fault | double
deriving DecidableEq, Repr

/-- The kind of a notice with its detail (R174, 12.3). -/
inductive NoticeDetail where
  | segmentState (state : SegState) (excluded : Bool) (cause : SegCause)
  | standing (new : Standing)
  | peerState (new : PeerState)
  | laneState (lane : Lane) (event : LaneEvent)
  | sensorState (new : Coupling)
  | controlResult (delivered : Bool) (control : Control) (cause : Option FailCause) (retries : Nat)
  | transfer (what : TransferEnd)
  | duplicateNumber (lane : Lane)
  | sampleLoss (lost : Bool)
  | cycleFlag (closed : Option CycleNo) (disordered abandoned : Bool) (cause : CloseCause)
  | restarted (why : RestartCause)
  | stacked (counts : List Nat)
deriving DecidableEq, Repr

/-- A notice (R174): its cycle, its subject (a segment, a station or a packed sensor) and its kind with the detail. -/
structure Notice where
  cycle : Option CycleNo
  subject : Nat
  detail : NoticeDetail
deriving DecidableEq, Repr

/-- A command of the Board Port as the command slot holds it (R168, R169). `none` of `nextNotice`: the queue was empty
or has been emptied since, so nothing is removed (R174). -/
inductive PortCommand where
  | unknown
  | load (block : List Byte)
  | start
  | restart
  | status
  | nextNotice (returned : Bool)
  | readSegment
  | readPeer
  | readCoupling
  | readFault
  | clearFault
  | segmentControl (c : Control)
deriving DecidableEq, Repr

/-- A judged command waiting for deselect (R168), with the status byte and the reply data the port clocks out. -/
structure Judged where
  command : PortCommand
  status : Status
  reply : List Byte
deriving DecidableEq, Repr

/-- The Board Port. -/
structure BoardPort where
  /-- the configuration store: empty, or one 2,048-byte block -/
  config : Option (List Byte)
  /-- the load state: CHECKING or IDLE -/
  checking : Bool
  loadResult : LoadResult
  slot : Option Judged
  /-- control outstanding: the CONTROL descriptor of this port and its content (R173) -/
  control : Option (Nat × Control)
  /-- oldest first, at most 32 -/
  notices : List Notice
  /-- the twelve stacked counts, in kind order, each 0 to 255 (R175) -/
  stacked : List Nat
deriving DecidableEq, Repr

/-! ## The whole station -/

/-- One OG-340. -/
structure State where
  /-- the µs since reset: the station's time tag is this number modulo 2^32, the rest is the model's own (log entry 10) -/
  clock : Nat
  /-- whether the RESET pin is held low (R176) -/
  resetHeld : Bool
  tracker : Tracker
  channels : Channels
  link : Link
  member : Membership
  coin : Coincidence
  evid : Evidence
  agree : Agreement
  coup : CouplingUnit
  fault : FaultUnit
  port : BoardPort
  /-- the model's own: how many free choices have been read (log entry 12) -/
  freeCount : Nat
  /-- the model's own: the commands that are waiting, first in, first out -/
  pending : List Instr
deriving DecidableEq, Repr

/-- The reasons a step can fault: there are none. The manual gives every command an effect in every state, and no
command stops the part (log entry 1): nobody raises a fault, which is safe and unsafe to nobody. -/
inductive Fault where
deriving DecidableEq, Repr

/-- The reasons a command can be refused. -/
inductive Refusal where
  /-- The command has no meaning in the model yet. Raised only by an arm of `exec` (none does); safe. -/
  | notModelled (mnemonic : String)
deriving DecidableEq, Repr

/-! ## Reset values -/

/-- The same value for each channel. -/
def Four.all {α : Type} (a : α) : Four α := ⟨a, a, a, a⟩
/-- The same value for each lane. -/
def PerLane.all {α : Type} (a : α) : PerLane α := ⟨a, a⟩
/-- The same value for each station number. -/
def Eight.all {α : Type} (a : α) : Eight α := ⟨a, a, a, a, a, a, a, a⟩

/-- R18. -/
def Tracker.reset : Tracker :=
  { phase := .idle, cycle := none, isOpen := false, disordered := false, abandoned := false, lastClosed := none,
    lastDisordered := false, lastAbandoned := false, settle := none, cycleTimer := .stopped, stray := 0 }

/-- R40. -/
def ChannelUnit.reset : ChannelUnit :=
  { state := .off, role := .off, floorWindow := [], openHit := none, lockout := none, pulseTimer := none,
    watch := .unwatched, losses := 0 }

/-- R40. -/
def Channels.reset : Channels :=
  { units := .all .reset, queue := [], detected := 0, lost := 0 }

/-- R63. -/
def LaneUnit.reset : LaneUnit :=
  { run := 0, receiver := .hunting, hold := none, idleFrom := 0, broken := 0, rejected := 0, overruns := 0, accepted := 0 }

/-- R63, R55. -/
def Link.reset : Link :=
  { queue := [], current := none, home := .x, lost := false, lanes := .all .reset, holdFirst := .x, handler := none,
    lastAccepted := [], sent := 0, dropped := 0, retriesBegun := 0, nextRef := 0 }

/-- R68. -/
def PeerRecord.reset : PeerRecord :=
  { state := .absent, fingerprint := none, lastHeard := none, offset := none, presence := none, digest := none,
    logout := ⟨none, none, none⟩, taken := 0, heldBack := 0, silence := none }

/-- R68. -/
def Membership.reset : Membership :=
  { station := .unconfigured, number := none, fingerprint := none, peers := .all .reset, joinTimer := none,
    presenceTimer := none }

/-- R98. -/
def Coincidence.reset : Coincidence :=
  { window := [], horizon := none, pendingGroups := [], ownerRefs := [], counts := ⟨0, 0, 0, 0, 0, 0, 0, 0, 0, 0⟩ }

/-- A clean segment record (R115), with the excluded flag given. -/
def SegmentRecord.clean (excluded : Bool) : SegmentRecord :=
  { state := .clear, excluded := excluded, history := [], quietRun := 0, suspectSince := none, crackedSince := none }

/-- R131, with N_SEG clean records. -/
def Evidence.reset (nSeg : Nat) : Evidence :=
  { applied := [], table := List.replicate nSeg (.clean false), age := 0, warn := false, stop := false, hold := none,
    counts := ⟨0, 0, 0, 0, 0, 0, 0, 0⟩ }

/-- R149. -/
def Agreement.reset : Agreement :=
  { snapshot := none, ownDigest := none, standing := .novice, decided := .novice, window := none, transfer := .idle, carry := [],
    carryOverflow := false, counts := ⟨0, 0, 0, 0, 0, 0, 0, 0, 0⟩ }

/-- R160. -/
def CouplingUnit.reset : CouplingUnit :=
  { records := .all ⟨.unchecked, none, 0⟩, slot := .none, window := none, counts := ⟨0, 0, 0, 0, 0, 0⟩ }

/-- R167. -/
def FaultRecord.reset : FaultRecord :=
  { kind := none, store := none, cycle := none, phase := none, tag := none, partsSent := 0, doubleFault := false,
    restarts := 0 }

/-- R162, R165, R167; the scrub's place before the first JOINING: log entry 4. -/
def FaultUnit.reset : FaultUnit :=
  { flipped := [], scrub := .config 0, faultedWord := none, logout := none, logoutTimer := none, softFaults := 0,
    record := .reset }

/-- R170, R174, R176. -/
def BoardPort.reset : BoardPort :=
  { config := none, checking := false, loadResult := .none, slot := none, control := none, notices := [],
    stacked := List.replicate 12 0 }

/-- The machine right after reset (R176): the RESET pin has risen, and the station waits UNCONFIGURED for a LOAD. -/
def State.reset : State :=
  { clock := 0, resetHeld := false, tracker := .reset, channels := .reset, link := .reset, member := .reset,
    coin := .reset, evid := .reset 0, agree := .reset, coup := .reset, fault := .reset, port := .reset,
    freeCount := 0, pending := [] }

end Sys2Proof.Machine
end

