-- ==== Sys2Proof/Machine/Operands.lean ====
section
/-! DEFINITION. The operand forms: byte order, the two check codes, the amplitude scale, the codes of 12.1, the fields of the
configuration block (12.4), and every frame and record layout of chapter 12, each with its writer and its reader. -/

namespace Sys2Proof.Machine

/-! ## Numbers and bytes (R177) -/

/-- The byte with this value, modulo 256. -/
def byte (n : Nat) : Byte := BitVec.ofNat 8 n

/-- A value in two bytes, most significant first. -/
def be16 (n : Nat) : List Byte := [byte (n / 256), byte n]

/-- A value in three bytes, most significant first. -/
def be24 (n : Nat) : List Byte := [byte (n / 65536), byte (n / 256), byte n]

/-- A value in four bytes, most significant first. -/
def be32 (v : BitVec 32) : List Byte :=
  [byte (v.toNat / 16777216), byte (v.toNat / 65536), byte (v.toNat / 256), byte v.toNat]

/-- The byte at an offset; 0 beyond the end. -/
def u8 (bs : List Byte) (i : Nat) : Nat := (bs.getD i 0).toNat

/-- The two-byte value at an offset. -/
def u16 (bs : List Byte) (i : Nat) : Nat := u8 bs i * 256 + u8 bs (i + 1)

/-- The three-byte value at an offset. -/
def u24 (bs : List Byte) (i : Nat) : Nat := u16 bs i * 256 + u8 bs (i + 2)

/-- The four-byte value at an offset. -/
def u32 (bs : List Byte) (i : Nat) : BitVec 32 := BitVec.ofNat 32 (u16 bs i * 65536 + u16 bs (i + 2))

/-- A Bool as a bit. -/
def bit (b : Bool) : Nat := if b then 1 else 0

/-- `n` bytes from offset `i`, absent bytes at 0. -/
def slice (bs : List Byte) (i n : Nat) : List Byte := (List.range n).map fun k => bs.getD (i + k) 0

/-- A cycle number as its two-byte value, 65535 for unset (R177). -/
def cycleValue : Option CycleNo → Nat
  | none => 65535
  | some c => c.val

/-- The cycle number of a two-byte value. -/
def cycleOf (n : Nat) : Option CycleNo :=
  if h : n < 65535 then some ⟨n, h⟩ else none

/-! ## Time tags -/

/-- Whether the tag `due` has been reached at `now`: the signed difference of the two is not negative ("Times" of the conventions). -/
def reached (now due : Tag) : Bool := 0 ≤ (now - due).toInt

/-- Whether tag `a` is later than tag `b`. -/
def later (a b : Tag) : Bool := 0 < (a - b).toInt

/-- The µs from tag `t` to `now`. -/
def elapsed (now t : Tag) : Nat := (now - t).toNat

/-- A span in µs, as the difference of two tags. -/
def span (us : Nat) : Tag := BitVec.ofNat 32 us

/-- Whether an optional timer has run out at `now`; a stopped one has not. -/
def due (now : Tag) : Option Tag → Bool
  | none => false
  | some t => reached now t

/-! ## Check codes -/

/-- One bit of the CRC-16 (R43): polynomial 1021. -/
def crc16Bit (c : Half) : Half := if c.msb then (c <<< 1) ^^^ 0x1021#16 else c <<< 1

/-- One byte of the CRC-16, most significant bit first. -/
def crc16Byte (c : Half) (b : Byte) : Half :=
  crc16Bit (crc16Bit (crc16Bit (crc16Bit (crc16Bit (crc16Bit (crc16Bit (crc16Bit
    (c ^^^ (b.zeroExtend 16 <<< 8)))))))))

/-- The CRC-16 of R43. -/
def crc16 (bs : List Byte) : Half := bs.foldl crc16Byte 0xFFFF#16

/-- One bit of the CRC-32 (R71), least significant bit first: the polynomial 04C11DB7 reflected. -/
def crc32Bit (c : BitVec 32) : BitVec 32 := if c.getLsbD 0 then (c >>> 1) ^^^ 0xEDB88320#32 else c >>> 1

/-- One byte of the CRC-32. -/
def crc32Byte (c : BitVec 32) (b : Byte) : BitVec 32 :=
  crc32Bit (crc32Bit (crc32Bit (crc32Bit (crc32Bit (crc32Bit (crc32Bit (crc32Bit (c ^^^ b.zeroExtend 32))))))))

/-- The CRC-32 of R71, for the fingerprint and the digest. -/
def crc32 (bs : List Byte) : BitVec 32 := bs.foldl crc32Byte 0xFFFFFFFF#32 ^^^ 0xFFFFFFFF#32

/-! ## The amplitude scale (R20 to R22) -/

/-- The whole part of twenty times the common logarithm of `num / den`, in 0 to 90; 0 below 1. Amplitude `a` is reached
exactly when ten to the `a` is at most the twentieth power of the ratio. -/
def amplitudeOfRatio (num den : Nat) : Nat :=
  ((List.range 90).filter fun a => 10 ^ (a + 1) * den ^ 20 ≤ num ^ 20).length

/-- The envelope of a sample: its magnitude (R20). -/
def envelope (v : Half) : Nat := v.toInt.natAbs

/-- The amplitude of an envelope (R20). -/
def amplitude (env : Nat) : Nat := amplitudeOfRatio env 1

/-- A saturated sample has envelope 32 767 or more (R20). -/
def isSaturated (env : Nat) : Bool := 32767 ≤ env

/-- The number of floor samples a floor is taken over (R21). -/
def floorLength : Nat := 32000

/-- The noise floor: unset until the window is full, then the amplitude of the mean envelope (R21). -/
def noiseFloor (window : List Nat) : Option Nat :=
  if window.length < floorLength then none else some (amplitudeOfRatio window.sum window.length)

/-- One step of the search for the largest envelope whose amplitude is below the threshold. -/
def levelStep (threshold lo bit : Nat) : Nat := if amplitude (lo + bit) < threshold then lo + bit else lo

/-- The threshold level: the smallest envelope whose amplitude is at or above the threshold (R22), for thresholds 1 to 90. -/
def thresholdLevel (threshold : Nat) : Nat :=
  [32768, 16384, 8192, 4096, 2048, 1024, 512, 256, 128, 64, 32, 16, 8, 4, 2, 1].foldl (levelStep threshold) 0 + 1

/-! ## Channels, lanes, stations -/

def channelList : List Channel := [.c1, .c2, .c3, .c4]

/-- The channel's number, 1 to 4. -/
def chNo : Channel → Nat
  | .c1 => 1 | .c2 => 2 | .c3 => 3 | .c4 => 4

/-- The channel of a number. -/
def chOf : Nat → Option Channel
  | 1 => some .c1 | 2 => some .c2 | 3 => some .c3 | 4 => some .c4 | _ => none

def stationList : List Station := [.s1, .s2, .s3, .s4, .s5, .s6, .s7, .s8]

/-- The station's number, 1 to 8. -/
def stNo : Station → Nat
  | .s1 => 1 | .s2 => 2 | .s3 => 3 | .s4 => 4 | .s5 => 5 | .s6 => 6 | .s7 => 7 | .s8 => 8

/-- The station of a number. -/
def stOf : Nat → Option Station
  | 1 => some .s1 | 2 => some .s2 | 3 => some .s3 | 4 => some .s4
  | 5 => some .s5 | 6 => some .s6 | 7 => some .s7 | 8 => some .s8 | _ => none

def otherLane : Lane → Lane
  | .x => .y
  | .y => .x

def Four.get {α : Type} (f : Four α) : Channel → α
  | .c1 => f.c1 | .c2 => f.c2 | .c3 => f.c3 | .c4 => f.c4

def Four.set {α : Type} (f : Four α) (c : Channel) (a : α) : Four α :=
  match c with
  | .c1 => { f with c1 := a } | .c2 => { f with c2 := a } | .c3 => { f with c3 := a } | .c4 => { f with c4 := a }

def Four.map {α β : Type} (g : Channel → α → β) (f : Four α) : Four β :=
  ⟨g .c1 f.c1, g .c2 f.c2, g .c3 f.c3, g .c4 f.c4⟩

def PerLane.get {α : Type} (p : PerLane α) : Lane → α
  | .x => p.x | .y => p.y

def PerLane.set {α : Type} (p : PerLane α) (l : Lane) (a : α) : PerLane α :=
  match l with
  | .x => { p with x := a } | .y => { p with y := a }

def Eight.get {α : Type} (e : Eight α) : Station → α
  | .s1 => e.s1 | .s2 => e.s2 | .s3 => e.s3 | .s4 => e.s4 | .s5 => e.s5 | .s6 => e.s6 | .s7 => e.s7 | .s8 => e.s8

def Eight.set {α : Type} (e : Eight α) (s : Station) (a : α) : Eight α :=
  match s with
  | .s1 => { e with s1 := a } | .s2 => { e with s2 := a } | .s3 => { e with s3 := a } | .s4 => { e with s4 := a }
  | .s5 => { e with s5 := a } | .s6 => { e with s6 := a } | .s7 => { e with s7 := a } | .s8 => { e with s8 := a }

/-- A sensor packed into one byte: station in the high four bits, channel in the low four (R177). -/
def packSensor (station channel : Nat) : Nat := station * 16 + channel

/-- The sensor place of sensor s.c, 1 to 32: 4 × (s − 1) + c (R99, R171). -/
def sensorPlace (station channel : Nat) : Nat := 4 * (station - 1) + channel

/-- Whether a packed sensor byte names a valid station.channel (R99). -/
def validSensor (b : Nat) : Bool := 1 ≤ b / 16 && b / 16 ≤ 8 && 1 ≤ b % 16 && b % 16 ≤ 4

/-! ## Codes (12.1) -/

def phaseCode : Phase → Nat
  | .idle => 0 | .feed => 1 | .fill1 => 2 | .shake1 => 3 | .fill2 => 4 | .shake2 => 5 | .strip => 6 | .ret => 7

/-- The phase of a three-bit code. -/
def phaseOf (n : Nat) : Phase :=
  match n % 8 with
  | 0 => .idle | 1 => .feed | 2 => .fill1 | 3 => .shake1 | 4 => .fill2 | 5 => .shake2 | 6 => .strip | _ => .ret

def stationStateCode : StationState → Nat
  | .unconfigured => 0 | .configured => 1 | .joining => 2 | .running => 3 | .frozen => 4

def channelStateCode : ChannelState → Nat
  | .off => 0 | .muted => 1 | .hush => 2 | .quiet => 3 | .inHit => 4 | .lockout => 5 | .pulsing => 6 | .recover => 7

def roleCode : Role → Nat
  | .off => 0 | .listen => 1 | .pulse => 2 | .muted => 3

def standingCode : Standing → Nat
  | .novice => 0 | .alone => 1 | .inStep => 2 | .outOfStep => 3 | .split => 4

def healthCode : LaneHealth → Nat
  | .good => 0 | .failing => 1 | .faulty => 2

def couplingCode : Coupling → Nat
  | .unchecked => 0 | .good => 1 | .weak => 2 | .dead => 3

def peerStateCode : PeerState → Nat
  | .absent => 0 | .present => 1 | .missing => 2 | .loggedOut => 3 | .foreign => 4

def segStateCode : SegState → Nat
  | .clear => 0 | .watch => 1 | .suspect => 2 | .cracked => 3

def segStateOf (n : Nat) : SegState :=
  match n % 4 with
  | 0 => .clear | 1 => .watch | 2 => .suspect | _ => .cracked

def frameKindCode : FrameKind → Nat
  | .logout => 1 | .control => 2 | .event => 3 | .hit => 4 | .pulse => 5 | .digest => 6 | .row => 7 | .presence => 8

def frameKindOf : Nat → Option FrameKind
  | 1 => some .logout | 2 => some .control | 3 => some .event | 4 => some .hit
  | 5 => some .pulse | 6 => some .digest | 7 => some .row | 8 => some .presence | _ => none

/-- The access class of a frame kind (R45). -/
def frameClass : FrameKind → Nat
  | .logout => 0 | .control => 0 | .event => 1 | .hit => 2 | .pulse => 2 | .digest => 3 | .row => 3 | .presence => 3

def controlKindCode : ControlKind → Nat
  | .excludeSet => 1 | .release => 2

def controlKindOf : Nat → Option ControlKind
  | 1 => some .excludeSet | 2 => some .release | _ => none

def faultKindCode : FaultKind → Nat
  | .read => 1 | .scrub => 2

def storeCode : Store → Nat
  | .configuration => 1 | .segmentTable => 2 | .snapshot => 3

def partNo : LogoutPart → Nat
  | .part1 => 1 | .part2 => 2 | .part3 => 3

def failCauseCode : Option FailCause → Nat
  | none => 0 | some .clash => 1 | some .mute => 2 | some .starved => 3

def statusCode : Status → Nat
  | .done => 0 | .busy => 1 | .refused => 2 | .invalid => 3

def laneCode : Lane → Nat
  | .x => 0 | .y => 1

/-! ## The configuration block (12.4) -/

namespace Block

def stationNumber (b : List Byte) : Nat := u8 b 0x00
def doubleFill (b : List Byte) : Nat := u8 b 0x01
def closeDelayMs (b : List Byte) : Nat := u16 b 0x02
def maxCycle100Ms (b : List Byte) : Nat := u16 b 0x04
def pdt (b : List Byte) : Nat := u16 b 0x06
def hdt (b : List Byte) : Nat := u16 b 0x08
def hlt (b : List Byte) : Nat := u16 b 0x0A
def hitCapMs (b : List Byte) : Nat := u8 b 0x0C
def pulseWidth (b : List Byte) : Nat := u8 b 0x0D
def recoveryMs (b : List Byte) : Nat := u8 b 0x0E
def linkDelay (b : List Byte) : Nat := u8 b 0x0F
def accessTimeoutMs (b : List Byte) : Nat := u8 b 0x10
def retryCount (b : List Byte) : Nat := u8 b 0x11
def firstRetryLane (b : List Byte) : Nat := u8 b 0x12
def secondRetryLane (b : List Byte) : Nat := u8 b 0x13
def joinWindow100Ms (b : List Byte) : Nat := u8 b 0x14
def presence10Ms (b : List Byte) : Nat := u8 b 0x15
def cw (b : List Byte) : Nat := u16 b 0x16
def gaMs (b : List Byte) : Nat := u8 b 0x18
def publishMs (b : List Byte) : Nat := u8 b 0x19
def nSeg (b : List Byte) : Nat := u8 b 0x1A
def histLen (b : List Byte) : Nat := u8 b 0x1B
def aMin (b : List Byte) : Nat := u8 b 0x1C
def kS (b : List Byte) : Nat := u8 b 0x1D
def kC (b : List Byte) : Nat := u8 b 0x1E
def qW (b : List Byte) : Nat := u8 b 0x1F
def qS (b : List Byte) : Nat := u8 b 0x20
def stopCount (b : List Byte) : Nat := u8 b 0x21
def digestWindow10Ms (b : List Byte) : Nat := u8 b 0x22
def minAge (b : List Byte) : Nat := u8 b 0x23
def checkPeriod (b : List Byte) : Nat := u8 b 0x24
def pulseSpacingMs (b : List Byte) : Nat := u8 b 0x25
def pulseWindow100Us (b : List Byte) : Nat := u8 b 0x26
def zoneCount (b : List Byte) : Nat := u16 b 0x27

/-- Where the policy of a phase begins: five bytes, phase 0 first. -/
def policyAt (code : Nat) : Nat := 0x40 + 5 * code
def listen (b : List Byte) (code : Nat) : Nat := u8 b (policyAt code)
def absolute (b : List Byte) (code : Nat) : Nat := u8 b (policyAt code + 1)
def margin (b : List Byte) (code : Nat) : Nat := u8 b (policyAt code + 2)
def evidential (b : List Byte) (code : Nat) : Nat := u8 b (policyAt code + 3)
def mask (b : List Byte) (code : Nat) : Nat := u8 b (policyAt code + 4)

/-- The pulse channel of station n, 1 to 8. -/
def pulseChannel (b : List Byte) (n : Nat) : Nat := u8 b (0x68 + (n - 1))

/-- Reference pulser, expected amplitude and coupling margin of a sensor place, 1 to 32. -/
def refPulser (b : List Byte) (place : Nat) : Nat := u8 b (0x70 + 3 * (place - 1))
def expected (b : List Byte) (place : Nat) : Nat := u8 b (0x70 + 3 * (place - 1) + 1)
def couplingMargin (b : List Byte) (place : Nat) : Nat := u8 b (0x70 + 3 * (place - 1) + 2)

/-- The single-hit segment of a sensor place. -/
def singleHit (b : List Byte) (place : Nat) : Nat := u8 b (0xD0 + (place - 1))

/-- Where entry i of the Zone Map begins, i from 1: seven bytes each. -/
def zoneAt (i : Nat) : Nat := 0xF0 + 7 * (i - 1)
def zoneFirst (b : List Byte) (i : Nat) : Nat := u8 b (zoneAt i)
/-- 0 means ANY (R177). -/
def zoneSecond (b : List Byte) (i : Nat) : Nat := u8 b (zoneAt i + 1)
def zoneLow (b : List Byte) (i : Nat) : Nat := u16 b (zoneAt i + 2)
def zoneHigh (b : List Byte) (i : Nat) : Nat := u16 b (zoneAt i + 4)
def zoneSegment (b : List Byte) (i : Nat) : Nat := u8 b (zoneAt i + 6)

/-- The CRC-16 the block carries. -/
def check (b : List Byte) : Half := BitVec.ofNat 16 (u16 b 0x7FE)

/-- The fingerprint (R71): CRC-32 over the block without its check, the station number taken as 0. -/
def fingerprint (b : List Byte) : BitVec 32 := crc32 ((b.take 2046).set 0 0)

end Block

/-! ## Segment records (12.2) -/

/-- One history entry's two bytes. -/
def historyBytes (h : HistoryEntry) : List Byte := [byte h.count, h.phases]

/-- A segment record in its 8 + 2H bytes. -/
def segmentBytes (hLen : Nat) (r : SegmentRecord) : List Byte :=
  [byte (segStateCode r.state + 4 * bit r.excluded + 8 * bit r.suspectSince.isSome + 16 * bit r.crackedSince.isSome)]
    ++ be16 r.quietRun
    ++ be16 (match r.suspectSince with | none => 0 | some c => cycleValue c)
    ++ be16 (match r.crackedSince with | none => 0 | some c => cycleValue c)
    ++ [byte (r.history.take hLen).length]
    ++ slice ((r.history.take hLen).flatMap historyBytes) 0 (2 * hLen)

/-- The segment record of its 8 + 2H bytes. A since-field whose flag is set is present whatever its value, and a history length
above H is read as H (log entry 38); the bits 5 to 7 of byte 0, which 12.2 does not name, are ignored (log entry 49). -/
def segmentOf (hLen : Nat) (bs : List Byte) : SegmentRecord :=
  { state := segStateOf (u8 bs 0)
    excluded := (bs.getD 0 0).getLsbD 2
    quietRun := u16 bs 1
    suspectSince := if (bs.getD 0 0).getLsbD 3 then some (cycleOf (u16 bs 3)) else none
    crackedSince := if (bs.getD 0 0).getLsbD 4 then some (cycleOf (u16 bs 5)) else none
    history := (List.range (min (u8 bs 7) hLen)).map fun j => ⟨u8 bs (8 + 2 * j), bs.getD (9 + 2 * j) 0⟩ }

/-- The bytes a digest is taken over (R133): cycle number, age, then the records in segment order. -/
def digestBytes (hLen : Nat) (cycle : Option CycleNo) (age : Nat) (records : List SegmentRecord) : List Byte :=
  be16 (cycleValue cycle) ++ be16 age ++ records.flatMap (segmentBytes hLen)

/-- The digest of a table (R133). -/
def digestOf (hLen : Nat) (cycle : Option CycleNo) (age : Nat) (records : List SegmentRecord) : BitVec 32 :=
  crc32 (digestBytes hLen cycle age records)

/-! ## Frame payloads (12.2) -/

/-- A HIT record's 16 bytes. -/
def hitBytes (h : HitRecord) : List Byte :=
  [byte (packSensor h.station h.channel)] ++ be32 h.arrival ++ [byte h.features.peak] ++ be16 h.features.rise
    ++ be16 h.features.duration ++ be16 h.features.crossings ++ be16 h.features.energy
    ++ [byte (bit h.features.saturated + 2 * bit h.features.long), byte (phaseCode h.phase)]

/-- The HIT record of its 16 bytes; the bits of bytes 14 and 15 that 12.2 does not name are ignored (log entry 49). -/
def hitOf (bs : List Byte) : HitRecord :=
  { station := u8 bs 0 / 16, channel := u8 bs 0 % 16, arrival := u32 bs 1
    phase := phaseOf (u8 bs 15)
    features :=
      { peak := u8 bs 5, rise := u16 bs 6, duration := u16 bs 8, crossings := u16 bs 10 % 4096, energy := u16 bs 12
        saturated := (bs.getD 14 0).getLsbD 0, long := (bs.getD 14 0).getLsbD 1 } }

/-- The records of a HIT payload, in payload order. -/
def hitsOf (p : List Byte) : List HitRecord := (List.range (p.length / 16)).map fun i => hitOf (slice p (16 * i) 16)

/-- A member identity's six bytes. -/
def idBytes (i : HitId) : List Byte := [byte i.station, byte i.channel] ++ be32 i.tag

/-- An EVENT payload (R106). -/
def eventBytes (e : EventRecord) : List Byte :=
  be16 (cycleValue e.cycle) ++ [byte (phaseCode e.phase + 16 * e.method.toNat), byte e.segment, e.attrs,
    byte ((e.hitCount - 1) * 16 + (e.sensorCount - 1)), byte e.peak] ++ be24 e.energy ++ be16 e.longest
    ++ e.ids.flatMap idBytes

/-- The EVENT record of a payload; bit 7 of the attributes is ignored (R177), and so are the bits of byte 2 that 12.2 does not name (log
entry 49). -/
def eventOf (p : List Byte) : EventRecord :=
  { cycle := cycleOf (u16 p 0), phase := phaseOf (u8 p 2), method := BitVec.ofNat 2 (u8 p 2 / 16), segment := u8 p 3
    attrs := p.getD 4 0 &&& 0x7F#8, hitCount := u8 p 5 / 16 + 1, sensorCount := u8 p 5 % 16 + 1, peak := u8 p 6
    energy := u24 p 7, longest := u16 p 10
    ids := (List.range ((p.length - 12) / 6)).map fun i => ⟨u8 p (12 + 6 * i), u8 p (13 + 6 * i), u32 p (14 + 6 * i)⟩ }

/-- A CONTROL payload. -/
def controlBytes (c : Control) : List Byte := [byte (controlKindCode c.kind), c.group, c.value, c.mask]

/-- A PULSE payload: the channel and the fire offset, always 1000. -/
def pulseBytes (channel : Nat) : List Byte := byte channel :: be16 1000

/-- A ROW payload (R141). -/
def rowBytes (hLen : Nat) (r : RowFrame) : List Byte :=
  be16 (cycleValue r.cycle) ++ be32 r.digest ++ be16 r.age ++ [byte r.first, byte (r.count + 128 * bit r.last)]
    ++ r.records.flatMap (segmentBytes hLen)

/-- The ROW of a payload; bits 4 to 6 of byte 9 are ignored (R178). -/
def rowOf (hLen : Nat) (p : List Byte) : RowFrame :=
  { cycle := cycleOf (u16 p 0), digest := u32 p 2, age := u16 p 6, first := u8 p 8, count := u8 p 9 % 16
    last := (p.getD 9 0).getLsbD 7
    records := (List.range (u8 p 9 % 16)).map fun i => segmentOf hLen (slice p (10 + i * (8 + 2 * hLen)) (8 + 2 * hLen)) }

/-! ## Frames (R42, R43, 12.2) -/

/-- The whole frame of an attempt. -/
def frameBytes (kind : FrameKind) (sender : Nat) (stamp : Tag) (cycle : Option CycleNo) (payload : List Byte) : List Byte :=
  let body := [byte (frameKindCode kind), byte sender] ++ be32 stamp ++ be16 (cycleValue cycle)
    ++ [byte payload.length] ++ payload
  [0xD5#8, 0x6B#8] ++ body ++ be16 (crc16 body).toNat

namespace RxFrame

def kindByte (f : RxFrame) : Nat := u8 f.bytes 2
def senderByte (f : RxFrame) : Nat := u8 f.bytes 3
def senderStamp (f : RxFrame) : Tag := u32 f.bytes 4
def cycle (f : RxFrame) : Option CycleNo := cycleOf (u16 f.bytes 8)
def length (f : RxFrame) : Nat := u8 f.bytes 10
def payload (f : RxFrame) : List Byte := slice f.bytes 11 f.length
/-- Whether the check bytes are the CRC-16 over header and payload (R59). -/
def checkOk (f : RxFrame) : Bool :=
  crc16 (slice f.bytes 2 (9 + f.length)) == BitVec.ofNat 16 (u16 f.bytes (11 + f.length))

end RxFrame

/-- Whether the payload length is right for the kind (R59). -/
def lengthOk (hLen : Nat) (kind : FrameKind) (p : List Byte) : Bool :=
  match kind with
  | .logout => p.length == 10
  | .control => p.length == 4
  | .event => 12 ≤ p.length && p.length == 12 + 6 * (u8 p 5 / 16 + 1)
  | .hit => p.length == 16 || p.length == 32 || p.length == 48 || p.length == 64
  | .pulse => p.length == 3
  | .digest => p.length == 23
  | .row => 10 ≤ p.length && p.length == 10 + (u8 p 9 % 16) * (8 + 2 * hLen)
  | .presence => p.length == 10

/-- Acceptance (R59): the kind and the sender of a frame that passes every check. -/
def acceptance (hLen : Nat) (f : RxFrame) : Option (FrameKind × Station) :=
  match frameKindOf f.kindByte, stOf f.senderByte with
  | some k, some st => if f.checkOk && lengthOk hLen k f.payload then some (k, st) else none
  | _, _ => none

/-- The PRESENCE content of a payload, its bytes as received (R178; log entry 49). -/
def presenceOf (p : List Byte) : PresenceContent :=
  { phase := p.getD 4 0, age := u16 p 5, standing := p.getD 7 0, coupling := p.getD 8 0, lanes := p.getD 9 0 }

/-- The DIGEST content of a payload, with the local arrival tag. -/
def digestContentOf (p : List Byte) (arrival : Tag) : DigestContent :=
  { cycle := cycleOf (u16 p 0), digest := u32 p 2, age := u16 p 6, standing := p.getD 8 0, counts := slice p 9 14
    arrival := arrival }

/-! ## Board Port records (12.3) -/

/-- The sixteen bytes of a notice's kind with its detail: the kind byte and the detail bytes that follow the subject. -/
def noticeKindCode : NoticeDetail → Nat
  | .segmentState .. => 1 | .standing .. => 2 | .peerState .. => 3 | .laneState .. => 4 | .sensorState .. => 5
  | .controlResult .. => 6 | .transfer .. => 7 | .duplicateNumber .. => 8 | .sampleLoss .. => 9 | .cycleFlag .. => 10
  | .restarted .. => 11 | .stacked .. => 12

def laneEventCode : LaneEvent → Nat
  | .health h => healthCode h
  | .home => 3 | .lost => 4 | .restored => 5

def segCauseCode : SegCause → Nat
  | .fold => 1 | .exclude => 2 | .release => 3 | .transfer => 4

def transferBytes : TransferEnd → List Byte
  | .sent => [1, 0]
  | .aborted => [2, 0]
  | .completed => [3, 0]
  | .abandoned .order => [4, 1]
  | .abandoned .mismatch => [4, 2]
  | .abandoned .carry => [4, 3]
  | .abandoned .donor => [4, 4]
  | .abandoned .close => [4, 5]

def closeCauseCode : CloseCause → Nat
  | .settle => 1 | .cyc => 2 | .cycleTimer => 3

def restartCauseCode : RestartCause → Nat
  | .command => 1 | .fault => 2 | .double => 3

/-- The detail bytes of a notice, before padding to twelve. -/
def detailBytes : NoticeDetail → List Byte
  | .segmentState st ex c => [byte (segStateCode st), byte (bit ex), byte (segCauseCode c)]
  | .standing n => [byte (standingCode n)]
  | .peerState n => [byte (peerStateCode n)]
  | .laneState l e => [byte (laneCode l), byte (laneEventCode e)]
  | .sensorState n => [byte (couplingCode n)]
  | .controlResult d c f r => [if d then 1 else 2] ++ controlBytes c ++ [byte (failCauseCode f), byte r]
  | .transfer w => transferBytes w
  | .duplicateNumber l => [byte (laneCode l)]
  | .sampleLoss l => [if l then 1 else 2]
  | .cycleFlag c d a w => be16 (cycleValue c) ++ [byte (bit d + 2 * bit a), byte (closeCauseCode w)]
  | .restarted w => [byte (restartCauseCode w)]
  | .stacked cs => cs.map byte

/-- The 16-byte record of a notice. -/
def noticeBytes (n : Notice) : List Byte :=
  [byte (noticeKindCode n.detail)] ++ be16 (cycleValue n.cycle) ++ [byte n.subject] ++ slice (detailBytes n.detail) 0 12

/-- An optional field's bytes: absent, they are sent as 0 (R177). -/
def optBytes {α : Type} (n : Nat) (f : α → List Byte) : Option α → List Byte
  | none => List.replicate n 0
  | some a => f a

/-- A PRESENCE content's six bytes, as PRESENCE offsets 4 to 9. -/
def presenceContentBytes (c : PresenceContent) : List Byte :=
  [c.phase] ++ be16 c.age ++ [c.standing, c.coupling, c.lanes]

/-- A DIGEST content's 27 bytes, as DIGEST offsets 0 to 22, then the arrival tag. -/
def digestContentBytes (d : DigestContent) : List Byte :=
  be16 (cycleValue d.cycle) ++ be32 d.digest ++ be16 d.age ++ [d.standing] ++ slice d.counts 0 14 ++ be32 d.arrival

/-- The 77-byte peer record (READ PEER). -/
def peerBytes (r : PeerRecord) : List Byte :=
  [byte (peerStateCode r.state),
   byte (bit r.lastHeard.isSome + 2 * bit r.offset.isSome + 4 * bit r.fingerprint.isSome + 8 * bit r.presence.isSome
    + 16 * bit r.digest.isSome + 32 * bit r.logout.part1.isSome + 64 * bit r.logout.part2.isSome
    + 128 * bit r.logout.part3.isSome)]
    ++ optBytes 4 be32 r.lastHeard ++ optBytes 4 be32 r.offset ++ optBytes 4 be32 r.fingerprint
    ++ optBytes 6 presenceContentBytes r.presence ++ optBytes 27 digestContentBytes r.digest
    ++ optBytes 9 (slice · 0 9) r.logout.part1 ++ optBytes 9 (slice · 0 9) r.logout.part2
    ++ optBytes 8 (slice · 0 8) r.logout.part3 ++ be16 r.taken ++ be16 r.heldBack

/-- One coupling record's two bytes (READ COUPLING). -/
def couplingBytes (r : CouplingRecord) : List Byte :=
  [byte (couplingCode r.state + 4 * bit r.lastPeak.isSome + 16 * r.misses), byte (r.lastPeak.getD 0)]

/-- The 13-byte fault record (READ FAULT). -/
def faultRecordBytes (f : FaultRecord) : List Byte :=
  [byte (bit f.kind.isSome + 2 * bit f.store.isSome + 4 * bit f.cycle.isSome + 8 * bit f.phase.isSome
    + 16 * bit f.tag.isSome)]
    ++ optBytes 1 (fun k => [byte (faultKindCode k)]) f.kind ++ optBytes 1 (fun k => [byte (storeCode k)]) f.store
    ++ optBytes 2 (fun c => be16 (cycleValue c)) f.cycle ++ optBytes 1 (fun p => [byte (phaseCode p)]) f.phase
    ++ optBytes 4 be32 f.tag ++ [byte f.partsSent, byte (bit f.doubleFault), byte f.restarts]

end Sys2Proof.Machine
end

