-- ==== Sys2Proof/Machine/Flags.lean ====
section
/-! DEFINITION. The flags and levels that follow from other state: lane health, the kind of a close, the output pins, the
listen setting, the open group; and the saturating counts. -/

namespace Sys2Proof.Machine

/-! ## Saturating counts ("Counts" of the conventions) -/

/-- A count raised by one, stopping at 65 535. -/
def raised (n : Nat) : Nat := min (n + 1) 65535

/-- A count raised by `k`, stopping at 65 535. -/
def raisedBy (k n : Nat) : Nat := min (n + k) 65535

/-- A count raised by one, stopping at 255. -/
def raised255 (n : Nat) : Nat := min (n + 1) 255

/-! ## The time tag -/

/-- The station's time tag: 32 bits of 1 µs ticks, wrapping ("Time tag" of the terms). -/
def State.now (s : State) : Tag := BitVec.ofNat 32 s.clock

/-- A time tag of the last 2^32 µs, as a value of the clock. -/
def State.clockAt (s : State) (t : Tag) : Nat := s.clock - elapsed s.now t

/-! ## Derived levels -/

/-- A lane's health follows from its failure run (R54). -/
def healthOf (run : Nat) : LaneHealth :=
  if run = 0 then .good else if run ≤ 3 then .failing else .faulty

/-- The kind of a close with these flags (R13). -/
def closeKind (disordered abandoned : Bool) : CloseKind :=
  if abandoned then .abandoned else if disordered then .disordered else .normal

/-- The configuration block in use; all bytes 0 while the store is empty. -/
def State.block (s : State) : List Byte := s.port.config.getD []

/-- Whether the pulse window is OPEN on the station (R154). -/
def State.windowOpen (s : State) : Bool :=
  match s.coup.window with
  | some w => w.stage == .isOpen
  | none => false

/-- The listen setting of the current phase (R16). -/
def State.listening (s : State) : Bool := Block.listen s.block (phaseCode s.tracker.phase) == 1

/-- The threshold of a channel (R22): the larger of the absolute threshold and the floor plus the margin, both of the
current phase's policy; the absolute threshold alone while the floor is unset. -/
def State.threshold (s : State) (u : ChannelUnit) : Nat :=
  match noiseFloor u.floorWindow with
  | none => Block.absolute s.block (phaseCode s.tracker.phase)
  | some f => max (Block.absolute s.block (phaseCode s.tracker.phase))
      (f + Block.margin s.block (phaseCode s.tracker.phase))

/-- The own station number; 0 while there is none. -/
def State.ownNo (s : State) : Nat := (s.member.number.map stNo).getD 0

/-- Whether the station is JOINING or RUNNING, when most blocks work (R64). -/
def State.atWork (s : State) : Bool := s.member.station == .joining || s.member.station == .running

/-- Whether the station's receivers and its Link Unit run: JOINING, RUNNING or FROZEN (R41, R63). -/
def State.linkUp (s : State) : Bool := s.atWork || s.member.station == .frozen

/-- The NOTICE line: asserted while the notice queue holds a notice (R174). -/
def State.noticeLine (s : State) : Bool := !s.port.notices.isEmpty

/-- A pulse drive is active only in PULSING (R23). -/
def State.pulseDrive (s : State) (c : Channel) : Bool := (s.channels.units.get c).state == .pulsing

/-- A lane's transmitter drives only during an own attempt that is transmitting on it (R41). -/
def State.transmitting (s : State) (l : Lane) : Bool :=
  match s.link.current with
  | some c => c.lane == l && (match c.attempt with | .transmitting _ => true | .waiting _ => false)
  | none => false

/-- The frame the current attempt puts on its lane: the check is computed afresh with the attempt's sender stamp (R43, R44). -/
def State.sendingFrame (s : State) : Option (List Byte) :=
  match s.link.current with
  | some c =>
    match c.attempt with
    | .transmitting stamp => some (frameBytes c.kind s.ownNo stamp c.cycle c.payload)
    | .waiting _ => none
  | none => none

/-- The access gap of a frame kind at a station (R45). -/
def accessGap (kind : FrameKind) (ownNo : Nat) : Nat := 8 + 20 * frameClass kind + 2 * (ownNo - 1)

/-- The open group: the Hit Window read from its earliest entry (R85). -/
structure OpenGroup where
  anchor : Tag
  members : List HitEntry
  crowded : Bool
  /-- the tag at which the group closes -/
  expiry : Tag
deriving DecidableEq, Repr

/-- The most members of a group (R85). -/
def groupCapacity : Nat := 16

/-- The entries of the window that lie in the span of its earliest entry: those at the window's front within CW of it (R85). -/
def spanEntries (cw : Nat) (window : List HitEntry) : List HitEntry :=
  match window with
  | [] => []
  | e :: _ => window.takeWhile fun h => elapsed h.localArrival e.localArrival ≤ cw

/-- The open group of a window, with CW in µs and GA in ms (R85). -/
def openGroupOf (cw gaMs : Nat) (window : List HitEntry) : Option OpenGroup :=
  match window with
  | [] => none
  | e :: _ =>
    some { anchor := e.localArrival
           members := (spanEntries cw window).take groupCapacity
           crowded := groupCapacity < (spanEntries cw window).length
           expiry := e.localArrival + span (cw + gaMs * 1000) }

/-- The open group of the station now (R85). -/
def State.openGroup (s : State) : Option OpenGroup :=
  openGroupOf (Block.cw s.block) (Block.gaMs s.block) s.coin.window

/-- The PRESENCE payload made at a request (R76, 12.2). -/
def State.presencePayload (s : State) : List Byte :=
  be32 (s.member.fingerprint.getD 0) ++ [byte (phaseCode s.tracker.phase)] ++ be16 s.evid.age
    ++ [byte (standingCode s.agree.standing),
        byte (couplingCode s.coup.records.c1.state + 4 * couplingCode s.coup.records.c2.state
          + 16 * couplingCode s.coup.records.c3.state + 64 * couplingCode s.coup.records.c4.state),
        byte (healthCode (healthOf s.link.lanes.x.run) + 4 * healthCode (healthOf s.link.lanes.y.run))]

/-- The sum of the two lanes' overrun counts, stopping at 65 535 (R62). -/
def State.overrunSum (s : State) : Nat := min (s.link.lanes.x.overruns + s.link.lanes.y.overruns) 65535

end Sys2Proof.Machine
end

