-- ==== Sys2Proof/Machine/Ops.lean ====
section
/-! DEFINITION. The named operations every command is made of: replacing one block's state, the arrival of a command, notices,
the transmit queue, and the channels. -/

namespace Sys2Proof.Machine

namespace State

/-! ## Replacing one part of the state -/

def withClock (s : State) (v : Nat) : State := { s with clock := v }
def withTracker (s : State) (v : Tracker) : State := { s with tracker := v }
def withChannels (s : State) (v : Channels) : State := { s with channels := v }
def withLink (s : State) (v : Link) : State := { s with link := v }
def withMember (s : State) (v : Membership) : State := { s with member := v }
def withCoin (s : State) (v : Coincidence) : State := { s with coin := v }
def withEvid (s : State) (v : Evidence) : State := { s with evid := v }
def withAgree (s : State) (v : Agreement) : State := { s with agree := v }
def withCoup (s : State) (v : CouplingUnit) : State := { s with coup := v }
def withFault (s : State) (v : FaultUnit) : State := { s with fault := v }
def withPort (s : State) (v : BoardPort) : State := { s with port := v }
def withFreeCount (s : State) (v : Nat) : State := { s with freeCount := v }
def withPending (s : State) (v : List Instr) : State := { s with pending := v }

/-- Time moves on to the next moment with this tag: less than 2^32 µs from now (log entry 2). -/
def withNow (s : State) (v : Tag) : State := s.withClock (s.clock + elapsed v s.now)

/-- One Channel Unit replaced. -/
def setUnit (s : State) (c : Channel) (u : ChannelUnit) : State :=
  s.withChannels { s.channels with units := s.channels.units.set c u }

/-- One lane's unit replaced. -/
def setLane (s : State) (l : Lane) (u : LaneUnit) : State :=
  s.withLink { s.link with lanes := s.link.lanes.set l u }

/-- One peer record replaced. -/
def setPeer (s : State) (st : Station) (r : PeerRecord) : State :=
  s.withMember { s.member with peers := s.member.peers.set st r }

/-- What follows in the same step goes on unless a freezing fault has stopped the station on the way (R163; log entry 7).
Used only where the station was JOINING or RUNNING before. -/
def unlessFrozen (s : State) (f : State → State) : State := if s.member.station = .frozen then s else f s

end State

/-! ## The protected stores' parity (R161) -/

/-- Whether a word of a protected store exists now, so that a bit of it can flip. -/
def wordExists (s : State) : StoreWord → Bool
  | .config i => s.port.config.isSome && s.member.station != .unconfigured && i < 2048
  | .segment n => 1 ≤ n && n ≤ s.evid.table.length
  | .snapshot n => s.agree.snapshot.isSome && n ≤ s.evid.table.length
  | .window id => s.coin.window.any fun e => e.id == id
  | .applied key => s.evid.applied.any fun e => e.event.ids.head? == some key

/-- Whether a read of the word finds a parity fault: its parity does not match and it is not set aside (R161, R163). -/
def badParity (s : State) (w : StoreWord) : Bool :=
  s.fault.flipped.any (fun u => u.word == w) && s.fault.faultedWord != some w

/-- Words written anew carry matching parity again (R161). -/
def rewrite (p : StoreWord → Bool) (s : State) : State :=
  s.withFault { s.fault with flipped := s.fault.flipped.filter fun u => !p u.word }

/-- A command arrives: the time tag moves on to its moment, and the bits that flipped before it are flipped (log entries 2, 5). -/
def arrive (m : Moment) (s : State) : State :=
  (s.withNow m.tag).withFault
    { s.fault with flipped := s.fault.flipped ++ m.upsets.filter fun u => wordExists s u.word }

/-! ## Notices (R174, R175) -/

/-- The capacity of the notice queue (R174). -/
def noticeCapacity : Nat := 32

/-- A notice is raised: appended while the queue holds fewer than 32, else counted in the stacked count of its kind. -/
def raise (n : Notice) (s : State) : State :=
  if s.port.notices.length < noticeCapacity then s.withPort { s.port with notices := s.port.notices ++ [n] }
  else
    let k := noticeKindCode n.detail - 1
    s.withPort { s.port with stacked := s.port.stacked.set k (raised255 (s.port.stacked.getD k 0)) }

/-- A notice whose cycle is the current cycle number (R174). -/
def raiseNow (subject : Nat) (d : NoticeDetail) (s : State) : State := raise ⟨s.tracker.cycle, subject, d⟩ s

/-- A removal's room is taken by a STACKED notice when some stacked count is above 0 (R175). -/
def offerStacked (s : State) : State :=
  if s.port.stacked.any (0 < ·) then
    s.withPort { s.port with
      notices := s.port.notices ++ [⟨s.tracker.cycle, s.ownNo, .stacked s.port.stacked⟩]
      stacked := List.replicate 12 0 }
  else s

/-! ## The transmit queue (R46 to R48) -/

/-- The capacity of the transmit queue (R46). -/
def queueCapacity : Nat := 12

/-- An entry that may be selected: a descriptor, or the implicit HIT entry (`ref` none), with its class and age (R48). -/
structure Candidate where
  ref : Option Nat
  cls : Nat
  tag : Tag
deriving DecidableEq, Repr

/-- The entries of the transmit queue: its descriptors, and the implicit HIT entry while the Own Hit Queue is not empty (R46, R48). -/
def candidates (s : State) : List Candidate :=
  (s.link.queue.map fun d => ⟨some d.ref, frameClass d.kind, d.tag⟩) ++
    (match s.channels.queue with
     | [] => []
     | q :: _ => [⟨none, frameClass .hit, q.appended⟩])

/-- The candidates of the lowest class, and of these the oldest (R48): no other is earlier. -/
def bestCandidates (cs : List Candidate) : List Candidate :=
  let low := cs.filter fun c => cs.all fun d => c.cls ≤ d.cls
  let old := low.filter fun c => low.all fun d => !later c.tag d.tag
  if old.isEmpty then low else old

/-- The tag at which an access timer started now expires (R49). -/
def accessDue (s : State) : Tag := s.now + span (Block.accessTimeoutMs s.block * 1000)

/-- The first attempt of a selected frame starts to wait on the home lane; the header cycle field is taken now (R44, R48, R49). -/
def beginFrame (ref : Option Nat) (kind : FrameKind) (payload : List Byte) (s : State) : State :=
  s.withLink { s.link with
    current := some
      { ref := ref, kind := kind, payload := payload, cycle := s.tracker.cycle, lane := s.link.home
        attempt := .waiting (accessDue s), retries := 0, lastFailure := none, noRetry := false, unreported := false } }

/-- How many records a HIT frame takes (R31, R48). -/
def hitsPerFrame : Nat := 4

/-- A candidate is selected: a descriptor's frame, or a HIT frame built from the oldest records of the Own Hit Queue,
which leave it (R48). -/
def selectEntry (c : Candidate) (s : State) : State :=
  match c.ref with
  | some r =>
    match s.link.queue.find? (fun d => d.ref == r) with
    | some d => beginFrame (some r) d.kind d.payload s
    | none => s
  | none =>
    beginFrame none .hit ((s.channels.queue.take hitsPerFrame).flatMap fun q => hitBytes q.hit)
      (s.withChannels { s.channels with queue := s.channels.queue.drop hitsPerFrame })

/-- With no current frame, the next frame is selected (R48). Between entries of the same class and the same tag the manual gives
no order: a free choice (log entry 12). The access timeout is not checked here: `selectNext` (FaultOps.lean) does that. -/
def selectFrame (s : State) : State :=
  if s.link.current.isSome then s
  else
    match bestCandidates (candidates s) with
    | [] => s
    | [c] => selectEntry c s
    | c :: d :: cs =>
      selectEntry ((c :: d :: cs).getD (Config.freeChoice s.freeCount % (c :: d :: cs).length) c)
        (s.withFreeCount (s.freeCount + 1))

/-- Whether a request of this kind is taken (R46). -/
def canRequest (kind : FrameKind) (s : State) : Bool :=
  s.link.queue.length < queueCapacity &&
    !((kind == .row || kind == .control) && s.link.queue.any fun d => d.kind == kind)

/-- A request is taken: its descriptor, named by the next `ref`, joins the queue (R46). -/
def enqueue (kind : FrameKind) (payload : List Byte) (s : State) : State :=
  s.withLink { s.link with
    queue := s.link.queue ++ [⟨s.link.nextRef, kind, payload, s.now⟩]
    nextRef := s.link.nextRef + 1 }

/-- A request whose caller looks itself at the access timeout that the selection reads (a freeze, an entry to JOINING). -/
def requestUnchecked (kind : FrameKind) (payload : List Byte) (s : State) : State :=
  if canRequest kind s then selectFrame (enqueue kind payload s) else s

/-- Whether a descriptor is selected as the current frame. -/
def isSelected (ref : Nat) (s : State) : Bool :=
  match s.link.current with
  | some c => c.ref == some ref
  | none => false

/-- A withdrawal (R47): the descriptor goes, unless it has been selected. -/
def withdraw (ref : Nat) (s : State) : State :=
  if isSelected ref s then s
  else s.withLink { s.link with queue := s.link.queue.filter fun d => d.ref != ref }

/-! ## The Hit Window's removals (R80) -/

/-- An entry is taken out of the Hit Window if it is there (R80). The group's re-forming, which reads what remains through its parity,
is `formGroup` (FaultOps.lean; log entry 46). -/
def removeHit (id : HitId) (s : State) : State :=
  rewrite (fun w => w == .window id)
    (s.withCoin { s.coin with window := s.coin.window.filter fun e => e.id != id })

/-! ## Channels (chapter 2) -/

/-- The state a LISTEN channel in service takes: QUIET while it is to listen, else HUSH (R24, R39). -/
def listenState (s : State) : ChannelState := if s.listening || s.windowOpen then .quiet else .hush

/-- The identity of an own hit (R79). -/
def ownHitId (s : State) (c : Channel) (arrival : Tag) : HitId := ⟨s.ownNo, chNo c, arrival⟩

/-- The Coupling Unit's kept capture of a channel, if it is the hit that arrived then, becomes `new` (R155). -/
def settleCapture (c : Channel) (arrival : Tag) (new : Capture) (s : State) : State :=
  match s.coup.window with
  | some w =>
    if w.captures.get c = .started arrival then
      s.withCoup { s.coup with window := some { w with captures := w.captures.set c new } }
    else s
  | none => s

/-- What the listen setting makes of one channel (R24): only QUIET and HUSH of role LISTEN follow it. -/
def followListen (listen : Bool) (u : ChannelUnit) : ChannelUnit :=
  if u.role = .listen then
    if u.state = .quiet ∧ listen = false then { u with state := .hush }
    else if u.state = .hush ∧ listen = true then { u with state := .quiet }
    else u
  else u

/-- The new phase's policy is offered to the four channels (R16, R24); in an open pulse window they keep listening (R39). -/
def offerPolicy (s : State) : State :=
  s.withChannels { s.channels with
    units := s.channels.units.map fun _ u => followListen (s.listening || s.windowOpen) u }

/-- What the opening of a pulse window does to one channel (R39). -/
def openWindowUnit (u : ChannelUnit) : ChannelUnit :=
  if (u.role = .listen ∧ u.state = .hush) ∨ (u.role = .muted ∧ u.state = .muted) then { u with state := .quiet } else u

/-- What the closing of a pulse window does to one channel (R39). -/
def closeWindowUnit (listen : Bool) (u : ChannelUnit) : ChannelUnit :=
  if u.state = .quiet ∧ u.role = .listen ∧ listen = false then { u with state := .hush }
  else if u.state = .quiet ∧ u.role = .muted then { u with state := .muted, floorWindow := [] }
  else u

/-- The Channel Units are told that the pulse window has opened (R39). -/
def channelsWindowOpened (s : State) : State :=
  s.withChannels { s.channels with units := s.channels.units.map fun _ u => openWindowUnit u }

end Sys2Proof.Machine
end

