-- ==== Sys2Proof/Machine/FaultOps.lean ====
section
/-! DEFINITION. The Fault Unit's shared operations (chapter 10): freezing, the logout's parts, returning the blocks to their
reset values, entering JOINING, the self-restart, the frame of a command's step, reading a protected word; and the Link Unit's
selection, which reads one. -/

namespace Sys2Proof.Machine

/-- The store a freezing fault is recorded under (R163). -/
def storeOf : StoreWord → Store
  | .segment _ => .segmentTable
  | .snapshot _ => .snapshot
  | _ => .configuration

/-- A LOGOUT part's payload, made at its request (R164, 12.2). -/
def logoutPayload (p : LogoutPart) (s : State) : List Byte :=
  match p with
  | .part1 =>
    let r := s.fault.record
    [1, byte ((r.kind.map faultKindCode).getD 0), byte ((r.store.map storeCode).getD 0)]
      ++ be16 (cycleValue (r.cycle.getD none)) ++ [byte ((r.phase.map phaseCode).getD 0)] ++ be32 (r.tag.getD 0)
  | .part2 =>
    [2, byte (2 ^ s.link.lastAccepted.length - 1)]
      ++ slice (s.link.lastAccepted.flatMap fun e => [byte (frameKindCode e.1), byte (stNo e.2)]) 0 8
  | .part3 =>
    [3] ++ be16 s.channels.detected ++ be16 s.coin.counts.published ++ be16 s.link.dropped ++ be16 s.overrunSum ++ [0]

/-- What a freeze makes of one channel: OFF with role OFF, its drive released, nothing watched (R40, R35, R34). -/
def freezeUnit (u : ChannelUnit) : ChannelUnit := { ChannelUnit.reset with losses := u.losses }

/-- The Link Unit's flush (R63): every descriptor but a transmitting current frame's goes; that frame finishes its attempt
without retry and without report; a waiting one is removed at once. -/
def flushLink (l : Link) : Link :=
  match l.current with
  | some c =>
    match c.attempt with
    | .transmitting _ =>
      { l with queue := l.queue.filter fun d => c.ref == some d.ref
               current := some { c with noRetry := true, unreported := true } }
    | .waiting _ => { l with queue := [], current := none }
  | none => { l with queue := [] }

/-- The coincidence state cleared at a freeze, without count (R98). -/
def clearCoincidence (c : Coincidence) : Coincidence :=
  { c with window := [], horizon := none, pendingGroups := [], ownerRefs := [] }

/-- The limit on the logout: 100 ms (R163). -/
def logoutLimit : Nat := 100000

/-- The record of a freezing fault, written afresh (R163). -/
def freshRecord (kind : FaultKind) (w : StoreWord) (s : State) : FaultRecord :=
  { kind := some kind, store := some (storeOf w), cycle := some s.tracker.cycle, phase := some s.tracker.phase
    tag := some s.now, partsSent := 0, doubleFault := false, restarts := s.fault.record.restarts }

/-- The station stops (R163): the record is written afresh, the word set aside, the station made FROZEN with what each block
does at that, the logout timer started. -/
def stopStation (kind : FaultKind) (w : StoreWord) (s : State) : State :=
  { s with
    channels := { s.channels with units := s.channels.units.map fun _ u => freezeUnit u, queue := [] }
    link := flushLink s.link
    member := { s.member with station := .frozen }
    coin := clearCoincidence s.coin
    fault := { s.fault with
      flipped := s.fault.flipped.filter fun u => match u.word with | .window _ => false | _ => true
      faultedWord := some w
      logout := some .part1
      logoutTimer := some (s.now + span logoutLimit)
      record := freshRecord kind w s } }

/-- A freezing fault (R163): the station stops, and LOGOUT part 1 is requested. The access timeout that its selection may read is
looked at when the step ends (`lookAgain`). -/
def freeze (kind : FaultKind) (w : StoreWord) (s : State) : State :=
  let s1 := stopStation kind w s
  requestUnchecked .logout (logoutPayload .part1 s1) s1

/-- The transaction in hand across a restart: the notice it returned is no longer in the queue (R174). -/
def slotAfterRestart (j : Judged) : Judged :=
  match j.command with
  | .nextNotice _ => { j with command := .nextNotice false }
  | _ => j

/-- Every block but the configuration, the load result and the fault record returns to its reset values, and a RESTARTED
notice is queued first (R64, R165, R172). The own number and fingerprint stay with the configuration (R68). -/
def resetBlocks (why : RestartCause) (s : State) : State :=
  { s with
    tracker := .reset
    channels := .reset
    link := .reset
    member := { Membership.reset with
      station := s.member.station, number := s.member.number, fingerprint := s.member.fingerprint }
    coin := .reset
    evid := .reset (if s.member.station = .unconfigured then 0 else Block.nSeg s.block)
    agree := .reset
    coup := .reset
    fault := { FaultUnit.reset with
      flipped := s.fault.flipped.filter fun u => match u.word with | .config _ => true | _ => false
      record := s.fault.record }
    port := { s.port with
      slot := s.port.slot.map slotAfterRestart
      control := none
      notices := [⟨none, s.ownNo, .restarted why⟩]
      stacked := List.replicate 12 0 } }

/-- The words of the configuration store that entering JOINING uses: access timeout, join window, presence period and the listen
setting of IDLE (R65, R40; log entry 7). -/
def joinWords : List Nat := [0x10, 0x14, 0x15, Block.policyAt 0]

/-- The own record on entry to JOINING (R65). -/
def ownRecord (s : State) : PeerRecord := { PeerRecord.reset with state := .present, fingerprint := s.member.fingerprint }

/-- A channel at START: role LISTEN, QUIET or HUSH by the listen setting, its lane watched from now on (R40, R33). -/
def startUnit (listen : Bool) (now : Tag) (u : ChannelUnit) : ChannelUnit :=
  { u with role := .listen, state := if listen then .quiet else .hush, watch := .watching now }

/-- The presence period as a span. -/
def presencePeriod (s : State) : Tag := span (Block.presence10Ms s.block * 10000)

/-- Every block at work as JOINING begins, the blocks being at their reset values (R18, R40, R63, R65, R161). -/
def startBlocks (s : State) : State :=
  { s with
    channels := { s.channels with units := s.channels.units.map fun _ u => startUnit s.listening s.now u }
    link := { s.link with lanes :=
      ⟨{ s.link.lanes.x with idleFrom := s.clock }, { s.link.lanes.y with idleFrom := s.clock }⟩ }
    member := { s.member with
      station := .joining
      peers := match s.member.number with
        | some n => s.member.peers.set n (ownRecord s)
        | none => s.member.peers
      joinTimer := some (s.now + span (Block.joinWindow100Ms s.block * 100000))
      presenceTimer := some (s.now + presencePeriod s) }
    fault := { s.fault with scrub := .config 0 } }

/-- A word of the configuration store among these whose read finds a parity fault: the first one. -/
def badConfig (offsets : List Nat) (s : State) : Option Nat := offsets.find? fun i => badParity s (.config i)

/-- Entry to JOINING: the first PRESENCE is asked for (R65), and a parity fault in a word this has used freezes the station. -/
def enterJoining (s : State) : State :=
  let s1 := startBlocks s
  let s2 := requestUnchecked .presence s1.presencePayload s1
  match badConfig joinWords s2 with
  | some i => freeze .read (.config i) s2
  | none => s2

/-- A self-restart (R165): the restart count is raised, the blocks are reset, the station enters JOINING. -/
def selfRestart (why : RestartCause) (s : State) : State :=
  enterJoining (resetBlocks why
    (s.withFault { s.fault with record := { s.fault.record with restarts := raised255 s.fault.record.restarts } }))

/-- A second fault while FROZEN (R166). -/
def secondFault (s : State) : State :=
  selfRestart .double (s.withFault { s.fault with record := { s.fault.record with doubleFault := true } })

/-- Whether LOGOUT part 1 has been selected and waits for its gap. -/
def logoutWaits (l : Link) : Bool :=
  match l.current with
  | some c => c.kind == .logout && (match c.attempt with | .waiting _ => true | .transmitting _ => false)
  | none => false

/-- The end of a step that found the station at work in `s` and leaves it in `t`: where the step has frozen the station and LOGOUT
part 1 was selected at once, its access timeout has been read, and a parity fault there is a second fault (R49, R161, R166). It
is looked at here because nothing else of the step follows a freeze. -/
def lookAgain (s t : State) : State :=
  if s.atWork && badParity s (.config 0x10) && t.member.station == .frozen && badParity t (.config 0x10)
      && logoutWaits t.link then secondFault t
  else t

/-- A command takes effect at its moment, unless the RESET pin holds the part at its power-on values (R176). -/
def atMoment (m : Moment) (s : State) (f : State → State) : Host.Outcome State Fault Refusal :=
  .next (if s.resetHeld then s else lookAgain (arrive m s) (f (arrive m s)))

/-- A read has found a parity fault in a word of a freezing store: it freezes a JOINING or RUNNING station (R163), is a
second fault in a FROZEN one (R166), and is not looked for in the other states (R161). -/
def readFault (kind : FaultKind) (w : StoreWord) (s : State) : State :=
  match s.member.station with
  | .joining => freeze kind w s
  | .running => freeze kind w s
  | .frozen => secondFault s
  | _ => s

/-- A block reads these words of the configuration store, in order, and goes on with `f` if none shows a parity fault; at a fault
it does no more than `stop` (R161, R163; log entry 7). -/
def readingConfig (offsets : List Nat) (stop f : State → State) (s : State) : State :=
  match badConfig offsets s with
  | some i => if s.linkUp then readFault .read (.config i) (stop s) else f s
  | none => f s

/-- A block reads these words of the configuration store and goes on if none shows a parity fault (R161, R163). -/
def usingConfig (offsets : List Nat) (f : State → State) (s : State) : State := readingConfig offsets id f s

/-- A block reads words of the Segment Table or the snapshot, in order, and goes on if none shows a fault (R161, R163). -/
def usingWords (words : List StoreWord) (f : State → State) (s : State) : State :=
  match words.find? fun w => badParity s w with
  | some w => readFault .read w s
  | none => f s

/-- The Board Port reads words: it goes on with what it has read, and a fault it found is acted on like any other (R161); of several
faulty words in one read the first alone is acted on (log entry 48). -/
def boardReads (words : List StoreWord) (f : State → State) (s : State) : State :=
  match words.find? fun w => badParity s w with
  | some w => readFault .read w (f s)
  | none => f s

/-- Whenever there is no current frame, the next frame is selected (R48), and its first attempt reads the access timeout (R49). -/
def selectNext (s : State) : State :=
  if s.link.current.isSome || (candidates s).isEmpty then s else usingConfig [0x10] selectFrame s

/-- A request to the Link Unit (R46). Taken, the requester notes its descriptor's name and the next frame is selected if there
is none; refused, the requester does what its own rule says. -/
def request (kind : FrameKind) (payload : List Byte) (taken : Nat → State → State) (refused : State → State) (s : State) : State :=
  if canRequest kind s then selectNext (taken s.link.nextRef (enqueue kind payload s)) else refused s

/-- The requester keeps no name for its descriptor. -/
def keepNoRef (_ref : Nat) (s : State) : State := s

/-- The Fault Unit requests a LOGOUT part (R164). -/
def requestLogout (p : LogoutPart) (s : State) : State :=
  request .logout (logoutPayload p s) keepNoRef id (s.withFault { s.fault with logout := some p })

/-- The words of the Segment Table. -/
def tableWords (s : State) : List StoreWord := (List.range s.evid.table.length).map fun i => .segment (i + 1)

/-- A soft fault is counted (R162). -/
def softFault (s : State) : State := s.withFault { s.fault with softFaults := raised s.fault.softFaults }

/-- The entries of the Hit Window whose parity does not match are removed, each a soft fault (R162, R80). -/
def checkWindow (s : State) : State :=
  (s.coin.window.filter fun e => badParity s (.window e.id)).foldl (fun t e => softFault (removeHit e.id t)) s

/-- CW and GA, the words of the configuration store that the open group and its close expiry are formed from (R85, R87). -/
def expiryWords : List Nat := [0x16, 0x17, 0x18]

/-- The open group is formed afresh (R85), which reads the entries of the Hit Window through their parity (R161, R162; log entry 46) and,
while one remains, CW and GA. What the group then is follows from the window (`openGroup`). -/
def formGroup (s : State) : State :=
  let s1 := checkWindow s
  if s1.coin.window.isEmpty then s1 else usingConfig expiryWords id s1

/-- The Hit Window is read through its parity; where that takes an entry out, the group is formed afresh (R85, R162). -/
def readWindow (s : State) : State := if s.coin.window.any fun e => badParity s (.window e.id) then formGroup s else s

/-- A hit has entered the Hit Window: its entry is written with matching parity (R161), and the group is formed afresh (R85). -/
def hitEntered (id : HitId) (s : State) : State := formGroup (rewrite (fun w => w == .window id) s)

/-- A Channel Unit's removal request (R80): the hit's entry goes, and the group is formed afresh (R85); nothing changes if it is not
there. -/
def requestRemoval (id : HitId) (s : State) : State :=
  if s.coin.window.any fun e => e.id == id then formGroup (removeHit id s) else s

/-- The word of an Applied Event List entry. -/
def appliedWord (a : AppliedEvent) : StoreWord := .applied (a.event.ids.headD ⟨0, 0, 0⟩)

/-- The entries of the Applied Event List whose parity does not match are removed, each a soft fault (R162, R110). -/
def checkApplied (s : State) : State :=
  let bad := s.evid.applied.filter fun a => badParity s (appliedWord a)
  let s1 := s.withEvid { s.evid with applied := s.evid.applied.filter fun a => !badParity s (appliedWord a) }
  rewrite (fun w => match w with | .applied _ => true | _ => false)
    (s1.withFault { s1.fault with softFaults := raisedBy bad.length s1.fault.softFaults })

end Sys2Proof.Machine
end

