-- ==== Sys2Proof/Machine/EvidenceOps.lean ====
section
/-! DEFINITION. The Evidence Unit's shared operations (chapter 7): applying an EVENT, the fold, CONTROLs, WARN and STOP. -/

namespace Sys2Proof.Machine

/-- The counts of the Evidence Unit replaced. -/
def evidCounts (f : EvidenceCounts → EvidenceCounts) (s : State) : State :=
  s.withEvid { s.evid with counts := f s.evid.counts }

/-- The capacity of the Applied Event List (R110). -/
def appliedCapacity : Nat := 96

/-! ## Applying an EVENT (R109 to R112) -/

/-- The form check of R109. -/
def eventWellFormed (nSeg : Nat) (e : EventRecord) : Bool :=
  e.segment ≤ nSeg && e.ids.all (fun i => (chOf i.channel).isSome) && decide e.ids.Nodup

/-- Whether two events share a member identity (R111). -/
def overlaps (e f : EventRecord) : Bool := e.ids.any fun i => f.ids.any fun j => j == i

/-- The key of an event: its first identity (R106). -/
def eventKey (e : EventRecord) : HitId := e.ids.headD ⟨0, 0, 0⟩

/-- Whether an event beats an entry: the first comparison that differs favours it (R111). -/
def beats (a b : AppliedEvent) : Bool :=
  if a.event.hitCount ≠ b.event.hitCount then b.event.hitCount < a.event.hitCount
  else if a.publisher ≠ b.publisher then a.publisher < b.publisher
  else if (eventKey a.event).station ≠ (eventKey b.event).station then
    (eventKey a.event).station < (eventKey b.event).station
  else if (eventKey a.event).channel ≠ (eventKey b.event).channel then
    (eventKey a.event).channel < (eventKey b.event).channel
  else (eventKey a.event).tag.toNat < (eventKey b.event).tag.toNat

/-- The entry with the fewest hits, the oldest of those (R112). -/
def fewestHits : List AppliedEvent → Option AppliedEvent
  | [] => none
  | a :: as =>
    match fewestHits as with
    | none => some a
    | some b => if b.event.hitCount < a.event.hitCount then some b else some a

/-- What the overlap rule and the full-list rule make of the list (R111, R112): the new list, with whether the event was
applied, whether it was a duplicate and whether the list was full. -/
structure Judgement where
  list : List AppliedEvent
  applied : Bool
  duplicate : Bool
  full : Bool
deriving DecidableEq, Repr

/-- R111 and R112. -/
def judgeEvent (list : List AppliedEvent) (a : AppliedEvent) : Judgement :=
  let shared := list.filter fun b => overlaps a.event b.event
  if shared.isEmpty then
    if list.length < appliedCapacity then ⟨list ++ [a], true, false, false⟩
    else
      match fewestHits list with
      | some b =>
        if b.event.hitCount < a.event.hitCount then ⟨list.erase b ++ [a], true, false, true⟩ else ⟨list, false, false, true⟩
      | none => ⟨list, false, false, true⟩
  else if shared.all fun b => beats a b then ⟨list.filter (fun b => !overlaps a.event b.event) ++ [a], true, false, false⟩
  else ⟨list, false, true, false⟩

/-- An EVENT of a PRESENT sender is checked, and judged against the list (R109 to R112). -/
def judgeApplied (sender : Station) (e : EventRecord) (s : State) : State :=
  if eventWellFormed (Block.nSeg s.block) e = false then
    evidCounts (fun k => { k with malformed := raised k.malformed }) s
  else if s.tracker.isOpen = false ∨ e.cycle ≠ s.tracker.cycle then
    evidCounts (fun k => { k with stale := raised k.stale }) s
  else
    let s1 := checkApplied s
    let j := judgeEvent s1.evid.applied ⟨e, stNo sender⟩
    evidCounts (fun k => { k with
        applied := if j.applied then raised k.applied else k.applied
        duplicate := if j.duplicate then raised k.duplicate else k.duplicate
        listFull := if j.full then raised k.listFull else k.listFull })
      (s1.withEvid { s1.evid with applied := j.list })

/-- An EVENT handed to the Evidence Unit (R109): one of a sender that is not PRESENT is discarded. -/
def applyEvent (sender : Station) (e : EventRecord) (s : State) : State :=
  if (s.member.peers.get sender).state ≠ .present then s else usingConfig [0x1A] (judgeApplied sender e) s

/-! ## The fold (R117 to R120) -/

/-- Whether an event qualifies under its phase's policy (R117): evidential, and every attribute it carries is ignored there.
Its segment is not 0 and not excluded where this is asked. -/
def qualifies (b : List Byte) (e : EventRecord) : Bool :=
  Block.evidential b (phaseCode e.phase) == 1 && e.attrs &&& ~~~(byte (Block.mask b (phaseCode e.phase))) == 0

/-- The qualifying entries placed on segment n (R118). -/
def entriesOn (b : List Byte) (list : List AppliedEvent) (n : Nat) : List AppliedEvent :=
  list.filter fun a => a.event.segment == n && qualifies b a.event

/-- A phase as a phase set (12.1). -/
def phaseBit (p : Phase) : Byte := 1#8 <<< phaseCode p

/-- The cycle's history entry for a segment (R118). -/
def historyEntry (es : List AppliedEvent) : HistoryEntry :=
  { count := min es.length 255, phases := es.foldl (fun acc a => acc ||| phaseBit a.event.phase) 0 }

/-- The union of a history's phase sets (R119). -/
def unionPhases (h : List HistoryEntry) : Byte := h.foldl (fun acc e => acc ||| e.phases) 0

/-- The number of active entries of a history (R118). -/
def activeEntries (aMin : Nat) (h : List HistoryEntry) : Nat := (h.filter fun e => aMin ≤ e.count).length

/-- The phase test for CRACKED (R119). -/
def phaseTest (u : Byte) : Bool := u.getLsbD 6 && (u.getLsbD 3 || u.getLsbD 5)

/-- Whether WATCH becomes SUSPECT, and whether SUSPECT becomes CRACKED (R119). -/
def reachesSuspect (b : List Byte) (h : List HistoryEntry) : Bool := Block.kS b ≤ activeEntries (Block.aMin b) h
def reachesCracked (b : List Byte) (h : List HistoryEntry) : Bool :=
  Block.kC b ≤ activeEntries (Block.aMin b) h && phaseTest (unionPhases h)

/-- The transition of R119, on the updated history and quiet run. -/
def transition (b : List Byte) (closed : Option CycleNo) (active : Bool) (r : SegmentRecord) : SegmentRecord :=
  match r.state with
  | .clear => if active then { r with state := .watch } else r
  | .watch =>
    if reachesSuspect b r.history then { r with state := .suspect, suspectSince := some closed }
    else if Block.qW b ≤ r.quietRun then { r with state := .clear }
    else r
  | .suspect =>
    if reachesCracked b r.history then { r with state := .cracked, crackedSince := some closed }
    else if Block.qS b ≤ r.quietRun then { r with state := .watch, suspectSince := none }
    else r
  | .cracked => r

/-- A history with the cycle's entry at its head, at most H long (R118). -/
def foldHistory (b : List Byte) (es : List AppliedEvent) (h : List HistoryEntry) : List HistoryEntry :=
  (historyEntry es :: h).take (Block.histLen b)

/-- Whether the cycle's entry is active (R118). -/
def activeNow (b : List Byte) (es : List AppliedEvent) : Bool := Block.aMin b ≤ (historyEntry es).count

/-- The fold of one segment (R118, R119); an excluded one is skipped. -/
def foldRecord (b : List Byte) (closed : Option CycleNo) (es : List AppliedEvent) (r : SegmentRecord) : SegmentRecord :=
  if r.excluded then r
  else
    transition b closed (activeNow b es)
      { r with
        history := foldHistory b es r.history
        quietRun := if activeNow b es then 0 else raised r.quietRun }

/-- The words a qualification reads (R117): the phase's evidential setting and, where it is evidential, its mask. -/
def policyReads (b : List Byte) (p : Phase) : List Nat :=
  (Block.policyAt (phaseCode p) + 3) ::
    (if Block.evidential b (phaseCode p) = 1 then [Block.policyAt (phaseCode p) + 4] else [])

/-- The words a transition reads (R119): the count that raises the state and, where it is not reached, the quiet run that lowers it. -/
def transitionReads (b : List Byte) (st : SegState) (h : List HistoryEntry) : List Nat :=
  match st with
  | .watch => 0x1D :: (if reachesSuspect b h then [] else [0x1F])
  | .suspect => 0x1E :: (if reachesCracked b h then [] else [0x20])
  | _ => []

/-- The words of the configuration store that the fold of one segment reads: the policies of the entries placed on it, H, A_MIN, and
those of its transition (R117 to R119; log entry 7). -/
def foldReads (b : List Byte) (list : List AppliedEvent) (n : Nat) (r : SegmentRecord) : List Nat :=
  if r.excluded then []
  else
    ((list.filter fun a => a.event.segment == n).flatMap fun a => policyReads b a.event.phase) ++ [0x1B, 0x1C]
      ++ transitionReads b r.state (foldHistory b (entriesOn b list n) r.history)

/-- The record of segment n. -/
def State.segmentRecord (s : State) (n : Nat) : SegmentRecord := s.evid.table.getD (n - 1) (.clean false)

/-- The fold of segment n is stored. -/
def foldOne (closed : Option CycleNo) (n : Nat) (s : State) : State :=
  s.withEvid { s.evid with
    table := s.evid.table.modify (n - 1) (foldRecord s.block closed (entriesOn s.block s.evid.applied n)) }

/-- The fold of segment n, whose record is read first and then the configuration words it uses (R161). -/
def foldSegment (closed : Option CycleNo) (n : Nat) (s : State) : State :=
  usingWords [.segment n] (usingConfig (foldReads s.block s.evid.applied n (s.segmentRecord n)) (foldOne closed n)) s

/-- The fold, segment by segment; a parity fault stops it where it stands (R116, R163). -/
def foldSegments (closed : Option CycleNo) : List Nat → State → State
  | [], s => s
  | n :: ns, s => (foldSegment closed n s).unlessFrozen (foldSegments closed ns)

/-- The segment numbers of the table, 1 to N_SEG. -/
def segmentNumbers (s : State) : List Nat := (List.range s.evid.table.length).map (· + 1)

/-- The fold of the segments 1 to N_SEG (R116, R118). -/
def foldTable (closed : Option CycleNo) (s : State) : State := foldSegments closed (segmentNumbers s) s

/-! ## Notices and outputs (R127 to R129) -/

/-- A SEGMENT STATE notice for segment n, if its state or excluded flag changed (R129). -/
def noticeChange (cycle : Option CycleNo) (cause : SegCause) (n : Nat) (old new : SegmentRecord) (s : State) : State :=
  if old.state = new.state ∧ old.excluded = new.excluded then s
  else raise ⟨cycle, n, .segmentState new.state new.excluded cause⟩ s

/-- The notices of every changed segment, in segment order (R129; for a CONTROL or a transfer log entry 11). -/
def raiseChanges (cycle : Option CycleNo) (cause : SegCause) (old new : List SegmentRecord) (s : State) : State :=
  ((old.zip new).zipIdx).foldl (fun t c => noticeChange cycle cause (c.2 + 1) c.1.1 c.1.2 t) s

/-- The level of WARN (R127). -/
def warnLevel (table : List SegmentRecord) : Bool :=
  table.any fun r => !r.excluded && (r.state == .suspect || r.state == .cracked)

/-- The level of STOP (R127). -/
def stopLevel (stopCount : Nat) (table : List SegmentRecord) : Bool :=
  1 ≤ stopCount && stopCount ≤ (table.filter fun r => !r.excluded && r.state == .cracked).length

/-- WARN and STOP at the levels the Segment Table gives (R127). -/
def setOutputs (s : State) : State :=
  s.withEvid { s.evid with warn := warnLevel s.evid.table, stop := stopLevel (Block.stopCount s.block) s.evid.table }

/-- WARN and STOP are re-derived from the Segment Table (R127), which is read through its parity, and the STOP count (R161). -/
def deriveOutputs (s : State) : State := usingWords (tableWords s) (usingConfig [0x21] setOutputs) s

/-- The re-derivation that the output hold suppresses while the standing is OUT-OF-STEP (R116, R122, R128). -/
def deriveUnlessHeld (s : State) : State := if s.agree.standing = .outOfStep then s else deriveOutputs s

/-- The Agreement Unit has told the Evidence Unit of a change of standing (R128). -/
def standingChanged (s : State) : State :=
  if s.agree.standing = .outOfStep then s.withEvid { s.evid with hold := some (s.evid.warn, s.evid.stop) }
  else deriveOutputs (s.withEvid { s.evid with hold := none })

/-- The Applied Event List is emptied (R116, step 5). -/
def emptyApplied (s : State) : State :=
  rewrite (fun w => match w with | .applied _ => true | _ => false) (s.withEvid { s.evid with applied := [] })

/-- The table age is raised by a NORMAL close (R120). -/
def raiseAge (s : State) : State := s.withEvid { s.evid with age := raised s.evid.age }

/-- The close work after the fold, steps 2 to 5 (R116), with the records as they were before it. -/
def afterFold (closed : Option CycleNo) (old : List SegmentRecord) (s : State) : State :=
  (deriveUnlessHeld (raiseAge (raiseChanges closed .fold old s.evid.table s))).unlessFrozen emptyApplied

/-- The Evidence Unit's close work, steps 1 to 5 (R116, R121); the fold reads N_SEG first (R118, R161). -/
def evidenceClose (closed : Option CycleNo) (kind : CloseKind) (s : State) : State :=
  match kind with
  | .normal =>
    let s1 := checkApplied s
    (usingConfig [0x1A] (foldTable closed) s1).unlessFrozen (afterFold closed s1.evid.table)
  | _ =>
    emptyApplied (evidCounts (fun k => { k with unfolded := raisedBy s.evid.applied.length k.unfolded }) s)

/-! ## CONTROLs (R122 to R124) -/

/-- The last valid group (R122). -/
def lastGroup (nSeg : Nat) : Nat := (nSeg - 1) / 8

/-- The segments in use that a mask selects in a group, in order (chapter 7, section 4). -/
def selectedSegments (nSeg : Nat) (group mask : Byte) : List Nat :=
  ((List.range 8).filter fun i => mask.getLsbD i && 8 * group.toNat + 1 + i ≤ nSeg).map fun i => 8 * group.toNat + 1 + i

/-- The bit of the value byte for segment n. -/
def valueBit (c : Control) (n : Nat) : Bool := c.value.getLsbD (n - 1 - 8 * c.group.toNat)

/-- What a CONTROL makes of a selected segment's record (R123, R124). -/
def controlRecord (c : Control) (n : Nat) (r : SegmentRecord) : SegmentRecord :=
  match c.kind with
  | .excludeSet =>
    if valueBit c n then (if r.excluded then r else .clean true) else { r with excluded := false }
  | .release => .clean r.excluded

/-- What a CONTROL makes of segment n is stored. -/
def controlOne (c : Control) (n : Nat) (s : State) : State :=
  s.withEvid { s.evid with table := s.evid.table.modify (n - 1) (controlRecord c n) }

/-- A CONTROL on the selected segments, one after the other; a parity fault stops it (R161, R163). -/
def controlSegments (c : Control) : List Nat → State → State
  | [], s => s
  | n :: ns, s => (usingWords [.segment n] (controlOne c n) s).unlessFrozen (controlSegments c ns)

/-- The checks of R122 that a CONTROL's content must pass: the group is valid, and a RELEASE has value 0. -/
def controlValid (nSeg : Nat) (c : Control) : Bool :=
  c.group.toNat ≤ lastGroup nSeg && (c.kind == .excludeSet || c.value == 0)

/-- The cause a CONTROL's notices carry (R129). -/
def controlCause (c : Control) : SegCause :=
  match c.kind with
  | .excludeSet => .exclude
  | .release => .release

/-- What follows the change of the segments: the notices, and the outputs unless they are held (R122). -/
def afterControl (cause : SegCause) (old : List SegmentRecord) (s : State) : State :=
  deriveUnlessHeld (raiseChanges s.tracker.cycle cause old s.evid.table s)

/-- A CONTROL that has passed the checks is applied (R122 to R124, R129). -/
def applyControl (c : Control) (s : State) : State :=
  let s1 := evidCounts (fun k => { k with controls := raised k.controls }) s
  (controlSegments c (selectedSegments (Block.nSeg s.block) c.group c.mask) s1).unlessFrozen
    (afterControl (controlCause c) s.evid.table)

/-- The CONTROL of a payload; none if its kind byte names no kind (R122). -/
def controlOf (p : List Byte) : Option Control :=
  (controlKindOf (u8 p 0)).map fun k => ⟨k, p.getD 1 0, p.getD 2 0, p.getD 3 0⟩

end Sys2Proof.Machine
end

