-- ==== Sys2Proof/Machine/AgreementOps.lean ====
section
/-! DEFINITION. The Agreement Unit's shared operations (chapter 8): the snapshot and the digest, the decision, giving and
taking a table. -/

namespace Sys2Proof.Machine

/-- The counts of the Agreement Unit replaced. -/
def agreeCounts (f : AgreementCounts → AgreementCounts) (s : State) : State :=
  s.withAgree { s.agree with counts := f s.agree.counts }

/-- The capacity of the carry list (R145). -/
def carryCapacity : Nat := 8

/-- The transfer state becomes `t`. -/
def setTransfer (t : Transfer) (s : State) : State := s.withAgree { s.agree with transfer := t }

/-! ## Ending a transfer (R142, R147) -/

/-- A transfer in AWAITING is abandoned (R147); in any other transfer state nothing changes. -/
def abandonTransfer (cause : AbandonCause) (s : State) : State :=
  match s.agree.transfer with
  | .awaiting donor _ _ _ _ _ =>
    raiseNow (stNo donor) (.transfer (.abandoned cause))
      (s.withAgree { s.agree with
        transfer := .idle, carry := [], carryOverflow := false
        counts := { s.agree.counts with abandoned := raised s.agree.counts.abandoned } })
  | _ => s

/-- A transfer whose donor is this station is abandoned with cause DONOR (R74, R147). -/
def donorGone (st : Station) (s : State) : State :=
  match s.agree.transfer with
  | .awaiting donor _ _ _ _ _ => if donor = st then abandonTransfer .donor s else s
  | _ => s

/-- SENDING is aborted (R142). -/
def abortTransfer (s : State) : State :=
  raiseNow s.ownNo (.transfer .aborted)
    (s.withAgree { s.agree with
      transfer := .idle, counts := { s.agree.counts with aborted := raised s.agree.counts.aborted } })

/-! ## Giving a table (R141, R142) -/

/-- The most records a ROW carries (R141). -/
def rowCapacity : Nat := 4

/-- The ROW of a snapshot that begins at segment `first` (R141). -/
def rowOfSnapshot (digest : BitVec 32) (snap : Snapshot) (first : Nat) : RowFrame :=
  let records := (snap.records.drop (first - 1)).take rowCapacity
  { cycle := snap.cycle, digest := digest, age := snap.age, first := first, count := records.length
    last := first - 1 + records.length == snap.records.length, records := records }

/-- The words of the snapshot a ROW is made from. -/
def rowSourceWords (r : RowFrame) : List StoreWord :=
  .snapshot 0 :: (List.range r.count).map fun i => .snapshot (r.first + i)

/-- The ROW is requested and the transfer waits for its outcome (R141). -/
def rowTaken (row : RowFrame) (ref : Nat) (s : State) : State := setTransfer (.sending (row.first + row.count) (.row ref row.last)) s

/-- A ROW descriptor is asked for (R141); refused, the transfer is aborted (R142). -/
def requestRow (row : RowFrame) (s : State) : State :=
  request .row (rowBytes (Block.histLen s.block) row) (rowTaken row) abortTransfer s

/-- A ROW's words of the snapshot and the history length are read through their parity, and the ROW is requested (R141, R161). -/
def makeRow (row : RowFrame) (s : State) : State := usingWords (rowSourceWords row) (usingConfig [0x1B] (requestRow row)) s

/-- A ROW is made from the snapshot, through the parity of N_SEG, of the words it takes and of H, and requested (R141, R161). -/
def sendRow (first : Nat) (s : State) : State :=
  match s.agree.snapshot with
  | none => s
  | some snap =>
    usingConfig [0x1A] (makeRow (rowOfSnapshot (s.agree.ownDigest.getD 0) snap first)) s

/-- The outcome of a ROW (R141, R142): it counts only for the transfer that asked for it. -/
def rowOutcome (ref : Nat) (wasSent : Bool) (s : State) : State :=
  match s.agree.transfer with
  | .sending nextFirst (.row r last) =>
    if r = ref then
      if wasSent then
        let s1 := agreeCounts (fun k => { k with rowsSent := raised k.rowsSent }) s
        if last then raiseNow s1.ownNo (.transfer .sent) (setTransfer .idle s1) else sendRow nextFirst s1
      else abortTransfer s
    else s
  | _ => s

/-! ## The close (R132 to R135) -/

/-- The DIGEST payload made at a close (R134, 12.2). The standing it carries is that of the previous decision, OUT-OF-STEP also where a
transfer completed since then has made the station IN-STEP (R146). -/
def digestPayload (snap : Snapshot) (digest : BitVec 32) (s : State) : List Byte :=
  be16 (cycleValue snap.cycle) ++ be32 digest ++ be16 snap.age ++ [byte (standingCode s.agree.decided)]
    ++ be16 s.evid.counts.applied ++ be16 s.evid.counts.stale ++ be16 s.evid.counts.duplicate
    ++ be16 s.coin.counts.late ++ be16 s.channels.lost ++ be16 s.link.dropped ++ be16 s.overrunSum

/-- A DIGEST not sent is counted (R134). -/
def digestNotSent (s : State) : State :=
  agreeCounts (fun k => { k with digestsNotSent := raised k.digestsNotSent }) s

/-- A SENDING transfer stops at the close: its ROW is withdrawn if it has not been selected (R132). -/
def stopSending (s : State) : State :=
  match s.agree.transfer with
  | .sending _ (.row ref _) => setTransfer .idle (withdraw ref s)
  | .sending _ (.lead _) => setTransfer .idle s
  | _ => s

/-- The length of the digest window (R135). -/
def digestWindowLength (s : State) : Tag := span (Block.digestWindow10Ms s.block * 10000)

/-- The snapshot, whose words are written anew (R132). -/
def storeSnapshot (closed : Option CycleNo) (s : State) : State :=
  rewrite (fun w => match w with | .snapshot _ => true | _ => false)
    (s.withAgree { s.agree with snapshot := some ⟨closed, s.evid.age, s.evid.table⟩ })

/-- A DIGEST frame of the snapshot is asked for; refused, it is counted (R134). -/
def requestDigest (snap : Snapshot) (digest : BitVec 32) (s : State) : State :=
  request .digest (digestPayload snap digest s) keepNoRef digestNotSent s

/-- The digest over the snapshot, and its DIGEST frame (R133, R134). -/
def digestSnapshot (snap : Snapshot) (s : State) : State :=
  let digest := digestOf (Block.histLen s.block) snap.cycle snap.age snap.records
  requestDigest snap digest (s.withAgree { s.agree with ownDigest := some digest })

/-- The digest window starts (R135). -/
def startDigestWindow (s : State) : State :=
  s.withAgree { s.agree with window := some ⟨s.now + digestWindowLength s, s.now⟩ }

/-- The last steps of the Agreement Unit's close work: snapshot, digest, DIGEST frame, digest window (R132). -/
def takeSnapshot (closed : Option CycleNo) (s : State) : State :=
  (usingConfig [0x1B] (digestSnapshot ⟨closed, s.evid.age, s.evid.table⟩) (storeSnapshot closed s)).unlessFrozen
    (usingConfig [0x22] startDigestWindow)

/-- The Segment Table is read through its parity and the snapshot taken (R132, R161). -/
def copyTable (closed : Option CycleNo) (s : State) : State := usingWords (tableWords s) (takeSnapshot closed) s

/-- The Agreement Unit's close work (R132): the previous window is cut, a transfer ends, the carry list empties, the snapshot
is taken of the segments 1 to N_SEG (read through its parity) and digested, a DIGEST requested and the digest window started. -/
def agreementClose (closed : Option CycleNo) (s : State) : State :=
  let s1 := if s.agree.window.isSome then
      agreeCounts (fun k => { k with cut := raised k.cut }) (s.withAgree { s.agree with window := none })
    else s
  let s2 := abandonTransfer .close (stopSending s1)
  let s3 := s2.withAgree { s2.agree with carry := [], carryOverflow := false }
  usingConfig [0x1A] (copyTable closed) s3

/-! ## The decision (R135 to R140, R143) -/

/-- A DIGEST sender of a decision (R136). -/
structure DigestSender where
  station : Station
  cycle : Option CycleNo
  digest : BitVec 32
  age : Nat
deriving DecidableEq, Repr

/-- Whether a record's last DIGEST counts in the decision of this window, taken now (R135). -/
def digestCounts (s : State) (w : DigestWindow) (r : PeerRecord) : Option DigestContent :=
  match r.digest with
  | some d =>
    if r.state = .present ∧ reached d.arrival (w.closeMoment - digestWindowLength s) ∧ reached s.now d.arrival then some d
    else none
  | none => none

/-- The DIGEST senders of a decision, in station order (R136). -/
def digestSenders (s : State) (w : DigestWindow) (own : Station) (snap : Snapshot) (digest : BitVec 32) : List DigestSender :=
  stationList.filterMap fun st =>
    if st = own then some ⟨st, snap.cycle, digest, snap.age⟩
    else (digestCounts s w (s.member.peers.get st)).map fun d => ⟨st, d.cycle, d.digest, d.age⟩

/-- The value that more than half of a list carries (R136, R137). -/
def majority {α : Type} [DecidableEq α] (vs : List α) : Option α := vs.find? fun v => vs.length < 2 * vs.count v

/-- The seasoned among some senders; if none is, all count as seasoned (R137). -/
def seasonedOf (minAge : Nat) (cs : List DigestSender) : List DigestSender :=
  if cs.any (fun c => minAge ≤ c.age) then cs.filter (fun c => minAge ≤ c.age) else cs

/-- V: the digest that more than half of the seasoned carry (R137). -/
def majorityDigest (minAge : Nat) (cs : List DigestSender) : Option (BitVec 32) :=
  majority ((seasonedOf minAge cs).map (·.digest))

/-- The lowest-numbered seasoned sender that holds V (R136, R138). -/
def donorOf (minAge : Nat) (cs : List DigestSender) (v : BitVec 32) : Option Station :=
  ((seasonedOf minAge cs).find? fun c => c.digest == v).map (·.station)

/-- The closed cycle a station adopts: a set number that more than half of the senders carry and that is not its own (R136;
a DIGEST whose closed cycle is not a cycle number names none: log entry 16). -/
def adoptedCycle (own : Option CycleNo) (senders : List DigestSender) : Option CycleNo :=
  match majority (senders.map (·.cycle)) with
  | some (some m) => if some m = own then none else some m
  | _ => none

/-- The standing of a decision without adoption (R138). -/
def standingOf (minAge ownAge : Nat) (ownDigest : BitVec 32) (contributors : List DigestSender) : Standing :=
  if contributors.length ≤ 1 then (if minAge ≤ ownAge then .alone else .novice)
  else
    match majorityDigest minAge contributors with
    | some v => if ownDigest = v then .inStep else .outOfStep
    | none => .split

/-- The tracker adopts m as the number its last closed cycle should have carried (R15). -/
def adoptCycle (m : CycleNo) (t : Tracker) : Tracker :=
  match t.cycle, t.lastClosed with
  | some c, some l => { t with cycle := some (c + (m - l)), lastClosed := some m }
  | _, _ => t

/-- The standing is recorded; a change raises a notice and is told to the Evidence Unit (R139, R128). -/
def setStanding (v : Standing) (s : State) : State :=
  if v = s.agree.standing then s
  else standingChanged (raiseNow s.ownNo (.standing v) (s.withAgree { s.agree with standing := v }))

/-- The standing of a decision: the DIGEST of the next close will carry it (R134, R139), and it is recorded. -/
def decideAs (v : Standing) (s : State) : State := setStanding v (s.withAgree { s.agree with decided := v })

/-- AWAITING is entered (R143). -/
def enterAwaiting (donor : Station) (cycle : Option CycleNo) (v : BitVec 32) (s : State) : State :=
  let s1 := setTransfer (.awaiting donor cycle v 1 none []) s
  if s1.agree.carryOverflow then abandonTransfer .carry s1
  else if (s1.member.peers.get donor).state ≠ .present then abandonTransfer .donor s1
  else s1

/-- The transfer lead (R140): 5 ms. -/
def transferLead : Tag := 5000#32

/-- Whether the donor has anyone to send to (R140). -/
def someoneDiffers (own : Option CycleNo) (v : BitVec 32) (senders : List DigestSender) : Bool :=
  senders.any fun d => d.cycle != own || d.digest != v

/-- V with its donor, if there is one (R137, R138). -/
def verdictOf (minAge : Nat) (cs : List DigestSender) : Option (BitVec 32 × Station) :=
  match majorityDigest minAge cs with
  | some v => (donorOf minAge cs v).map fun d => (v, d)
  | none => none

/-- What a standing makes of the transfer state (R139, R140). -/
def actOnStanding (own : Station) (standing : Standing) (cycle : Option CycleNo) (verdict : Option (BitVec 32 × Station))
    (senders : List DigestSender) (s : State) : State :=
  match verdict with
  | some (v, donor) =>
    if standing = .outOfStep then enterAwaiting donor cycle v s
    else if standing = .inStep ∧ donor = own ∧ someoneDiffers cycle v senders then
      setTransfer (.sending 1 (.lead (s.now + transferLead))) s
    else s
  | none => s

/-- The decision's verdict acted on without adoption (R137 to R140). -/
def decideStanding (own : Station) (snap : Snapshot) (digest : BitVec 32) (senders : List DigestSender) (s : State) : State :=
  let contributors := senders.filter fun d => d.cycle == snap.cycle
  let minAge := Block.minAge s.block
  let standing := standingOf minAge snap.age digest contributors
  (decideAs standing s).unlessFrozen
    (actOnStanding own standing snap.cycle (verdictOf minAge contributors) senders)

/-- The decision's verdict acted on with adoption of m (R136, R139). -/
def decideAdoption (m : CycleNo) (senders : List DigestSender) (s : State) : State :=
  let group := senders.filter fun d => d.cycle == some m
  let minAge := Block.minAge s.block
  let s1 := agreeCounts (fun k => { k with adoptions := raised k.adoptions }) (s.withTracker (adoptCycle m s.tracker))
  let s2 := decideAs .outOfStep s1
  match verdictOf minAge group with
  | some (v, donor) => enterAwaiting donor (some m) v s2
  | none => s2

/-- The decision at the expiry of the digest window (R135 to R139). -/
def decide_ (s : State) : State :=
  match s.agree.window, s.agree.snapshot, s.agree.ownDigest, s.member.number with
  | some w, some snap, some digest, some own =>
    let senders := digestSenders s w own snap digest
    let s1 := agreeCounts (fun k => { k with decisions := raised k.decisions })
      (s.withAgree { s.agree with window := none })
    match adoptedCycle snap.cycle senders with
    | some m => decideAdoption m senders s1
    | none => decideStanding own snap digest senders s1
  | _, _, _, _ => s

/-! ## Carrying CONTROLs (R145) -/

/-- An applied CONTROL is recorded; the ninth sets the overflow mark, which abandons a transfer in AWAITING (R145). Nothing
is recorded before the first close (R145, R149). -/
def carryControl (c : Control) (s : State) : State :=
  if s.agree.snapshot.isNone then s
  else if s.agree.carry.length < carryCapacity then s.withAgree { s.agree with carry := s.agree.carry ++ [c] }
  else abandonTransfer .carry (s.withAgree { s.agree with carryOverflow := true })

/-- A CONTROL frame that fails a check of R122 is counted. -/
def malformedControl (s : State) : State := evidCounts (fun k => { k with malformedControls := raised k.malformedControls }) s

/-- A CONTROL frame's content is checked against N_SEG, applied and carried (R122, R145). -/
def takeControl (c : Control) (s : State) : State :=
  if controlValid (Block.nSeg s.block) c then (applyControl c s).unlessFrozen (carryControl c) else malformedControl s

/-- A CONTROL frame handed on (R122): one of a sender that is not PRESENT is discarded. -/
def controlFrame (sender : Station) (p : List Byte) (s : State) : State :=
  if (s.member.peers.get sender).state ≠ .present then s
  else
    match controlOf p with
    | some c => usingConfig [0x1A] (takeControl c) s
    | none => malformedControl s

/-! ## Taking a table (R144, R146) -/

/-- The carried CONTROLs are applied again, in order, and not recorded again (R145, R146). -/
def reapplyControls : List Control → State → State
  | [], s => s
  | c :: cs, s => (applyControl c s).unlessFrozen (reapplyControls cs)

/-- The table is replaced by the donor's (R126), its words written anew. -/
def replaceTable (records : List SegmentRecord) (age : Nat) (s : State) : State :=
  rewrite (fun w => match w with | .segment _ => true | _ => false)
    (raiseChanges s.tracker.cycle .transfer s.evid.table records
      (s.withEvid { s.evid with table := records, age := age }))

/-- The last step of a completed transfer (R146): the notice, the emptied buffer and carry list, the count. -/
def endTransfer (donor : Station) (s : State) : State :=
  (raiseNow (stNo donor) (.transfer .completed) s).withAgree { s.agree with
    transfer := .idle, carry := [], carryOverflow := false
    counts := { s.agree.counts with completed := raised s.agree.counts.completed } }

/-- A transfer completes or is abandoned with cause MISMATCH (R146). -/
def completeTransfer (donor : Station) (row : RowFrame) (buffer : List SegmentRecord) (s : State) : State :=
  if digestOf (Block.histLen s.block) row.cycle row.age buffer ≠ row.digest then abandonTransfer .mismatch s
  else
    (reapplyControls s.agree.carry (replaceTable buffer row.age s)).unlessFrozen fun s1 =>
      (setStanding .inStep s1).unlessFrozen (endTransfer donor)

/-- Whether a ROW repeats the last one taken (R144). -/
def repeatsRow (row : RowFrame) : Option RowFrame → Bool
  | some l => row.first == l.first && row.count == l.count && row.records == l.records && row.last == l.last
  | none => false

/-- Whether a ROW is the next in segment order (R144). -/
def nextInOrder (nSeg nextFirst : Nat) (row : RowFrame) : Bool :=
  row.first == nextFirst && 1 ≤ row.count && row.count ≤ rowCapacity && row.first + row.count ≤ nSeg + 1
    && row.last == (row.first + row.count == nSeg + 1)

/-- The rows-ignored count is raised (R144). -/
def ignoreRow (s : State) : State := agreeCounts (fun k => { k with rowsIgnored := raised k.rowsIgnored }) s

/-- The next ROW in segment order is taken; the last one completes the transfer (R144, R146). -/
def takeRow (donor : Station) (cycle : Option CycleNo) (digest : BitVec 32) (nextFirst : Nat) (buffer : List SegmentRecord)
    (row : RowFrame) (s : State) : State :=
  if nextInOrder (Block.nSeg s.block) nextFirst row then
    let buffer1 := buffer ++ row.records
    let s1 := setTransfer (.awaiting donor cycle digest (nextFirst + row.count) (some row) buffer1) s
    if row.last then completeTransfer donor row buffer1 s1 else s1
  else abandonTransfer .order s

/-- A ROW frame handed on (R144, R146). -/
def rowFrame (sender : Station) (own : Bool) (p : List Byte) (s : State) : State :=
  if own then s
  else
    match s.agree.transfer with
    | .awaiting donor cycle digest nextFirst lastRow buffer =>
      let row := rowOf (Block.histLen s.block) p
      if sender ≠ donor then ignoreRow s
      else if row.cycle ≠ cycle ∨ row.digest ≠ digest then ignoreRow s
      else if repeatsRow row lastRow then ignoreRow s
      else usingConfig [0x1A] (takeRow donor cycle digest nextFirst buffer row) s
    | _ => ignoreRow s

end Sys2Proof.Machine
end

