-- ==== Sys2Proof/Machine/CouplingOps.lean ====
section
/-! DEFINITION. The Coupling Unit's shared operations (chapter 9) and the channel's side of them (2.8, 2.9): muting, arming,
releasing, the station's slot, the pulse window and its judgment. -/

namespace Sys2Proof.Machine

/-! ## Disabling (R35) -/

/-- An open hit that its channel gives up does not complete: an own hit's entry is removed from the Hit Window, a capture is withdrawn
(R33, R35). -/
def discardHit (c : Channel) (hit : Option OpenHit) (s : State) : State :=
  match hit with
  | none => s
  | some h =>
    match h.kind with
    | .own => requestRemoval (ownHitId s c h.arrival) s
    | .capture => settleCapture c h.arrival .withdrawn s
    | .localHit => s

/-- What entering OFF or MUTED, or coming back from OFF, makes of a channel (R34, R35): no open hit, the floor window empty, the lockout
timer stopped. -/
def disabledUnit (state : ChannelState) (role : Role) (u : ChannelUnit) : ChannelUnit :=
  { u with state := state, role := role, floorWindow := [], openHit := none, lockout := none, pulseTimer := none }

/-- A channel becomes `u`, and the hit it had open is discarded (R35). -/
def disableInto (c : Channel) (u : ChannelUnit) (s : State) : State :=
  discardHit c (s.channels.units.get c).openHit (s.setUnit c u)

/-- A channel enters OFF or MUTED (R35). -/
def disableChannel (c : Channel) (state : ChannelState) (role : Role) (s : State) : State :=
  disableInto c (disabledUnit state role (s.channels.units.get c)) s

/-! ## Muting and releasing (R36, R38) -/

/-- A mute request (R38): role and state MUTED; a channel that is OFF or of role PULSE does not take it. -/
def muteChannel (c : Channel) (s : State) : State :=
  let u := s.channels.units.get c
  if u.state = .off ∨ u.role = .pulse then s else disableChannel c .muted .muted s

/-- The words a LISTEN channel reads to take its state: the phase's listen setting, unless an open pulse window has it listen (R24, R39). -/
def listenWords (s : State) : List Nat := if s.windowOpen then [] else [Block.policyAt (phaseCode s.tracker.phase)]

/-- A MUTED-role channel in MUTED or QUIET becomes LISTEN, its state by the listen setting and its floor unset (R38). -/
def listenAgain (c : Channel) (s : State) : State :=
  s.setUnit c { s.channels.units.get c with role := .listen, state := listenState s, floorWindow := [] }

/-- An unmute request (R38): a MUTED-role channel becomes LISTEN; in IN-HIT or LOCKOUT it keeps its state. A channel that is OFF or
of another role is unchanged. -/
def unmuteChannel (c : Channel) (s : State) : State :=
  let u := s.channels.units.get c
  if u.role = .muted ∧ u.state ≠ .off then
    if u.state = .muted ∨ u.state = .quiet then usingConfig (listenWords s) (listenAgain c) s
    else s.setUnit c { u with role := .listen }
  else s

/-- A channel has left role PULSE: a mute request that found it there is made again if its record is still DEAD (R158). -/
def remute (c : Channel) (s : State) : State :=
  if (s.coup.records.get c).state = .dead then muteChannel c s else s

/-- A channel is of role LISTEN after its pulse (R36, R37): QUIET or HUSH by the listen setting, QUIET in an open window. -/
def listenAfterPulse (c : Channel) (s : State) : State :=
  remute c (s.setUnit c { s.channels.units.get c with role := .listen, state := listenState s, pulseTimer := none })

/-- A channel returns from its pulse to LISTEN (R36, R37), reading the listen setting. -/
def returnToListen (c : Channel) (s : State) : State := usingConfig (listenWords s) (listenAfterPulse c) s

/-- A release (R36): only an armed channel takes it. -/
def releaseChannel (c : Channel) (s : State) : State :=
  if (s.channels.units.get c).role = .pulse ∧ (s.channels.units.get c).state = .hush then returnToListen c s else s

/-! ## The station's slot (R150 to R153) -/

/-- The channel the station pulses from, by the pulse channel table. -/
def pulseChannel (s : State) : Option Channel := chOf (Block.pulseChannel s.block s.ownNo)

/-- The slot becomes `v`. -/
def setSlot (v : Slot) (s : State) : State := s.withCoup { s.coup with slot := v }

/-- A slot is skipped: it becomes NONE and the slots-skipped count is raised (R151 to R153). -/
def skipSlot (s : State) : State :=
  s.withCoup { s.coup with slot := .none, counts := { s.coup.counts with skipped := raised s.coup.counts.skipped } }

/-- Whether a channel takes a pulse request: role LISTEN in QUIET or HUSH (R36). -/
def armable (u : ChannelUnit) : Bool := u.role == .listen && (u.state == .quiet || u.state == .hush)

/-- The slot waits for the outcome of its PULSE frame (R151). -/
def slotQueued (ref : Nat) (s : State) : State := setSlot (.queued ref) s

/-- The PULSE request is refused (R151): the slot is skipped, and then the channel released (log entry 50). -/
def pulseRefused (c : Channel) (s : State) : State := releaseChannel c (skipSlot s)

/-- A pulse request is taken (R36, R151): the channel is armed, and a PULSE descriptor is asked for. -/
def armChannel (c : Channel) (s : State) : State :=
  request .pulse (pulseBytes (chNo c)) slotQueued (pulseRefused c)
    (s.setUnit c { s.channels.units.get c with role := .pulse, state := .hush })

/-- Half the pulse spacing (R151). -/
def halfSpacing (s : State) : Tag := span (Block.pulseSpacingMs s.block * 500)

/-- The words the slot's own channel is named by: the station's entry of the pulse channel table. -/
def pulseWords (s : State) : List Nat := [0x68 + (s.ownNo - 1)]

/-- The pulse request is offered to the channel, which takes it if it can (R36, R151). -/
def offerPulse (s : State) : State :=
  match pulseChannel s with
  | some c => if armable (s.channels.units.get c) then armChannel c s else s
  | none => s

/-- In WAITING the pulse request is offered again at every change of the channel's state, up to the end of the wait (R151). -/
def offerInTime (tag : Tag) (s : State) : State :=
  if later s.now (tag + halfSpacing s) then s else usingConfig (pulseWords s) offerPulse s

/-- A change of the channel's state offers a waiting pulse request again (R151). -/
def reofferPulse (s : State) : State :=
  match s.coup.slot with
  | .waiting tag => usingConfig [0x25] (offerInTime tag) s
  | _ => s

/-- The pulse channel is released, if there is one. -/
def releaseNamed (s : State) : State :=
  match pulseChannel s with
  | some c => releaseChannel c s
  | none => s

/-- The pulse channel is released, as the pulse channel table names it. -/
def releasePulse (s : State) : State := usingConfig (pulseWords s) releaseNamed s

/-! ## The pulse window (R154 to R159) -/

/-- The pass level of a sensor (R157): the subtraction stops at 0. -/
def passLevel (s : State) (place : Nat) : Nat := Block.expected s.block place - Block.couplingMargin s.block place

/-- What a judgment asks of the channel (R157). -/
inductive MuteRequest where
  | none | mute | unmute
deriving DecidableEq, Repr

/-- The judgment of one record (R157). -/
def judgeRecord (pass : Nat) (cap : Capture) (r : CouplingRecord) : CouplingRecord × MuteRequest :=
  match cap with
  | .peaked p =>
    ({ state := if pass ≤ p then .good else .weak, lastPeak := some p, misses := 0 },
      if r.state = .dead then .unmute else .none)
  | _ =>
    if r.state = .dead then (r, .none)
    else if 2 ≤ r.misses + 1 then ({ r with state := .dead, misses := 2 }, .mute)
    else ({ r with misses := r.misses + 1 }, .none)

/-- What a judgment asks of the channel is done (R38, R157). -/
def askChannel (c : Channel) (ask : MuteRequest) (s : State) : State :=
  match ask with
  | .none => s
  | .mute => muteChannel c s
  | .unmute => unmuteChannel c s

/-- One own sensor is judged (R157, R158). -/
def judgeRecordOf (w : PulseWindow) (c : Channel) (s : State) : State :=
  let r := s.coup.records.get c
  let j := judgeRecord (passLevel s (sensorPlace s.ownNo (chNo c))) (w.captures.get c) r
  let s1 := s.withCoup { s.coup with records := s.coup.records.set c j.1 }
  askChannel c j.2
    (if j.1.state = r.state then s1 else raiseNow (packSensor s.ownNo (chNo c)) (.sensorState j.1.state) s1)

/-- Where the coupling values of own channel c stand in the configuration store. -/
def couplingAt (s : State) (c : Channel) : Nat := 0x70 + 3 * (sensorPlace s.ownNo (chNo c) - 1)

/-- The words a judgment reads of a sensor whose reference pulser is the window's: expected amplitude and coupling margin, for a
capture that has a peak (R157). -/
def passWords (s : State) (c : Channel) : Capture → List Nat
  | .peaked _ => [couplingAt s c + 1, couplingAt s c + 2]
  | _ => []

/-- One own sensor is judged if its reference pulser is the window's pulser (R157). -/
def judgeIfReferred (w : PulseWindow) (c : Channel) (s : State) : State :=
  if Block.refPulser s.block (sensorPlace s.ownNo (chNo c)) = stNo w.pulser then
    usingConfig (passWords s c (w.captures.get c)) (judgeRecordOf w c) s
  else s

/-- One own sensor's turn in a judgment, its reference pulser being read. -/
def judgeSensor (w : PulseWindow) (c : Channel) (s : State) : State :=
  usingConfig [couplingAt s c] (judgeIfReferred w c) s

/-- The own sensors' turns, in this order (log entry 11); a parity fault stops the judgment where it stands (R163; log entry 50). -/
def judgeSensors (w : PulseWindow) : List Channel → State → State
  | [], s => s
  | c :: cs, s => (judgeSensor w c s).unlessFrozen (judgeSensors w cs)

/-- A capture that has neither completed nor been withdrawn (R156). -/
def Capture.isOpen : Capture → Bool
  | .started _ => true
  | _ => false

/-- Whether a window in JUDGING may be judged (R156): no kept capture is still open, and on the pulser the slot is NONE. -/
def judgeable (s : State) (w : PulseWindow) : Bool :=
  w.stage == .judging && !w.captures.c1.isOpen && !w.captures.c2.isOpen && !w.captures.c3.isOpen && !w.captures.c4.isOpen
    && (stNo w.pulser != s.ownNo || s.coup.slot == .none)

/-- The judgment of a window, which becomes NONE (R156, R157); a channel's change of state offers a waiting pulse request
again (R151). That the window is NONE and counted as judged before any sensor's words are read, and so stays where a parity fault cuts the
judgment short, is the model's choice (log entry 50, DESIGN CHOICE). -/
def judgeWindow (w : PulseWindow) (s : State) : State :=
  (judgeSensors w channelList (s.withCoup { s.coup with
    window := none, counts := { s.coup.counts with judged := raised s.coup.counts.judged } })).unlessFrozen reofferPulse

/-- The window is judged once it may be (R156, R157), while the station is at work (R163). -/
def judgeIfReady (s : State) : State :=
  match s.coup.window with
  | some w => if s.atWork && judgeable s w then judgeWindow w s else s
  | none => s

/-- A waiting pulse request is offered again (R151); where that ends the slot, its descriptor refused, a window in JUDGING may be judged
(R156). -/
def reofferThenJudge (s : State) : State :=
  match s.coup.slot with
  | .waiting _ => judgeIfReady (reofferPulse s)
  | _ => s

/-- The words the closing of a pulse window reads: the listen setting, where it decides the state of some channel (R39). -/
def closingWords (s : State) : List Nat :=
  if channelList.any fun c => (s.channels.units.get c).state == .quiet && (s.channels.units.get c).role == .listen then
    [Block.policyAt (phaseCode s.tracker.phase)]
  else []

/-- What the closing of the pulse window does to the four channels (R39). -/
def closeWindowUnits (s : State) : State :=
  s.withChannels { s.channels with units := s.channels.units.map fun _ u => closeWindowUnit s.listening u }

/-- The Channel Units are told that the pulse window has closed (R39). -/
def channelsWindowClosed (s : State) : State := usingConfig (closingWords s) closeWindowUnits s

/-- The window is abandoned (R159): no record changes; if it was OPEN the channels are told that it has closed, the window being NONE and
counted before the closing reads the listen setting (log entry 50). -/
def abandonWindow (s : State) : State :=
  match s.coup.window with
  | some w =>
    let s1 := s.withCoup { s.coup with
      window := none, counts := { s.coup.counts with abandoned := raised s.coup.counts.abandoned } }
    if w.stage = .isOpen then channelsWindowClosed s1 else s1
  | none => s

/-- The window opens (R154): the channels are told. -/
def openWindow (s : State) : State :=
  match s.coup.window with
  | some w => channelsWindowOpened (s.withCoup { s.coup with window := some { w with stage := .isOpen } })
  | none => s

/-- The windows-ignored count is raised (R154). -/
def ignoreWindow (s : State) : State :=
  s.withCoup { s.coup with counts := { s.coup.counts with ignored := raised s.coup.counts.ignored } }

/-- The fire offset (chapter 9): 1000 µs. -/
def fireOffset : Tag := 1000#32

/-- A pulse window is placed (R154): pending, or open at once when its fire tag has been reached. -/
def placeWindow (pulser : Station) (fire finish : Tag) (s : State) : State :=
  let s1 := s.withCoup { s.coup with
    window := some { stage := .pending, pulser := pulser, fire := fire, finish := finish, captures := .all .none } }
  reofferPulse (if reached s1.now fire then openWindow s1 else s1)

/-- The fire tag that a PULSE frame gives, from its receive stamp (R154). -/
def fireTagOf (stamp : Tag) (s : State) : Tag := stamp - span (Block.linkDelay s.block) + fireOffset

/-- The end tag of a window that fires then (R154). -/
def endTagOf (fire : Tag) (s : State) : Tag := fire + span (Block.pulseWindow100Us s.block * 100)

/-- A PULSE frame of the current cycle (R154): one whose end tag has passed is ignored; else its window takes the place of any other. -/
def takePulse (pulser : Station) (stamp : Tag) (s : State) : State :=
  let fire := fireTagOf stamp s
  if later s.now (endTagOf fire s) then ignoreWindow s
  else (abandonWindow s).unlessFrozen (placeWindow pulser fire (endTagOf fire s))

/-- A PULSE frame handed on (R154), with its sender, header cycle and receive stamp. -/
def pulseFrame (pulser : Station) (cycle : Option CycleNo) (stamp : Tag) (s : State) : State :=
  if s.member.station ≠ .running ∨ cycle ≠ s.tracker.cycle then ignoreWindow s
  else usingConfig [0x0F, 0x26] (takePulse pulser stamp) s

/-- The channel reports that its pulse is over or was cut short (R152): the slot FIRING becomes NONE. -/
def pulseReported (s : State) : State :=
  match s.coup.slot with
  | .firing => judgeIfReady (setSlot .none s)
  | _ => s

/-- The armed channel has lost its samples (R33, R152): a QUEUED slot's descriptor is withdrawn and the slot skipped, unless
the frame is already current. -/
def armedChannelLost (s : State) : State :=
  match s.coup.slot with
  | .queued ref => if isSelected ref s then s else judgeIfReady (skipSlot (withdraw ref s))
  | _ => s

/-- A CYC edge ends the station's slot short of FIRING (R153), after the selection of an early close (log entry 13); the slot is NONE and
counted before the release reads (log entry 50). -/
def endSlotAtCyc (s : State) : State :=
  match s.coup.slot with
  | .none => s
  | .placed _ => skipSlot s
  | .waiting _ => skipSlot s
  | .queued ref => releasePulse (skipSlot (withdraw ref s))
  | .announced _ => releasePulse (skipSlot s)
  | .firing => s

/-- The CYC edge as the Coupling Unit takes it (R3, R153, R159). -/
def couplingCyc (s : State) : State := (endSlotAtCyc s).unlessFrozen abandonWindow

/-- Whether the current cycle is one in which the station pulses (R150). -/
def slotCycle (s : State) : Bool :=
  Block.checkPeriod s.block != 0 && (s.tracker.cycle.map fun c => c.val % Block.checkPeriod s.block) == some 0

/-- The slot is placed, unless the station has no pulse channel; a pulse still FIRING takes its place (R150). -/
def placeInReturn (s : State) : State :=
  if Block.pulseChannel s.block s.ownNo = 0 then s
  else if s.coup.slot = .firing then
    s.withCoup { s.coup with counts := { s.coup.counts with skipped := raised s.coup.counts.skipped } }
  else setSlot (.placed (s.now + span (s.ownNo * (Block.pulseSpacingMs s.block * 1000)))) s

/-- The words the slot's placing reads: the station's entry of the pulse channel table and, where a slot is placed, the spacing. -/
def placeWords (s : State) : List Nat :=
  pulseWords s ++ (if Block.pulseChannel s.block s.ownNo ≠ 0 ∧ s.coup.slot ≠ .firing then [0x25] else [])

/-- The slot of a cycle in which the station pulses (R150). -/
def placeIfDue (s : State) : State := if slotCycle s then usingConfig (placeWords s) placeInReturn s else s

/-- The RETURN entry as the Coupling Unit takes it (R150): only a RUNNING station places a slot, and the check period says when. -/
def placeSlot (s : State) : State := if s.member.station = .running then usingConfig [0x24] placeIfDue s else s

end Sys2Proof.Machine
end

