-- ==== Sys2Proof/Machine/Locator.lean ====
section
/-! DEFINITION. The Locator (chapter 6): where a closed group came from, and the EVENT record built for it. It holds no state. -/

namespace Sys2Proof.Machine

/-- The method codes (12.1). -/
def methodNone : BitVec 2 := 0
def methodSingle : BitVec 2 := 1
def methodPair : BitVec 2 := 2

/-- The sensor of a member: origin station and channel (R101). -/
def sensorOf (e : HitEntry) : Nat × Nat := (e.id.station, e.id.channel)

/-- The lead hits: the first member of each distinct sensor, in member order (R101). -/
def leadHits : List HitEntry → List HitEntry
  | [] => []
  | e :: es => e :: (leadHits es).filter fun h => sensorOf h != sensorOf e

/-- The features of a member; a closed group never has a pending one (R80, R100). -/
def featuresOf (e : HitEntry) : Features := e.features.getD ⟨0, 0, 0, 0, 0, false, false⟩

/-- Whether entry i of the Zone Map matches (R103). -/
def zoneMatches (b : List Byte) (s1 s2 : Nat × Nat) (dt i : Nat) : Bool :=
  Block.zoneFirst b i == packSensor s1.1 s1.2
    && (Block.zoneSecond b i == packSensor s2.1 s2.2 || Block.zoneSecond b i == 0)
    && Block.zoneLow b i ≤ dt && dt ≤ Block.zoneHigh b i

/-- The first matching entry of the Zone Map, from 1 (R103). -/
def zoneSearch (b : List Byte) (s1 s2 : Nat × Nat) (dt : Nat) : Option Nat :=
  ((List.range (Block.zoneCount b)).find? fun k => zoneMatches b s1 s2 dt (k + 1)).map (· + 1)

/-- A placement: the method and the segment, with the words of the configuration store it was read from. -/
structure Placement where
  method : BitVec 2
  segment : Nat
  words : List Nat
deriving DecidableEq, Repr

/-- The words of the Zone Map's first `n` entries, with the entry count's. -/
def zoneWords (n : Nat) : List Nat := [0x27, 0x28] ++ (List.range (7 * n)).map (0xF0 + ·)

/-- The placement of a group (R102, R103). -/
def placeGroup (b : List Byte) (members : List HitEntry) : Placement :=
  match leadHits members with
  | [] => ⟨methodNone, 0, []⟩
  | [e] =>
    ⟨methodSingle, Block.singleHit b (sensorPlace e.id.station e.id.channel),
      [0xD0 + (sensorPlace e.id.station e.id.channel - 1)]⟩
  | e1 :: e2 :: _ =>
    match zoneSearch b (sensorOf e1) (sensorOf e2) (elapsed e2.localArrival e1.localArrival) with
    | some i => ⟨methodPair, Block.zoneSegment b i, zoneWords i⟩
    | none => ⟨methodNone, 0, zoneWords (Block.zoneCount b)⟩

/-- The attributes of a group (R104), bit by bit as 12.1 gives them. -/
def groupAttributes (segment : Nat) (members : List HitEntry) (crowded : Bool) : Byte :=
  byte (bit (members.any fun e => (featuresOf e).saturated)
    + 2 * bit (members.any fun e => (featuresOf e).long)
    + 4 * bit ((leadHits members).length < 3)
    + 8 * bit (segment == 0)
    + 16 * bit (members.any fun e => members.any fun f => e.phase != f.phase)
    + 32 * bit ((leadHits members).length < members.length)
    + 64 * bit crowded)

/-- The EVENT record of a closed group (R105, R106). -/
def buildRecord (b : List Byte) (cycle : Option CycleNo) (members : List HitEntry) (crowded : Bool) : EventRecord :=
  let p := placeGroup b members
  { cycle := cycle
    phase := (members.head?.map (·.phase)).getD .idle
    method := p.method
    segment := p.segment
    attrs := groupAttributes p.segment members crowded
    hitCount := members.length
    sensorCount := (leadHits members).length
    peak := (members.map fun e => (featuresOf e).peak).foldl max 0
    energy := min (members.map fun e => (featuresOf e).energy).sum 16777215
    longest := (members.map fun e => (featuresOf e).duration).foldl max 0
    ids := members.map (·.id) }

end Sys2Proof.Machine
end

