-- ==== Sys2Proof/Machine/CoincidenceOps.lean ====
section
/-! DEFINITION. The Coincidence Unit's shared operations (chapter 5): the Hit Window, the close of a group, its owner and ranks,
publication, the receipt of HIT and EVENT frames, and the discard at a cycle's close. -/

namespace Sys2Proof.Machine

/-- The capacities of the Hit Window (R78) and of the Pending Group List (R91). -/
def windowCapacity : Nat := 64
def pendingCapacity : Nat := 8

/-- The counts of the Coincidence Unit replaced. -/
def coinCounts (f : CoincidenceCounts → CoincidenceCounts) (s : State) : State :=
  s.withCoin { s.coin with counts := f s.coin.counts }

/-! ## The Hit Window (R78 to R80) -/

/-- Lowest first among equal local arrivals: origin station, then channel, then origin tag (R78). -/
def idBefore (a b : HitId) : Bool :=
  a.station < b.station || (a.station == b.station &&
    (a.channel < b.channel || (a.channel == b.channel && a.tag.toNat < b.tag.toNat)))

/-- Window order: local arrival, earliest first, then identity (R78). -/
def entryBefore (a b : HitEntry) : Bool :=
  later b.localArrival a.localArrival || (a.localArrival == b.localArrival && idBefore a.id b.id)

/-- An entry enters the window in its place. -/
def insertEntry (e : HitEntry) : List HitEntry → List HitEntry
  | [] => [e]
  | h :: t => if entryBefore e h then e :: h :: t else h :: insertEntry e t

/-- A hit enters the Hit Window. -/
def enterWindow (e : HitEntry) (s : State) : State :=
  s.withCoin { s.coin with window := insertEntry e s.coin.window }

/-- An own hit enters the window if it finds fewer than 64 entries (R79). -/
def offerOwnHit (c : Channel) (arrival : Tag) (phase : Phase) (s : State) : State :=
  if windowCapacity ≤ s.coin.window.length then coinCounts (fun k => { k with overflow := raised k.overflow }) s
  else hitEntered (ownHitId s c arrival) (enterWindow ⟨ownHitId s c arrival, arrival, phase, none, true⟩ s)

/-- An own hit offered at its start (R79). The 64-entry test is made on the window as the parity check leaves it (log entry 39). -/
def enterOwnHit (c : Channel) (arrival : Tag) (phase : Phase) (s : State) : State :=
  (readWindow s).unlessFrozen (offerOwnHit c arrival phase)

/-- A completed own hit's features are filled in, if its entry is still there (R80). The entry's parity is neither checked nor
renewed by it (log entry 40). -/
def fillFeatures (id : HitId) (f : Features) (s : State) : State :=
  s.withCoin { s.coin with
    window := s.coin.window.map fun e => if e.id = id then { e with features := some f } else e }

/-! ## Closing a group (R88 to R92) -/

/-- The contributing stations in the order of their first member (R89). -/
def stationOrder : List HitEntry → List Nat
  | [] => []
  | e :: es => e.id.station :: (stationOrder es).filter (· != e.id.station)

/-- The rank of a station in a group; none if it has no member (R89). -/
def rankOf (station : Nat) (members : List HitEntry) : Option Nat :=
  (stationOrder members).findIdx? (· == station)

/-- The key of a group: the identity of its earliest member (R89). -/
def groupKey (members : List HitEntry) : HitId := (members.head?.map (·.id)).getD ⟨0, 0, 0⟩

/-- An EVENT ends refused or dropped (R90, R92, R94). -/
def eventDropped (s : State) : State := coinCounts (fun k => { k with eventsDropped := raised k.eventsDropped }) s

/-- The EVENT payload the Locator builds for a group now (R100, R105). -/
def eventPayload (members : List HitEntry) (crowded : Bool) (s : State) : List Byte :=
  eventBytes (buildRecord s.block s.tracker.cycle members crowded)

/-- The descriptor of an EVENT asked for as owner is kept (R90). -/
def ownerTaken (ref : Nat) (s : State) : State := s.withCoin { s.coin with ownerRefs := s.coin.ownerRefs ++ [ref] }

/-- The owner's record is built and an EVENT descriptor asked for (R90). -/
def requestAsOwner (members : List HitEntry) (crowded : Bool) (s : State) : State :=
  request .event (eventPayload members crowded s) ownerTaken eventDropped s

/-- The owner publishes at once (R90); a parity fault in an entry the build reads stops it (R107). -/
def publishAsOwner (members : List HitEntry) (crowded : Bool) (s : State) : State :=
  usingConfig (placeGroup s.block members).words (requestAsOwner members crowded) s

/-- The publish timeout as a span. -/
def publishTimeout (s : State) (rank : Nat) : Tag := span (rank * (Block.publishMs s.block * 1000))

/-- An entry of the Pending Group List is made (R91). -/
def addPending (members : List HitEntry) (crowded : Bool) (rank : Nat) (s : State) : State :=
  s.withCoin { s.coin with pendingGroups :=
    s.coin.pendingGroups ++ [⟨members, crowded, rank, s.now + publishTimeout s rank, .waiting⟩] }

/-- A station of rank above 0 puts the group in the Pending Group List, if there is room (R91). -/
def pendGroup (members : List HitEntry) (crowded : Bool) (rank : Nat) (s : State) : State :=
  if pendingCapacity ≤ s.coin.pendingGroups.length then
    coinCounts (fun k => { k with groupsDropped := raised k.groupsDropped }) s
  else usingConfig [0x19] (addPending members crowded rank) s

/-- The closed horizon after a group with this span end closes (R84). -/
def moveHorizon (h : Option Tag) (spanEnd : Tag) : Option Tag :=
  match h with
  | none => some spanEnd
  | some t => if later spanEnd t then some spanEnd else some t

/-- The close of the open group (R88, steps 1 to 4). -/
def closeGroup (g : OpenGroup) (s : State) : State :=
  let s1 := s.withCoin { s.coin with
    window := s.coin.window.drop g.members.length
    horizon := moveHorizon s.coin.horizon (g.anchor + span (Block.cw s.block)) }
  match rankOf s1.ownNo g.members with
  | some 0 => publishAsOwner g.members g.crowded s1
  | some r => pendGroup g.members g.crowded r s1
  | none => s1

/-- Groups whose close expiry is at or before the present local time close at once, one after the other (R86, R88 step 5).
Each close takes at least one hit, so the window's capacity bounds the number of them. -/
def closeDueGroups : Nat → State → State
  | 0, s => s
  | n + 1, s =>
    match s.openGroup with
    | some g => if reached s.now g.expiry then (closeGroup g s).unlessFrozen (closeDueGroups n) else s
    | none => s

/-- The stand-in's entry is QUEUED (R92). -/
def standInTaken (p : PendingGroup) (ref : Nat) (s : State) : State :=
  s.withCoin { s.coin with
    pendingGroups := s.coin.pendingGroups.map (fun q => if q = p then { q with publication := .queued ref } else q) }

/-- The stand-in's entry goes, its request being refused (R92). -/
def standInRefused (p : PendingGroup) (s : State) : State :=
  eventDropped (s.withCoin { s.coin with pendingGroups := s.coin.pendingGroups.filter (· != p) })

/-- The stand-in's record is built and an EVENT descriptor asked for (R92). -/
def requestAsStandIn (p : PendingGroup) (s : State) : State :=
  request .event (eventPayload p.members p.crowded s) (standInTaken p) (standInRefused p) s

/-- The stand-in's publication at its deadline (R92); a parity fault in an entry the build reads stops it (R107). -/
def publishAsStandIn (p : PendingGroup) (s : State) : State :=
  usingConfig (placeGroup s.block p.members).words (requestAsStandIn p) s

/-- The outcome of an EVENT this station requested (R90, R94). -/
def eventOutcome (ref : Nat) (wasSent : Bool) (s : State) : State :=
  let s1 := s.withCoin { s.coin with
    ownerRefs := s.coin.ownerRefs.filter (· != ref)
    pendingGroups :=
      if wasSent then
        s.coin.pendingGroups.map (fun p => if p.publication = .queued ref then { p with publication := .sent } else p)
      else s.coin.pendingGroups.filter (fun p => p.publication != .queued ref) }
  if wasSent then coinCounts (fun k => { k with published := raised k.published }) s1 else eventDropped s1

/-! ## Received frames (R81 to R83, R93) -/

/-- Whether a local arrival lies within the span of a pulse window open on this station (R83), its two ends included (log entry 41). -/
def inPulseWindow (s : State) (arrival : Tag) : Bool :=
  match s.coup.window with
  | some w => w.stage == .isOpen && reached arrival w.fire && reached w.finish arrival
  | none => false

/-- Whether a local arrival is late: a closed horizon is present and the arrival is at or before it (R83, R84). -/
def isLate (s : State) (arrival : Tag) : Bool :=
  match s.coin.horizon with
  | some h => reached h arrival
  | none => false

/-- A record of a HIT frame (R82, R83), with the frame's sender and its offset. -/
def peerHit (sender : Station) (offset : Tag) (s : State) (h : HitRecord) : State :=
  if h.station ≠ stNo sender ∨ (chOf h.channel).isNone then
    coinCounts (fun k => { k with malformed := raised k.malformed }) s
  else
    let id : HitId := ⟨h.station, h.channel, h.arrival⟩
    let arrival := h.arrival + offset
    if s.coin.window.any fun e => e.id == id then coinCounts (fun k => { k with duplicates := raised k.duplicates }) s
    else if inPulseWindow s arrival then
      s.withCoup { s.coup with counts := { s.coup.counts with peerHits := raised s.coup.counts.peerHits } }
    else if isLate s arrival then coinCounts (fun k => { k with late := raised k.late }) s
    else if windowCapacity ≤ s.coin.window.length then coinCounts (fun k => { k with overflow := raised k.overflow }) s
    else enterWindow ⟨id, arrival, h.phase, some h.features, false⟩ s

/-- The clock offset of a frame (R70, R82): receive stamp minus sender stamp, less the link delay. -/
def clockOffset (s : State) (f : RxFrame) : Tag := f.stamp - f.senderStamp - span (Block.linkDelay s.block)

/-- A record of a HIT frame is taken (R82, R83); where its hit has entered the window, the group is formed afresh (R85). -/
def takePeerHit (sender : Station) (offset : Tag) (h : HitRecord) (s : State) : State :=
  let s1 := peerHit sender offset s h
  if s1.coin.window.length = s.coin.window.length then s1 else hitEntered ⟨h.station, h.channel, h.arrival⟩ s1

/-- The records of a HIT frame are taken in payload order (R81 to R83); a parity fault stops them where they stand (R163). -/
def takePeerHits (sender : Station) (offset : Tag) : List HitRecord → State → State
  | [], s => s
  | h :: hs, s => (takePeerHit sender offset h s).unlessFrozen (takePeerHits sender offset hs)

/-- After hits have come in, a close expiry that is already past is taken, if the anchor `old` has moved or is new (R87; log entry 15).
CW and GA have been read as the hits entered. -/
def closeIfMoved (old : Option Tag) (s : State) : State :=
  if s.openGroup.map (·.anchor) = old then s else closeDueGroups windowCapacity s

/-- A HIT frame's records are taken; then a close expiry that they have brought into the past (R81, R87). -/
def takeHits (sender : Station) (f : RxFrame) (s : State) : State :=
  (takePeerHits sender (clockOffset s f) (hitsOf f.payload) s).unlessFrozen (closeIfMoved (s.openGroup.map (·.anchor)))

/-- Before its records are taken, the duplicate test of a HIT frame's well-formed records reads the window (R161; log entry 39). -/
def readForHits (sender : Station) (f : RxFrame) (s : State) : State :=
  if (hitsOf f.payload).any fun h => h.station == stNo sender && (chOf h.channel).isSome then readWindow s else s

/-- A HIT frame handed on (R81 to R83, R86). Its records are taken in payload order; if they moved the anchor back or made a
new one, a close expiry already past is taken after the last record (R81, R87; log entry 15). -/
def hitFrame (sender : Station) (f : RxFrame) (s : State) : State :=
  if f.own then s
  else if (s.member.peers.get sender).state ≠ .present then s
  else if s.tracker.isOpen = false ∨ f.cycle ≠ s.tracker.cycle ∨ s.member.station ≠ .running then
    coinCounts (fun k => { k with offCycle := raised k.offCycle }) s
  else (readForHits sender f s).unlessFrozen (takeHits sender f)

/-- Whether a closed group shares a member identity with an event (R93). -/
def sharesIdentity (ids : List HitId) (members : List HitEntry) : Bool :=
  members.any fun e => ids.any fun i => i == e.id

/-- A pending entry's descriptor is withdrawn if it is QUEUED and not selected (R93, R95). -/
def withdrawPending (p : PendingGroup) (s : State) : State :=
  match p.publication with
  | .queued ref => withdraw ref s
  | _ => s

/-- An EVENT handed to the Coincidence Unit (R93). -/
def eventReceipt (e : EventRecord) (s : State) : State :=
  if s.tracker.isOpen ∧ e.cycle = s.tracker.cycle then
    let hit := s.coin.pendingGroups.filter fun p => sharesIdentity e.ids p.members
    hit.foldl (fun t p => withdrawPending p t)
      (s.withCoin { s.coin with
        pendingGroups := s.coin.pendingGroups.filter fun p => !sharesIdentity e.ids p.members })
  else s

/-! ## The close of the cycle (R95) -/

/-- The coincidence state of a closed cycle is discarded. -/
def discardCoincidence (s : State) : State :=
  let c := s.coin
  let s1 := c.pendingGroups.foldl (fun t p => withdrawPending p t) s
  let s2 := c.ownerRefs.foldl (fun t r => withdraw r t) s1
  rewrite (fun w => match w with | .window _ => true | _ => false)
    (s2.withCoin { clearCoincidence c with
      counts := { c.counts with
        hitsDiscarded := raisedBy c.window.length c.counts.hitsDiscarded
        groupsDiscarded := raisedBy c.pendingGroups.length c.counts.groupsDiscarded } })

end Sys2Proof.Machine
end

