-- ==== Sys2Proof/Machine/LinkOps.lean ====
section
/-! DEFINITION. The Link Unit's shared operations (chapter 3): lane health and the home lane, the end of an attempt, the final
outcome and what each requester does with it, the receivers. -/

namespace Sys2Proof.Machine

/-! ## Lane health and the home lane (R54, R55) -/

/-- A LANE STATE notice: its subject is the own station, the lane stands in the detail (11.5; log entry 17). -/
def laneNotice (l : Lane) (e : LaneEvent) (s : State) : State := raiseNow s.ownNo (.laneState l e) s

/-- A lane's failure run moves; a change of health raises a notice (R54). -/
def setRun (l : Lane) (run : Nat) (s : State) : State :=
  let u := s.link.lanes.get l
  let s1 := s.setLane l { u with run := run }
  if healthOf run = healthOf u.run then s1 else laneNotice l (.health (healthOf run)) s1

/-- A failed attempt on a lane (R54, R55). -/
def laneFailed (l : Lane) (s : State) : State :=
  let run := (s.link.lanes.get l).run
  let s1 := setRun l (raised255 run) s
  if healthOf run ≠ .faulty ∧ healthOf (raised255 run) = .faulty then
    if healthOf (s.link.lanes.get (otherLane l)).run = .faulty then
      laneNotice l .lost (s1.withLink { s1.link with lost := true })
    else if l = s.link.home then
      laneNotice (otherLane l) .home (s1.withLink { s1.link with home := otherLane l })
    else s1
  else s1

/-- An attempt on a lane has ended SENT (R54, R55). -/
def laneSent (l : Lane) (s : State) : State :=
  let s1 := setRun l 0 s
  if s.link.lost then laneNotice l .restored (s1.withLink { s1.link with lost := false }) else s1

/-! ## The requesters' side of an outcome -/

/-- The outcome of a LOGOUT part (R164, R165): the next part, or the self-restart. -/
def logoutOutcome (wasSent : Bool) (s : State) : State :=
  let r := s.fault.record
  let s1 := if wasSent then s.withFault { s.fault with record := { r with partsSent := min (r.partsSent + 1) 3 } } else s
  match s1.fault.logout with
  | some .part1 => requestLogout .part2 s1
  | some .part2 => requestLogout .part3 s1
  | some .part3 => selfRestart .fault s1
  | none => s1

/-- The lowest segment in use that a CONTROL selects (R173). -/
def lowestSelected (c : Control) (s : State) : Nat := (selectedSegments (Block.nSeg s.block) c.group c.mask).headD 0

/-- The CONTROL RESULT notice is raised (R173). -/
def raiseResult (delivered : Bool) (c : Control) (cause : Option FailCause) (retries : Nat) (s : State) : State :=
  raiseNow (lowestSelected c s) (.controlResult delivered c cause retries) s

/-- A CONTROL RESULT notice (R173), whose subject the Board Port reads N_SEG for (R161). -/
def controlResult (delivered : Bool) (c : Control) (cause : Option FailCause) (retries : Nat) (s : State) : State :=
  boardReads [.config 0x1A] (raiseResult delivered c cause retries) s

/-- The outcome of the Board Port's CONTROL (R173). -/
def controlOutcome (ref : Nat) (wasSent : Bool) (cause : Option FailCause) (retries : Nat) (s : State) : State :=
  match s.port.control with
  | some (r, c) => if r = ref then controlResult wasSent c cause retries (s.withPort { s.port with control := none }) else s
  | none => s

/-- The outcome of the PULSE frame, taken in QUEUED (R152): a SENT one sets the fire tag, a DROPPED one skips the slot and releases the
channel (log entry 50). -/
def pulseOutcome (ref : Nat) (wasSent : Bool) (stamp : Tag) (s : State) : State :=
  match s.coup.slot with
  | .queued r =>
    if r = ref then
      if wasSent then setSlot (.announced (stamp + fireOffset)) s else judgeIfReady (releasePulse (skipSlot s))
    else s
  | _ => s

/-- The outcome of a DIGEST (R134). -/
def digestOutcome (wasSent : Bool) (s : State) : State := if wasSent then s else digestNotSent s

/-- The outcome record is handed to the requesting block (R52); a HIT frame has no requester (R53), and the Membership Unit
asks for nothing after a PRESENCE (R76). -/
def reportOutcome (c : CurrentFrame) (wasSent : Bool) (stamp : Tag) (s : State) : State :=
  match c.ref with
  | none => s
  | some ref =>
    match c.kind with
    | .logout => logoutOutcome wasSent s
    | .control => controlOutcome ref wasSent c.lastFailure c.retries s
    | .event => eventOutcome ref wasSent s
    | .pulse => pulseOutcome ref wasSent stamp s
    | .digest => digestOutcome wasSent s
    | .row => rowOutcome ref wasSent s
    | .hit => s
    | .presence => s

/-! ## The end of an attempt (R50 to R53) -/

/-- The presence timer starts again (R76). -/
def restartPresence (s : State) : State :=
  s.withMember { s.member with presenceTimer := some (s.now + presencePeriod s) }

/-- The current frame is over: its descriptor leaves the queue and the outcome is counted (R52). -/
def removeCurrent (c : CurrentFrame) (wasSent : Bool) (s : State) : State :=
  s.withLink { s.link with
    current := none
    queue := s.link.queue.filter fun d => c.ref != some d.ref
    sent := if wasSent then raised s.link.sent else s.link.sent
    dropped := if wasSent then s.link.dropped else raised s.link.dropped }

/-- The outcome goes to the requester, unless a freeze has cut that (R63), and the next frame is selected. -/
def tellOutcome (c : CurrentFrame) (wasSent : Bool) (stamp : Tag) (s : State) : State :=
  selectNext (if c.unreported then s else reportOutcome c wasSent stamp s)

/-- A SENT outcome restarts the presence timer (R52, R76) before the requester is told. -/
def tellSent (c : CurrentFrame) (stamp : Tag) (s : State) : State := tellOutcome c true stamp (restartPresence s)

/-- The final outcome SENT (R52): counted, told to the Membership Unit, whose presence timer runs in JOINING and RUNNING (R76), and
to the requester. -/
def endSent (c : CurrentFrame) (stamp : Tag) (s : State) : State :=
  let s1 := removeCurrent c true s
  if s1.atWork then usingConfig [0x15] (tellSent c stamp) s1 else tellOutcome c true stamp s1

/-- The final outcome DROPPED (R52): counted and told to the requester. -/
def endDropped (c : CurrentFrame) (cause : FailCause) (s : State) : State :=
  tellOutcome { c with lastFailure := some cause } false 0 (removeCurrent c false s)

/-- The lane of the next retry (R51). -/
def retryLane (c : CurrentFrame) (s : State) : Lane :=
  if s.link.lost then s.link.home
  else
    let setting := if c.retries = 0 then Block.firstRetryLane s.block else Block.secondRetryLane s.block
    if setting = 0 then c.lane else otherLane c.lane

/-- The next attempt begins to wait on the retry lane, with a fresh access timer (R51). -/
def beginRetry (c : CurrentFrame) (cause : FailCause) (s : State) : State :=
  s.withLink { s.link with
    retriesBegun := raised s.link.retriesBegun
    current := some { c with
      lane := retryLane c s, attempt := .waiting (accessDue s), retries := c.retries + 1, lastFailure := some cause } }

/-- A retry begins while one is left, else the frame is DROPPED (R51). -/
def retryOrDrop (c : CurrentFrame) (cause : FailCause) (s : State) : State :=
  if c.retries < Block.retryCount s.block then beginRetry c cause s else endDropped c cause s

/-- The words of the configuration store that the end of a failed attempt reads: the retry count and, for a retry, its lane setting,
outside LOST, and the access timeout (R49, R51). -/
def retryWords (c : CurrentFrame) (s : State) : List Nat :=
  0x11 :: (if c.retries < Block.retryCount s.block then
    (if s.link.lost then [] else if c.retries = 0 then [0x12] else [0x13]) ++ [0x10] else [])

/-- The attempt in hand has ended CLASH, MUTE or STARVED (R51, R54, R55). A fault found in reading for the retry leaves the frame
without one: it is over, DROPPED (R63; log entry 42). -/
def attemptFailed (c : CurrentFrame) (cause : FailCause) (s : State) : State :=
  let s1 := laneFailed c.lane s
  if c.noRetry then endDropped c cause s1
  else readingConfig (retryWords c s1) (removeCurrent c false) (retryOrDrop c cause) s1

/-- The attempt in hand has ended SENT (R50, R52). -/
def attemptSucceeded (c : CurrentFrame) (stamp : Tag) (s : State) : State := endSent c stamp (laneSent c.lane s)

/-! ## The receivers (R56, R57) -/

/-- A frame being assembled on a lane is broken: the receiver hunts again and the count is raised (R56). -/
def breakFrame (l : Lane) (idleFrom : Nat) (s : State) : State :=
  let u := s.link.lanes.get l
  s.setLane l { u with receiver := .hunting, broken := raised u.broken, idleFrom := idleFrom }

/-- A start bit after a rest: the frame is assembled from here, with its receive stamp and own-echo mark (R44, R56). -/
def startFrame (l : Lane) (s : State) : State :=
  s.setLane l { s.link.lanes.get l with receiver := .assembling s.now (s.transmitting l), idleFrom := s.clock }

/-- A frame is complete in the fill buffer (R57): it moves to the hold buffer, or is lost as an overrun. -/
def completeFrame (l : Lane) (f : RxFrame) (s : State) : State :=
  let u := s.link.lanes.get l
  match u.hold with
  | none =>
    let s1 := s.setLane l { u with receiver := .hunting, hold := some f, idleFrom := s.clock }
    s1.withLink { s1.link with
      holdFirst := if (s1.link.lanes.get (otherLane l)).hold.isNone then l else otherLane l }
  | some _ => s.setLane l { u with receiver := .hunting, overruns := raised u.overruns, idleFrom := s.clock }

/-- The own-echo mark goes from a frame being assembled: the attempt it echoed has failed, so what completes is another sender's
frame that overpowered it (R50, R60; log entry 43). -/
def unmarkEcho (l : Lane) (s : State) : State :=
  let u := s.link.lanes.get l
  match u.receiver with
  | .assembling stamp _ => s.setLane l { u with receiver := .assembling stamp false }
  | .hunting => s

/-- The attempt in hand has ended CLASH or MUTE (R50). -/
def echoFailed (c : CurrentFrame) (cause : FailCause) (s : State) : State := attemptFailed c cause (unmarkEcho c.lane s)

/-- The idle time of a lane, in µs (R45). -/
def idleTime (l : Lane) (s : State) : Nat := s.clock - (s.link.lanes.get l).idleFrom

/-- Whether a receiver is hunting. -/
def Receiver.isHunting : Receiver → Bool
  | .hunting => true
  | .assembling _ _ => false

/-- Bytes heard on a lane while its receiver hunts, the last of them ending then, start its idle time afresh (R45). -/
def hearBytes (rest : RestingLane) (s : State) : State :=
  let u := s.link.lanes.get rest.lane
  match rest.lastByte, u.receiver with
  | some t, .hunting => s.setLane rest.lane { u with idleFrom := max u.idleFrom (s.clockAt t) }
  | _, _ => s

/-- Whether the current frame waits on this lane and the lane has been at rest for its access gap (R45). -/
def gapReached (l : Lane) (c : CurrentFrame) (s : State) : Bool :=
  c.lane == l && (s.link.lanes.get l).receiver.isHunting && accessGap c.kind s.ownNo ≤ idleTime l s

/-- The attempt stops its access timer and begins to transmit, stamped now (R44, R49). -/
def beginTransmit (c : CurrentFrame) (s : State) : State :=
  s.withLink { s.link with current := some { c with attempt := .transmitting s.now } }

end Sys2Proof.Machine
end

