-- ==== Sys2Proof/Machine/Attempts.lean ====
section
/-! DEFINITION. The commands of an attempt on a lane (chapter 3, sections 3 and 5). -/

namespace Sys2Proof.Machine

/-- What a command does with the current frame while it waits for its gap. -/
def whileWaiting (f : CurrentFrame → Tag → State → State) (s : State) : State :=
  match s.link.current with
  | some c =>
    match c.attempt with
    | .waiting due => if s.linkUp then f c due s else s
    | .transmitting _ => s
  | none => s

/-- What a command does with the current frame while it is on the lane. -/
def whileTransmitting (f : CurrentFrame → Tag → State → State) (s : State) : State :=
  match s.link.current with
  | some c =>
    match c.attempt with
    | .transmitting stamp => if s.linkUp then f c stamp s else s
    | .waiting _ => s
  | none => s

/-- The gap of the waiting frame has been reached: it begins to transmit (R45, R49). -/
def takeGap (lane : Lane) (c : CurrentFrame) (s : State) : State := if gapReached lane c s then beginTransmit c s else s

/-- ACCESS_GAP_REACHED (R45, R49). -/
def execAccessGapReached (m : Moment) (lane : RestingLane) (s : State) : Host.Outcome State Fault Refusal :=
  atMoment m s (whileWaiting fun c _ s => takeGap lane.lane c (hearBytes lane s))

/-- The waiting attempt ends STARVED once its access timer has run out (R49). -/
def starve (c : CurrentFrame) (dueTag : Tag) (s : State) : State :=
  if reached s.now dueTag then attemptFailed c .starved s else s

/-- ACCESS_TIMER_EXPIRY (R49, R51). -/
def execAccessTimerExpiry (m : Moment) (s : State) : Host.Outcome State Fault Refusal :=
  atMoment m s (whileWaiting starve)

/-- ATTEMPT_SENT (R50, R52). -/
def execAttemptSent (m : Moment) (s : State) : Host.Outcome State Fault Refusal :=
  atMoment m s (whileTransmitting attemptSucceeded)

/-- ECHO_MISMATCH (R50): the attempt ends CLASH. -/
def execEchoMismatch (m : Moment) (s : State) : Host.Outcome State Fault Refusal :=
  atMoment m s (whileTransmitting fun c _ => echoFailed c .clash)

/-- How an attempt ends when the echo of a byte does not come (R50). -/
def timeoutCause (index : Nat) : FailCause := if index = 0 then .mute else .clash

/-- ECHO_TIMEOUT (R50): MUTE for the first byte, CLASH for any later one. -/
def execEchoTimeout (m : Moment) (index : Nat) (s : State) : Host.Outcome State Fault Refusal :=
  atMoment m s (whileTransmitting fun c _ => echoFailed c (timeoutCause index))

end Sys2Proof.Machine
end

