-- ==== Sys2Proof/Machine/BoardOps.lean ====
section
/-! DEFINITION. The Board Port's shared operations (chapter 11): judging a command, the replies, the checks of a LOAD, and the
effects at deselect. -/

namespace Sys2Proof.Machine

/-! ## Judging (R168, R169) -/

/-- The status of a command: the first case of R168 that holds decides. -/
def judgeStatus (known checking allowed inRange outstanding : Bool) : Status :=
  if known = false then .invalid
  else if checking then .busy
  else if allowed = false then .refused
  else if inRange = false then .invalid
  else if outstanding then .busy
  else .done

/-- The station states in which the port takes a command (R169). -/
def takenIn (c : PortCommand) (st : StationState) : Bool :=
  match c with
  | .load _ => st == .unconfigured
  | .start => st == .configured
  | .restart => st != .frozen
  | .readSegment => st != .unconfigured
  | .clearFault => st != .frozen
  | .segmentControl _ => st == .running
  | _ => true

/-- A SEGMENT CONTROL finds one of this port outstanding (R168). -/
def isOutstanding (c : PortCommand) (s : State) : Bool :=
  match c with
  | .segmentControl _ => s.port.control.isSome
  | _ => false

/-- Whether the command byte named a command. -/
def PortCommand.known : PortCommand → Bool
  | .unknown => false
  | _ => true

/-- The status a command with parameters in or out of range gets now. -/
def statusOf (c : PortCommand) (inRange : Bool) (s : State) : Status :=
  judgeStatus c.known s.port.checking (takenIn c s.member.station) inRange (isOutstanding c s)

/-- The port judges a command and places it in the command slot, with its reply after a DONE status. While a transaction is in
hand, bytes clocked in after the last parameter are ignored. -/
def judgeCommand (c : PortCommand) (inRange : Bool) (reply : List Byte) (s : State) : State :=
  match s.port.slot with
  | some _ => s
  | none =>
    let st := statusOf c inRange s
    s.withPort { s.port with slot := some ⟨c, st, if st = .done then reply else []⟩ }

/-- Byte `i` of what the port clocks out for a judged command: the status byte, the reply's bytes, then 0 (R168). -/
def Judged.dataOut (j : Judged) (i : Nat) : Byte := (byte (statusCode j.status) :: j.reply).getD i 0

/-- Byte `i` the port clocks out while a judged command waits for deselect (R168). -/
def State.dataOut (s : State) (i : Nat) : Option Byte := s.port.slot.map fun j => j.dataOut i

/-! ## Replies (12.3) -/

/-- The load result's four bytes. -/
def loadResultBytes : LoadResult → List Byte
  | .none => [0, 0, 0, 0]
  | .passed => [1, 0, 0, 0]
  | .failed check index => [2, byte check] ++ be16 index

/-- A list of counts, two bytes each. -/
def countBytes (ns : List Nat) : List Byte := ns.flatMap be16

/-- The byte of the open state and the flags of the open cycle and of the last close. Between cycles the first two flags are still those
of the cycle that has closed (log entry 44). -/
def flagByte (t : Tracker) : Byte :=
  byte (bit t.isOpen + 2 * bit t.disordered + 4 * bit t.abandoned + 8 * bit t.lastDisordered + 16 * bit t.lastAbandoned)

/-- The byte of the two lanes' health, the home lane and LOST. -/
def laneByte (l : Link) : Byte :=
  byte (healthCode (healthOf l.lanes.x.run) + 4 * healthCode (healthOf l.lanes.y.run) + 16 * laneCode l.home
    + 32 * bit l.lost)

/-- A channel's state and role. -/
def channelByte (u : ChannelUnit) : Byte := byte (channelStateCode u.state + 16 * roleCode u.role)

/-- The Link Unit's counts in the order of R62. -/
def linkCounts (l : Link) : List Nat :=
  [l.sent, l.dropped, l.retriesBegun, l.lanes.x.broken, l.lanes.y.broken, l.lanes.x.rejected, l.lanes.y.rejected,
   l.lanes.x.overruns, l.lanes.y.overruns, l.lanes.x.accepted, l.lanes.y.accepted]

/-- The Coincidence Unit's counts in the order of R97. -/
def coinCountList (k : CoincidenceCounts) : List Nat :=
  [k.offCycle, k.malformed, k.duplicates, k.late, k.overflow, k.groupsDropped, k.published, k.eventsDropped,
   k.hitsDiscarded, k.groupsDiscarded]

/-- The Evidence Unit's counts in the order of R130. -/
def evidCountList (k : EvidenceCounts) : List Nat :=
  [k.applied, k.stale, k.duplicate, k.listFull, k.malformed, k.unfolded, k.controls, k.malformedControls]

/-- The Agreement Unit's counts in the order of R148. -/
def agreeCountList (k : AgreementCounts) : List Nat :=
  [k.decisions, k.cut, k.adoptions, k.digestsNotSent, k.rowsSent, k.aborted, k.rowsIgnored, k.completed, k.abandoned]

/-- The Coupling Unit's counts in the order of R160. -/
def coupCountList (k : CouplingCounts) : List Nat :=
  [k.fired, k.skipped, k.judged, k.abandoned, k.ignored, k.peerHits]

/-- The 119-byte status reply. -/
def statusReply (s : State) : List Byte :=
  [byte (stationStateCode s.member.station), byte (phaseCode s.tracker.phase)]
    ++ be16 (cycleValue s.tracker.cycle) ++ be16 (cycleValue s.tracker.lastClosed)
    ++ [flagByte s.tracker, byte (standingCode s.agree.standing), laneByte s.link,
        byte (bit s.evid.warn + 2 * bit s.evid.stop)]
    ++ loadResultBytes s.port.loadResult
    ++ channelList.map (fun c => channelByte (s.channels.units.get c))
    ++ [byte s.port.notices.length] ++ be16 s.tracker.stray ++ be16 s.channels.lost
    ++ channelList.map (fun c => byte (s.channels.units.get c).losses)
    ++ countBytes (linkCounts s.link) ++ countBytes (coinCountList s.coin.counts)
    ++ countBytes (evidCountList s.evid.counts) ++ countBytes (agreeCountList s.agree.counts)
    ++ countBytes (coupCountList s.coup.counts) ++ be16 s.fault.softFaults ++ be16 s.evid.age

/-- The reply of NEXT NOTICE: the oldest notice, or a record whose kind is shown absent (R174), its other bytes 0 (log entry 45). -/
def noticeReply (s : State) : List Byte :=
  match s.port.notices with
  | [] => List.replicate 16 0
  | n :: _ => noticeBytes n

/-- A record as read, with the bits that have flipped in it (R161; log entry 5). -/
def flipBits (bs : List Byte) (bits : List Nat) : List Byte :=
  bits.foldl (fun acc b => acc.modify (b / 8) fun v => v ^^^ (1#8 <<< (b % 8))) bs

/-- The bits of a word that have flipped. -/
def flippedBits (w : StoreWord) (s : State) : List Nat := (s.fault.flipped.filter fun u => u.word == w).map (·.bit)

/-- The reply of READ SEGMENT: the segment's number, then its record as read. -/
def segmentReply (n : Nat) (s : State) : List Byte :=
  byte n :: flipBits (segmentBytes (Block.histLen s.block) (s.evid.table.getD (n - 1) (.clean false)))
    (flippedBits (.segment n) s)

/-- The reply of READ PEER. -/
def peerReply (n : Nat) (s : State) : List Byte :=
  match stOf n with
  | some st => peerBytes (s.member.peers.get st)
  | none => []

/-- The reply of READ COUPLING: four records, channel 1 first. -/
def couplingReply (s : State) : List Byte := channelList.flatMap fun c => couplingBytes (s.coup.records.get c)

/-! ## The checks of a LOAD (R171) -/

/-- A value lies in its range. -/
def within (lo hi n : Nat) : Bool := lo ≤ n && n ≤ hi

/-- A check that has no table: the index of a failure is 0 (R170). -/
def single (ok : Bool) : Option Nat := if ok then none else some 0

/-- A check over a table: the first entry of these that fails. -/
def firstBad (entries : List Nat) (ok : Nat → Bool) : Option Nat := entries.find? fun i => !ok i

/-- The numbers from 1 to n. -/
def upTo (n : Nat) : List Nat := (List.range n).map (· + 1)

/-- A phase policy lies in its ranges (check 4). -/
def policyOk (b : List Byte) (p : Nat) : Bool :=
  within 0 1 (Block.listen b p) && within 20 90 (Block.absolute b p) && within 0 40 (Block.margin b p)
    && within 0 1 (Block.evidential b p) && within 0 127 (Block.mask b p)

/-- A sensor's coupling values lie in their ranges (check 11). -/
def couplingOk (b : List Byte) (p : Nat) : Bool :=
  within 0 8 (Block.refPulser b p) && within 0 90 (Block.expected b p) && within 0 30 (Block.couplingMargin b p)

/-- A Zone Map entry names sensors and a segment that exist (check 16). -/
def zoneOk (b : List Byte) (i : Nat) : Bool :=
  validSensor (Block.zoneFirst b i) && (validSensor (Block.zoneSecond b i) || Block.zoneSecond b i == 0)
    && Block.zoneSegment b i ≤ Block.nSeg b

/-- A sensor's reference pulser has a pulse channel, and the sensor is not judged by its own knock (check 18). -/
def referenceOk (b : List Byte) (place : Nat) : Bool :=
  let pulser := Block.refPulser b place
  pulser == 0 ||
    (Block.pulseChannel b pulser != 0 &&
      !(pulser == (place - 1) / 4 + 1 && Block.pulseChannel b pulser == (place - 1) % 4 + 1))

/-- The n-th check of a LOAD: none if it holds, else the index of the failure (R170, R171). -/
def loadCheck (b : List Byte) (n : Nat) : Option Nat :=
  match n with
  | 1 => single (crc16 (b.take 2046) == Block.check b)
  | 2 => single (within 1 8 (Block.stationNumber b))
  | 3 => single (within 0 1 (Block.doubleFill b) && within 100 5000 (Block.closeDelayMs b)
      && within 20 600 (Block.maxCycle100Ms b))
  | 4 => firstBad (List.range 8) (policyOk b)
  | 5 => single (within 10 1000 (Block.pdt b) && within 50 10000 (Block.hdt b) && within 100 20000 (Block.hlt b)
      && within 1 40 (Block.hitCapMs b) && within 1 20 (Block.pulseWidth b) && within 1 50 (Block.recoveryMs b))
  | 6 => single (within 0 10 (Block.linkDelay b) && [1, 3, 10, 30].contains (Block.accessTimeoutMs b)
      && within 0 2 (Block.retryCount b) && within 0 1 (Block.firstRetryLane b) && within 0 1 (Block.secondRetryLane b))
  | 7 => single (within 10 200 (Block.joinWindow100Ms b) && within 10 200 (Block.presence10Ms b))
  | 8 => single (within 50 2000 (Block.cw b) && within 2 50 (Block.gaMs b) && within 2 50 (Block.publishMs b))
  | 9 => single (within 1 96 (Block.nSeg b) && within 4 16 (Block.histLen b) && within 1 8 (Block.aMin b)
      && within 1 16 (Block.kS b) && within 1 16 (Block.kC b) && within 1 255 (Block.qW b) && within 1 255 (Block.qS b)
      && within 0 8 (Block.stopCount b))
  | 10 => single (within 5 200 (Block.digestWindow10Ms b) && within 1 255 (Block.minAge b))
  | 11 =>
    (single (within 0 255 (Block.checkPeriod b) && within 5 100 (Block.pulseSpacingMs b)
      && within 5 50 (Block.pulseWindow100Us b))).or
      ((firstBad (upTo 8) fun st => within 0 4 (Block.pulseChannel b st)).or (firstBad (upTo 32) (couplingOk b)))
  | 12 =>
    (single (within 0 256 (Block.zoneCount b))).or
      (firstBad (upTo (Block.zoneCount b)) fun i => within 0 2000 (Block.zoneLow b i) && within 0 2000 (Block.zoneHigh b i))
  | 13 => single (Block.hitCapMs b + 2 ≤ Block.gaMs b)
  | 14 => single (Block.cw b + Block.gaMs b * 1000 + 8 * (Block.publishMs b * 1000) + 5000 ≤ Block.closeDelayMs b * 1000)
  | 15 => single (Block.kS b ≤ Block.kC b && Block.kC b ≤ Block.histLen b)
  | 16 => firstBad (upTo (Block.zoneCount b)) (zoneOk b)
  | 17 => firstBad (upTo 32) fun p => Block.singleHit b p ≤ Block.nSeg b
  | 18 => firstBad (upTo 32) (referenceOk b)
  | 19 => single (Block.closeDelayMs b < Block.maxCycle100Ms b * 100)
  | _ => none

/-- The first check that fails, with its index (R170). -/
def firstFailure (b : List Byte) : List Nat → Option (Nat × Nat)
  | [] => none
  | n :: ns =>
    match loadCheck b n with
    | some i => some (n, i)
    | none => firstFailure b ns

/-- The verdict on a block: the checks in their order (R171). -/
def loadVerdict (b : List Byte) : Option (Nat × Nat) := firstFailure b (upTo 19)

/-- A failed check ends the LOAD (R170). -/
def loadFailed (check index : Nat) (s : State) : State :=
  s.withPort { s.port with config := none, checking := false, loadResult := .failed check index }

/-- A LOAD whose block passes every check (R71, R131, R170). -/
def loadPassed (b : List Byte) (s : State) : State :=
  { s with
    member := { s.member with
      station := .configured, number := stOf (Block.stationNumber b), fingerprint := some (Block.fingerprint b) }
    evid := { s.evid with table := List.replicate (Block.nSeg b) (.clean false) }
    fault := { s.fault with flipped := [] }
    port := { s.port with checking := false, loadResult := .passed } }

/-- The end of the check (R170). -/
def endCheck (s : State) : State :=
  match loadVerdict s.block with
  | some (n, i) => loadFailed n i s
  | none => loadPassed s.block s

/-! ## Effects at deselect (R168 to R174) -/

/-- A LOAD passes its block to the configuration store and the check begins (R170). -/
def beginCheck (b : List Byte) (s : State) : State :=
  s.withPort { s.port with config := some b, checking := true, loadResult := .none }

/-- A commanded RESTART (R172). -/
def commandRestart (s : State) : State :=
  let s1 := resetBlocks .command s
  if s.member.station = .unconfigured then s1 else enterJoining s1

/-- The whole of a notice's reply: the status byte and sixteen more (R174). -/
def noticeReplyLength : Nat := 17

/-- A returned notice is removed once its whole record has been clocked out (R174, R175). -/
def removeNotice (returned : Bool) (bytesOut : Nat) (s : State) : State :=
  if returned = true ∧ noticeReplyLength ≤ bytesOut then
    offerStacked (s.withPort { s.port with notices := s.port.notices.drop 1 })
  else s

/-- The Board Port's CONTROL is outstanding (R173). -/
def controlTaken (c : Control) (ref : Nat) (s : State) : State := s.withPort { s.port with control := some (ref, c) }

/-- A SEGMENT CONTROL asks for a CONTROL descriptor; refused, it is UNDELIVERED at once (R173). -/
def requestControl (c : Control) (s : State) : State :=
  request .control (controlBytes c) (controlTaken c) (controlResult false c none 0) s

/-- CLEAR FAULT (R167). -/
def clearRecord (s : State) : State := s.withFault { s.fault with record := .reset }

/-- The effect of a DONE command in a station state that still allows it (R168, R169). -/
def applyCommand (c : PortCommand) (bytesOut : Nat) (s : State) : State :=
  match c with
  | .load b => beginCheck b s
  | .start => enterJoining s
  | .restart => commandRestart s
  | .nextNotice returned => removeNotice returned bytesOut s
  | .clearFault => clearRecord s
  | .segmentControl ctl => requestControl ctl s
  | _ => s

/-- A DONE command that the station state no longer allows takes no effect; a SEGMENT CONTROL is then UNDELIVERED (R168). -/
def lateCommand (c : PortCommand) (s : State) : State :=
  match c with
  | .segmentControl ctl => controlResult false ctl none 0 s
  | _ => s

/-- Select rises (R168): the command slot is emptied; a transaction whose status byte was not clocked out is discarded. -/
def deselect (bytesOut : Nat) (s : State) : State :=
  match s.port.slot with
  | none => s
  | some j =>
    let s1 := s.withPort { s.port with slot := none }
    if bytesOut = 0 ∨ j.status ≠ .done then s1
    else if takenIn j.command s1.member.station then applyCommand j.command bytesOut s1
    else lateCommand j.command s1

end Sys2Proof.Machine
end

