-- ==== Sys2Proof/Machine/Board.lean ====
section
/-! DEFINITION. The commands of the Board Port (chapter 11). -/

namespace Sys2Proof.Machine

/-- LOAD (R168, R170): judged once its 2,048 parameter bytes are in. -/
def execLoad (m : Moment) (block : List Byte) (s : State) : Host.Outcome State Fault Refusal :=
  atMoment m s fun s => if 2048 ≤ block.length then judgeCommand (.load (block.take 2048)) true [] s else s

/-- LOAD_CHECK_COMPLETE (R170, R171). -/
def execLoadCheckComplete (m : Moment) (s : State) : Host.Outcome State Fault Refusal :=
  atMoment m s fun s => if s.port.checking then endCheck s else s

/-- START (R168, R172). -/
def execStart (m : Moment) (s : State) : Host.Outcome State Fault Refusal := atMoment m s (judgeCommand .start true [])

/-- RESTART (R168, R172). -/
def execRestart (m : Moment) (s : State) : Host.Outcome State Fault Refusal := atMoment m s (judgeCommand .restart true [])

/-- STATUS (R168, R169). -/
def execStatus (m : Moment) (s : State) : Host.Outcome State Fault Refusal :=
  atMoment m s fun s => judgeCommand .status true (statusReply s) s

/-- NEXT_NOTICE (R168, R174). -/
def execNextNotice (m : Moment) (s : State) : Host.Outcome State Fault Refusal :=
  atMoment m s fun s => judgeCommand (.nextNotice s.noticeLine) true (noticeReply s) s

/-- READ_SEGMENT's judgment (R168, R169). -/
def judgeReadSegment (n : Nat) (s : State) : State :=
  judgeCommand .readSegment (within 1 (Block.nSeg s.block) n) (segmentReply n s) s

/-- The words a READ_SEGMENT reads: N_SEG, and for one judged DONE the history length and the segment's record (R161). -/
def readSegmentWords (n : Nat) (s : State) : List StoreWord :=
  if statusOf .readSegment (within 1 (Block.nSeg s.block) n) s = .done then [.config 0x1A, .config 0x1B, .segment n]
  else [.config 0x1A]

/-- READ_SEGMENT (R161, R168, R169): the record is returned as read, and a parity fault found in the read is acted on. -/
def readSegmentStep (n : Nat) (s : State) : State :=
  if s.port.slot.isSome ∨ s.linkUp = false then judgeReadSegment n s
  else boardReads (readSegmentWords n s) (judgeReadSegment n) s

/-- READ_SEGMENT (R169). -/
def execReadSegment (m : Moment) (n : Byte) (s : State) : Host.Outcome State Fault Refusal :=
  atMoment m s (readSegmentStep n.toNat)

/-- READ_PEER (R168, R169). -/
def execReadPeer (m : Moment) (n : Byte) (s : State) : Host.Outcome State Fault Refusal :=
  atMoment m s fun s => judgeCommand .readPeer (within 1 8 n.toNat) (peerReply n.toNat s) s

/-- READ_COUPLING (R168, R169). -/
def execReadCoupling (m : Moment) (s : State) : Host.Outcome State Fault Refusal :=
  atMoment m s fun s => judgeCommand .readCoupling true (couplingReply s) s

/-- READ_FAULT (R167, R168). -/
def execReadFault (m : Moment) (s : State) : Host.Outcome State Fault Refusal :=
  atMoment m s fun s => judgeCommand .readFault true (faultRecordBytes s.fault.record) s

/-- CLEAR_FAULT (R167, R168). -/
def execClearFault (m : Moment) (s : State) : Host.Outcome State Fault Refusal :=
  atMoment m s (judgeCommand .clearFault true [])

/-- The CONTROL a SEGMENT CONTROL's parameters give; one of a kind that is neither is never in range (R173). -/
def controlParameters (kind group value mask : Byte) : Control :=
  ⟨(controlKindOf kind.toNat).getD .excludeSet, group, value, mask⟩

/-- Whether a SEGMENT CONTROL's parameters are in range (R173). -/
def controlInRange (kind group value mask : Byte) (s : State) : Bool :=
  (controlKindOf kind.toNat).isSome && controlValid (Block.nSeg s.block) (controlParameters kind group value mask)
    && !(selectedSegments (Block.nSeg s.block) group mask).isEmpty

/-- SEGMENT_CONTROL's judgment (R168, R173). -/
def judgeControl (kind group value mask : Byte) (s : State) : State :=
  judgeCommand (.segmentControl (controlParameters kind group value mask)) (controlInRange kind group value mask s) [] s

/-- SEGMENT_CONTROL (R161, R168, R173): the judgment reads N_SEG in the one station state that allows the command, and a
parity fault found in the read is acted on (log entry 35). -/
def segmentControlStep (kind group value mask : Byte) (s : State) : State :=
  if s.port.slot.isNone ∧ s.member.station = .running then boardReads [.config 0x1A] (judgeControl kind group value mask) s
  else judgeControl kind group value mask s

/-- SEGMENT_CONTROL (R168, R173). -/
def execSegmentControl (m : Moment) (kind group value mask : Byte) (s : State) : Host.Outcome State Fault Refusal :=
  atMoment m s (segmentControlStep kind group value mask)

/-- SELECT_RISE (R168). -/
def execSelectRise (m : Moment) (bytesOut : Nat) (s : State) : Host.Outcome State Fault Refusal :=
  atMoment m s (deselect bytesOut)

/-- Whether a command byte names no command (12.1). -/
def namesNoCommand (b : Byte) : Bool := b.toNat == 0 || 11 < b.toNat

/-- NO_COMMAND_BYTE (R168): INVALID. A byte that names a command is no such transaction. -/
def execNoCommandByte (m : Moment) (b : Byte) (s : State) : Host.Outcome State Fault Refusal :=
  atMoment m s fun s => if namesNoCommand b then judgeCommand .unknown true [] s else s

end Sys2Proof.Machine
end

