-- ==== Sys2Proof/Machine/Channels.lean ====
section
/-! DEFINITION. The commands of the four Channel Units (chapter 2): samples, the lockout, sample loss and recovery, the two
ends of a pulse. -/

namespace Sys2Proof.Machine

/-- The gap between samples that means loss, and the time of steady samples that means recovery, in µs (R33, R34). -/
def lossGap : Nat := 8
def recoverySpan : Nat := 1000

/-! ## A hit (R20 to R31) -/

/-- The watch after a sample at `now` (R33, R34): a gap of 8 µs drops a recovery span, and the sample starts a new one. -/
def watchSample (now : Tag) : LossWatch → LossWatch
  | .unwatched => .unwatched
  | .watching _ => .watching now
  | .lost none => .lost (some (now, now))
  | .lost (some (start, last)) =>
    if lossGap ≤ elapsed now last then .lost (some (now, now)) else .lost (some (start, now))

/-- Whether a sample found in this role and state is a floor sample (R21). -/
def isFloorSample (u : ChannelUnit) : Bool :=
  (u.role == .listen || u.role == .pulse) &&
    (u.state == .hush || u.state == .quiet || u.state == .lockout || u.state == .pulsing || u.state == .recover)

/-- A sample enters the watch and, if it is a floor sample, the floor window (R21). -/
def noteSample (now : Tag) (env : Nat) (u : ChannelUnit) : ChannelUnit :=
  { u with
    watch := watchSample now u.watch
    floorWindow := if isFloorSample u then (env :: u.floorWindow).take floorLength else u.floorWindow }

/-- Where a hit that starts now will go (R25). -/
def hitKindNow (s : State) : HitKind :=
  if s.windowOpen then .capture
  else if s.member.station = .running ∧ s.tracker.isOpen then .own
  else .localHit

/-- The hit that an arrival sample opens (R25 to R27). -/
def newHit (s : State) (env threshold : Nat) : OpenHit :=
  { kind := hitKindNow s, arrival := s.now, phase := s.tracker.phase, threshold := threshold
    level := thresholdLevel threshold, peak := amplitude env, peakTag := s.now, crossings := 1, lastCrossing := s.now
    below := false, energySum := env - thresholdLevel threshold, saturated := isSaturated env, cycleGone := false }

/-- The first capture start of a channel in the window is kept (R155). -/
def keepCapture (c : Channel) (s : State) : State :=
  match s.coup.window with
  | some w =>
    if w.captures.get c = .none then
      s.withCoup { s.coup with window := some { w with captures := w.captures.set c (.started s.now) } }
    else s
  | none => s

/-- A hit of this kind has been detected (R25): own and local hits are counted. -/
def countDetected (s : State) : State :=
  s.withChannels { s.channels with detected := raised s.channels.detected }

/-- A hit starts on a channel (R25). -/
def startHit (c : Channel) (h : OpenHit) (s : State) : State :=
  let s1 := s.setUnit c { s.channels.units.get c with state := .inHit, openHit := some h }
  match h.kind with
  | .capture => keepCapture c s1
  | .own => enterOwnHit c h.arrival h.phase (countDetected s1)
  | .localHit => countDetected s1

/-- The most crossings a hit counts (R27). -/
def crossingLimit : Nat := 4095

/-- A later sample of an open hit (R26, R27). -/
def measureSample (pdt : Nat) (now : Tag) (env : Nat) (h : OpenHit) : OpenHit :=
  let amp := amplitude env
  let atOrAbove : Bool := h.threshold ≤ amp
  let higher : Bool := elapsed now h.arrival ≤ pdt && h.peak < amp
  let crossing : Bool := atOrAbove && h.below
  { h with
    peak := if higher then amp else h.peak
    peakTag := if higher then now else h.peakTag
    crossings := if crossing then min (h.crossings + 1) crossingLimit else h.crossings
    lastCrossing := if crossing then now else h.lastCrossing
    below := !atOrAbove
    energySum := h.energySum + (env - h.level)
    saturated := h.saturated || isSaturated env }

/-- Whether a sample reaches the quiet end (R28). -/
def quietEnd (hdt : Nat) (now : Tag) (env : Nat) (h : OpenHit) : Bool :=
  amplitude env < h.threshold && hdt ≤ elapsed now h.lastCrossing

/-- Whether a sample reaches the cap (R28). -/
def capEnd (capMs : Nat) (now : Tag) (h : OpenHit) : Bool := capMs * 1000 ≤ elapsed now h.arrival

/-- The features of an ended hit (R26 to R28). -/
def hitFeatures (long : Bool) (h : OpenHit) : Features :=
  { peak := h.peak, rise := elapsed h.peakTag h.arrival, duration := elapsed h.lastCrossing h.arrival
    crossings := h.crossings, energy := min (h.energySum / 4096) 65535, saturated := h.saturated, long := long }

/-- The capacity of the Own Hit Queue (R31). -/
def ownQueueCapacity : Nat := 16

/-- A completed own hit's record is appended to the Own Hit Queue, or discarded when the queue is full (R31). -/
def appendOwnHit (c : Channel) (h : OpenHit) (f : Features) (s : State) : State :=
  if s.channels.queue.length < ownQueueCapacity then
    selectNext (s.withChannels { s.channels with
      queue := s.channels.queue ++ [⟨⟨s.ownNo, chNo c, h.arrival, h.phase, f⟩, s.now⟩] })
  else
    requestRemoval (ownHitId s c h.arrival) (s.withChannels { s.channels with lost := raised s.channels.lost })

/-- An ended hit is handed on by its kind (R29). -/
def completeHit (c : Channel) (h : OpenHit) (f : Features) (s : State) : State :=
  match h.kind with
  | .own =>
    let s1 := fillFeatures (ownHitId s c h.arrival) f s
    if h.cycleGone then s1 else appendOwnHit c h f s1
  | .capture => judgeIfReady (settleCapture c h.arrival (.peaked f.peak) s)
  | .localHit => s

/-- A hit ends by R28: the channel enters LOCKOUT, with HLT from the sample that ended the hit (R29, R30). -/
def endHit (c : Channel) (long : Bool) (h : OpenHit) (s : State) : State :=
  completeHit c h (hitFeatures long h)
    (s.setUnit c { s.channels.units.get c with
      state := .lockout, openHit := none, lockout := some (s.now + span (Block.hlt s.block)) })

/-- Whether a sample ends the hit, and whether it does so by the cap (R28). -/
def endsHit (env : Nat) (h : OpenHit) (s : State) : Bool :=
  capEnd (Block.hitCapMs s.block) s.now h || quietEnd (Block.hdt s.block) s.now env h

/-- A sample that finds its channel in IN-HIT (R26 to R28). -/
def hitSample (c : Channel) (env : Nat) (h : OpenHit) (s : State) : State :=
  if endsHit env h s then endHit c (capEnd (Block.hitCapMs s.block) s.now h) h s
  else
    s.setUnit c { s.channels.units.get c with
      openHit := some (measureSample (Block.pdt s.block) s.now env h) }

/-- The words a sample of an open hit reads: the cap; short of it HDT, for a sample below the threshold; then HLT at the hit's end, or
PDT (R26 to R30). -/
def hitWords (env : Nat) (h : OpenHit) (s : State) : List Nat :=
  0x0C :: (if capEnd (Block.hitCapMs s.block) s.now h = false ∧ amplitude env < h.threshold then [0x08, 0x09] else [])
    ++ (if endsHit env h s then [0x0A, 0x0B] else [0x06, 0x07])

/-- A sample that finds its channel in QUIET (R22, R25). -/
def quietSample (c : Channel) (env : Nat) (s : State) : State :=
  let threshold := s.threshold (s.channels.units.get c)
  if threshold ≤ amplitude env then startHit c (newHit s env threshold) s else s

/-- The words a threshold reads: the phase's absolute threshold and, where the channel has a floor, its margin (R22). -/
def thresholdWords (c : Channel) (s : State) : List Nat :=
  (Block.policyAt (phaseCode s.tracker.phase) + 1) ::
    (if (noiseFloor (s.channels.units.get c).floorWindow).isSome then [Block.policyAt (phaseCode s.tracker.phase) + 2] else [])

/-- A sample with this envelope, as the channel in this state takes it (R20 to R28). -/
def sampleStep (c : Channel) (env : Nat) (s : State) : State :=
  let u := s.channels.units.get c
  let s1 := s.setUnit c (noteSample s.now env u)
  match u.state, u.openHit with
  | .quiet, _ => usingConfig (thresholdWords c s1) (quietSample c env) s1
  | .inHit, some h => usingConfig (hitWords env h s1) (hitSample c env h) s1
  | _, _ => s1

/-- A channel takes one sample (R19). -/
def takeSample (c : Channel) (value : Half) (s : State) : State :=
  if s.atWork then sampleStep c (envelope value) s else s

/-- SAMPLE (R20). -/
def execSample (m : Moment) (c : Channel) (value : Half) (s : State) : Host.Outcome State Fault Refusal :=
  atMoment m s (takeSample c value)

/-! ## The lockout (R30) -/

/-- The state a channel takes at the end of its lockout (R30). -/
def afterLockout (u : ChannelUnit) (s : State) : ChannelState :=
  match u.role with
  | .muted => if s.windowOpen then .quiet else .muted
  | _ => listenState s

/-- The end of a lockout: the channel's next state, and a waiting pulse request offered again (R30, R151, R156). -/
def endLockout (c : Channel) (s : State) : State :=
  let u := s.channels.units.get c
  reofferThenJudge (s.setUnit c { u with state := afterLockout u s, lockout := none })

/-- Whether a channel's lockout timer has run out. -/
def lockoutDue (c : Channel) (s : State) : Bool :=
  s.atWork && (s.channels.units.get c).state == .lockout && due s.now (s.channels.units.get c).lockout

/-- The words the end of a lockout reads: the listen setting, for a LISTEN channel (R30). -/
def lockoutWords (c : Channel) (s : State) : List Nat :=
  if (s.channels.units.get c).role = .muted then [] else listenWords s

/-- LOCKOUT_TIMER_EXPIRY (R30). -/
def execLockoutTimerExpiry (m : Moment) (c : Channel) (s : State) : Host.Outcome State Fault Refusal :=
  atMoment m s fun s => if lockoutDue c s then usingConfig (lockoutWords c s) (endLockout c) s else s

/-! ## Sample loss and recovery (R33 to R35) -/

/-- Whether 8 µs have passed since the last sample of a watched channel that is not OFF (R33). -/
def lossDue (c : Channel) (s : State) : Bool :=
  s.atWork && (s.channels.units.get c).state != .off &&
    (match (s.channels.units.get c).watch with
     | .watching last => lossGap ≤ elapsed s.now last
     | _ => false)

/-- What the Coupling Unit is told of a channel lost in this state, the capture apart (R33). -/
def tellLoss (u : ChannelUnit) (s : State) : State :=
  if u.state = .hush ∧ u.role = .pulse then armedChannelLost s
  else if u.state = .pulsing ∨ u.state = .recover then pulseReported s
  else s

/-- A channel enters OFF with its samples lost; its loss is counted (R33, R35). -/
def loseChannel (c : Channel) (s : State) : State :=
  let u := s.channels.units.get c
  disableInto c { disabledUnit .off .off u with watch := .lost none, losses := raised255 u.losses } s

/-- The sensor of an own channel, packed. -/
def ownSensor (c : Channel) (s : State) : Nat := packSensor s.ownNo (chNo c)

/-- What follows on a channel's entry to OFF by sample loss (R33), the channel having been `u`: the notice, and what the Coupling Unit
makes of the loss. -/
def afterLoss (c : Channel) (u : ChannelUnit) (s : State) : State :=
  judgeIfReady (tellLoss u (raiseNow (ownSensor c s) (.sampleLoss true) s))

/-- SAMPLE_LOSS on a channel (R33). -/
def sampleLost (c : Channel) (s : State) : State :=
  (loseChannel c s).unlessFrozen (afterLoss c (s.channels.units.get c))

/-- SAMPLE_LOSS (R33). -/
def execSampleLoss (m : Moment) (c : Channel) (s : State) : Host.Outcome State Fault Refusal :=
  atMoment m s fun s => if lossDue c s then sampleLost c s else s

/-- The tag of the last sample of a recovery span that has lasted 1 ms without a gap (R34). -/
def recoveredAt (c : Channel) (s : State) : Option Tag :=
  match (s.channels.units.get c).watch with
  | .lost (some (start, last)) =>
    if s.atWork && recoverySpan ≤ elapsed s.now start && elapsed s.now last < lossGap then some last else none
  | _ => none

/-- A channel returns to service (R34): MUTED if its coupling record is DEAD, else LISTEN. -/
def recoverChannel (c : Channel) (last : Tag) (s : State) : State :=
  let u := s.channels.units.get c
  let back := if (s.coup.records.get c).state = .dead then disabledUnit .muted .muted u else disabledUnit (listenState s) .listen u
  disableInto c { back with watch := .watching last } s

/-- The notice of a recovery, and a waiting pulse request offered again (R34, R151, R156). -/
def afterRecovery (c : Channel) (s : State) : State := reofferThenJudge (raiseNow (ownSensor c s) (.sampleLoss false) s)

/-- SAMPLE_RECOVERY on a channel (R34). -/
def sampleRecovered (c : Channel) (last : Tag) (s : State) : State := (recoverChannel c last s).unlessFrozen (afterRecovery c)

/-- The words a recovery reads: the listen setting, unless the channel returns MUTED (R34). -/
def recoveryWords (c : Channel) (s : State) : List Nat :=
  if (s.coup.records.get c).state = .dead then [] else listenWords s

/-- SAMPLE_RECOVERY (R34). -/
def execSampleRecovery (m : Moment) (c : Channel) (s : State) : Host.Outcome State Fault Refusal :=
  atMoment m s fun s =>
    match recoveredAt c s with
    | some last => usingConfig (recoveryWords c s) (sampleRecovered c last) s
    | none => s

/-! ## The two ends of a pulse (R37) -/

/-- Whether a channel is in this state of its pulse with the time run out. -/
def pulseDue (c : Channel) (st : ChannelState) (s : State) : Bool :=
  s.atWork && (s.channels.units.get c).state == st && due s.now (s.channels.units.get c).pulseTimer

/-- The drive is released and the recovery time starts (R37). -/
def endPulseWidth (c : Channel) (s : State) : State :=
  s.setUnit c { s.channels.units.get c with
    state := .recover, pulseTimer := some (s.now + span (Block.recoveryMs s.block * 1000)) }

/-- PULSE_WIDTH_END (R37). -/
def execPulseWidthEnd (m : Moment) (c : Channel) (s : State) : Host.Outcome State Fault Refusal :=
  atMoment m s fun s => if pulseDue c .pulsing s then usingConfig [0x0E] (endPulseWidth c) s else s

/-- The end of the recovery time: the channel listens again and tells the Coupling Unit that its pulse is over (R37). -/
def endRecovery (c : Channel) (s : State) : State := judgeIfReady ((returnToListen c s).unlessFrozen pulseReported)

/-- RECOVERY_END (R37). -/
def execRecoveryEnd (m : Moment) (c : Channel) (s : State) : Host.Outcome State Fault Refusal :=
  atMoment m s fun s => if pulseDue c .recover s then endRecovery c s else s

end Sys2Proof.Machine
end

