-- ==== Sys2Proof/Machine/Decisions.lean ====
section
/-! DEFINITION. The commands of the Agreement Unit's times (chapter 8). -/

namespace Sys2Proof.Machine

/-- The words of the configuration store a decision uses: the digest window and the minimum age. -/
def decisionWords : List Nat := [0x22, 0x23]

/-- Whether the digest window has run out (R135). -/
def digestDue (s : State) : Bool := s.atWork && due s.now (s.agree.window.map (·.due))

/-- DIGEST_WINDOW_EXPIRY (R135). -/
def execDigestWindowExpiry (m : Moment) (s : State) : Host.Outcome State Fault Refusal :=
  atMoment m s fun s => if digestDue s then usingConfig decisionWords decide_ s else s

/-- The first segment of the ROW that the transfer lead's end asks for, once it has run out (R140, R141). -/
def leadDue (s : State) : Option Nat :=
  match s.agree.transfer with
  | .sending nextFirst (.lead t) => if s.atWork && reached s.now t then some nextFirst else none
  | _ => none

/-- TRANSFER_LEAD_EXPIRY (R141). -/
def execTransferLeadExpiry (m : Moment) (s : State) : Host.Outcome State Fault Refusal :=
  atMoment m s fun s =>
    match leadDue s with
    | some n => sendRow n s
    | none => s

end Sys2Proof.Machine
end

