-- ==== Sys2Proof/Machine/Groups.lean ====
section
/-! DEFINITION. The commands of the Coincidence Unit's times (chapter 5). -/

namespace Sys2Proof.Machine

/-- Whether the open group's close expiry has been reached (R87). -/
def closeDue (s : State) : Bool :=
  s.atWork && (match s.openGroup with
    | some g => reached s.now g.expiry
    | none => false)

/-- The window is read through its parity (R162), and every group due closes (R88). -/
def closeExpired (s : State) : State := closeDueGroups windowCapacity (checkWindow s)

/-- The close expiry is taken (R87). -/
def takeCloseExpiry (s : State) : State := usingConfig expiryWords closeExpired s

/-- CLOSE_EXPIRY (R87). -/
def execCloseExpiry (m : Moment) (s : State) : Host.Outcome State Fault Refusal :=
  atMoment m s fun s => if closeDue s then takeCloseExpiry s else s

/-- The entry of the Pending Group List with this key that is WAITING with its deadline reached (R92). -/
def deadlineEntry (key : HitId) (s : State) : Option PendingGroup :=
  s.coin.pendingGroups.find? fun p =>
    groupKey p.members == key && p.publication == .waiting && reached s.now p.deadline

/-- PUBLICATION_DEADLINE (R92). -/
def execPublicationDeadline (m : Moment) (key : HitId) (s : State) : Host.Outcome State Fault Refusal :=
  atMoment m s fun s =>
    match deadlineEntry key s with
    | some p => if s.atWork then publishAsStandIn p s else s
    | none => s

end Sys2Proof.Machine
end

