-- ==== Sys2Proof/Machine/Integrity.lean ====
section
/-! DEFINITION. The commands of the Fault Unit (chapter 10): the scrub's reads and the logout timer. -/

namespace Sys2Proof.Machine

/-- The word of the Segment Table the scrub goes on to after word `n`, then the snapshot while one is held, then the first word
of the configuration store (R161). -/
def scrubAfter (s : State) : StoreWord → StoreWord
  | .config i =>
    if i + 1 < 2048 then .config (i + 1) else if s.evid.table.isEmpty then .config 0 else .segment 1
  | .segment n =>
    if n < s.evid.table.length then .segment (n + 1)
    else if s.agree.snapshot.isSome then .snapshot 0 else .config 0
  | .snapshot n => if n < s.evid.table.length then .snapshot (n + 1) else .config 0
  | _ => .config 0

/-- The scrub reads the word it stands at and moves on; a parity fault is acted on (R161, R163, R166). -/
def scrubStep (s : State) : State :=
  let w := s.fault.scrub
  let s1 := s.withFault { s.fault with scrub := scrubAfter s w }
  if badParity s1 w then readFault .scrub w s1 else s1

/-- SCRUB_READ (R161). -/
def execScrubRead (m : Moment) (s : State) : Host.Outcome State Fault Refusal :=
  atMoment m s fun s => if s.linkUp then scrubStep s else s

/-- Whether the logout timer has run out (R165). -/
def logoutDue (s : State) : Bool := s.member.station == .frozen && due s.now s.fault.logoutTimer

/-- LOGOUT_TIMER_EXPIRY (R165). -/
def execLogoutTimerExpiry (m : Moment) (s : State) : Host.Outcome State Fault Refusal :=
  atMoment m s fun s => if logoutDue s then selfRestart .fault s else s

end Sys2Proof.Machine
end

