-- ==== Sys2Proof/Machine/PressOps.lean ====
section
/-! DEFINITION. The Phase Tracker's shared operations (chapter 1): phases, stray edges, opening and closing a cycle, adoption. -/

namespace Sys2Proof.Machine

/-- A stray edge (R7). -/
def strayEdge (s : State) : State := s.withTracker { s.tracker with stray := raised s.tracker.stray }

/-- The words of the configuration store that hold a phase's offered policy (R16). -/
def policyWords (p : Phase) : List Nat := (List.range 3).map fun i => Block.policyAt (phaseCode p) + i

/-- The tracker enters a phase and offers its policy in the same step (R16), reading it. -/
def enterPhase (p : Phase) (s : State) : State :=
  usingConfig (policyWords p) offerPolicy (s.withTracker { s.tracker with phase := p })

/-- What the opening of a cycle begins in the other blocks (R9, R84, R110). -/
def beginCycle (s : State) : State := emptyApplied (s.withCoin { s.coin with horizon := none })

/-- A close that finds a HIT frame current ends its retries; one that waits for its gap is DROPPED at once (R53). -/
def cutHitFrame (s : State) : State :=
  match s.link.current with
  | some c =>
    if c.kind = .hit then
      match c.attempt with
      | .transmitting _ => s.withLink { s.link with current := some { c with noRetry := true } }
      | .waiting _ => s.withLink { s.link with current := none, dropped := raised s.link.dropped }
    else s
  | none => s

/-- An open hit of the cycle that has closed (R29). -/
def markGone (u : ChannelUnit) : ChannelUnit :=
  { u with openHit := u.openHit.map fun h => { h with cycleGone := true } }

/-- The tracker at a close (R13): the settle timer, if running, is stopped (R11). -/
def closedTracker (t : Tracker) : Tracker :=
  { t with
    isOpen := false, lastClosed := t.cycle, lastDisordered := t.disordered, lastAbandoned := t.abandoned, settle := none }

/-- The notice of a close that is not NORMAL (R13). -/
def cycleFlagNotice (t : Tracker) (cause : CloseCause) (s : State) : State :=
  if closeKind t.disordered t.abandoned = .normal then s
  else raiseNow s.ownNo (.cycleFlag t.cycle t.disordered t.abandoned cause) s

/-- What a close does outside the tracker before the table: the Own Hit Queue is emptied (R31), a HIT frame is cut (R53), the
coincidence state is discarded (R95). -/
def closeHits (s : State) : State :=
  discardCoincidence (cutHitFrame (s.withChannels { s.channels with
    queue := [], units := s.channels.units.map fun _ u => markGone u }))

/-- The table's side of a close (R116, R132). -/
def closeTables (closed : Option CycleNo) (kind : CloseKind) (s : State) : State :=
  (evidenceClose closed kind s).unlessFrozen (agreementClose closed)

/-- The close of the open cycle (R13), with the flags its cause has set. -/
def closeCycle (cause : CloseCause) (s : State) : State :=
  let t := s.tracker
  selectNext (closeTables t.cycle (closeKind t.disordered t.abandoned)
    (closeHits (cycleFlagNotice t cause (s.withTracker (closedTracker t)))))

/-- Whether a CYC edge in this phase cuts the cycle off before its strip (R11). -/
def beforeStrip (p : Phase) : Bool :=
  match p with
  | .feed => true | .fill1 => true | .shake1 => true | .fill2 => true | .shake2 => true
  | _ => false

/-- The ABANDONED flag as an early close sets it (R11). -/
def flagEarly (t : Tracker) : Tracker := if beforeStrip t.phase then { t with abandoned := true } else t

/-- The early close of a CYC edge (R11). -/
def earlyClose (s : State) : State :=
  if s.tracker.isOpen then closeCycle .cyc (s.withTracker (flagEarly s.tracker)) else s

/-- The longest a cycle may last, as a span. -/
def maxCycle (s : State) : Tag := span (Block.maxCycle100Ms s.block * 100000)

/-- The tracker as a CYC edge starts it, the phase apart (R3): a set number is counted up and its cycle opens with clear flags. -/
def countedTracker (timer : Tag) (t : Tracker) : Tracker :=
  match t.cycle with
  | some c =>
    { t with cycle := some (c + 1), isOpen := true, disordered := false, abandoned := false, settle := none
             cycleTimer := .running timer }
  | none => { t with settle := none, cycleTimer := .running timer }

/-- The current cycle number counts up with the cycle timer's start, and the opening is handed on (R3, R9). -/
def countCycle (s : State) : State :=
  let s1 := s.withTracker (countedTracker (s.now + maxCycle s) s.tracker)
  if s1.tracker.isOpen then beginCycle s1 else s1

/-- The new cycle of a CYC edge (R3, R9). An edge that finds the phase FEED enters it again and offers its policy anew (R16; log
entry 47). -/
def startCycle (s : State) : State := (enterPhase .feed (countCycle s)).unlessFrozen couplingCyc

/-- A CYC rising edge (R3): the open cycle closes early, and the new cycle starts, with the maximum cycle time. The close selects a
frame before the Coupling Unit ends its slot, so a PULSE descriptor may become current first (R47, R153; log entry 13). -/
def cycEdge (s : State) : State := (earlyClose s).unlessFrozen (usingConfig [0x04, 0x05] startCycle)

/-- The close delay as a span. -/
def closeDelay (s : State) : Tag := span (Block.closeDelayMs s.block * 1000)

/-- The settle timer starts with the close delay. -/
def setSettle (s : State) : State := s.withTracker { s.tracker with settle := some (s.now + closeDelay s) }

/-- The settle timer starts if a cycle is open (R6). -/
def startSettle (s : State) : State := if s.tracker.isOpen then usingConfig [0x02, 0x03] setSettle s else s

/-- RETURN entry, handed to the Coupling Unit (R6, R150). -/
def enterReturn (s : State) : State := ((enterPhase .ret s).unlessFrozen startSettle).unlessFrozen placeSlot

/-- The DISORDERED flag is set on an open cycle (R5). -/
def flagDisordered (s : State) : State :=
  if s.tracker.isOpen then s.withTracker { s.tracker with disordered := true } else s

/-- STR rising before SHAKE-2 has been left in order (R5): the mould is lifted before the second vibration stage. -/
def disorderly (s : State) : State := enterPhase .strip (flagDisordered s)

/-- The move to IDLE with the cycle timer stopped (R10, R12). -/
def goIdle (s : State) : State := enterPhase .idle (s.withTracker { s.tracker with cycleTimer := .stopped })

/-- After a settle close an expired-in-return mark takes the phase to IDLE (R10). -/
def idleIfExpired (s : State) : State := if s.tracker.cycleTimer = .expiredInReturn then goIdle s else s

/-- The close at the settle timer's expiry (R10). -/
def settleClose (s : State) : State := (closeCycle .settle s).unlessFrozen idleIfExpired

/-- The close at the cycle timer's expiry (R12). -/
def closeByTimer (s : State) : State :=
  (closeCycle .cycleTimer (s.withTracker { s.tracker with abandoned := true })).unlessFrozen goIdle

/-- The timer is marked expired-in-return (R12). -/
def markExpired (s : State) : State := s.withTracker { s.tracker with cycleTimer := .expiredInReturn }

/-- The expiry of the cycle timer (R12). -/
def cycleExpired (s : State) : State :=
  if s.tracker.isOpen then
    if s.tracker.phase = .ret then markExpired s else closeByTimer s
  else goIdle s

/-- The tracker as adoption by a joining station leaves it (R14). -/
def adoptedTracker (n : CycleNo) (settle : Tag) (t : Tracker) : Tracker :=
  match t.phase with
  | .idle => { t with cycle := some n }
  | .ret => { t with cycle := some n, isOpen := true, disordered := false, abandoned := false, settle := some settle }
  | _ => { t with cycle := some n, isOpen := true, disordered := false, abandoned := false }

/-- The station adopts its first cycle number, and the cycle it finds itself in opens (R14, R9). -/
def adoptFirst (n : CycleNo) (s : State) : State :=
  let s1 := s.withTracker (adoptedTracker n (s.now + closeDelay s) s.tracker)
  if s1.tracker.isOpen then beginCycle s1 else s1

/-- A joining station becomes RUNNING and adopts its first cycle number; in RETURN the settle timer's start reads the close delay
(R14, R66, R67). -/
def joinAdopt (n : CycleNo) (s : State) : State :=
  usingConfig (if s.tracker.phase = .ret then [0x02, 0x03] else []) (adoptFirst n)
    (s.withMember { s.member with station := .running, joinTimer := none })

end Sys2Proof.Machine
end

