-- ==== Sys2Proof/Machine/MembershipOps.lean ====
section
/-! DEFINITION. The Membership Unit's shared operations (chapter 4) and the hand-out of a received frame (3.9). -/

namespace Sys2Proof.Machine

/-- Three presence periods (R73). -/
def silenceSpan (s : State) : Tag := span (3 * (Block.presence10Ms s.block * 10000))

/-- A held-back frame is counted (R73). -/
def holdBack (st : Station) (s : State) : State :=
  s.setPeer st { s.member.peers.get st with heldBack := raised (s.member.peers.get st).heldBack }

/-- What every taken frame does to its sender's record (R69, R70). -/
def touchRecord (offset stamp : Tag) (r : PeerRecord) : PeerRecord :=
  { r with lastHeard := some stamp, offset := some offset, taken := raised r.taken }

/-- The record after a taken PRESENCE (R72); the own record stays PRESENT whatever its frames carry (R69). -/
def presenceRecord (own : Bool) (ownPrint : Option (BitVec 32)) (p : List Byte) (r : PeerRecord) : PeerRecord :=
  let r1 := { r with fingerprint := some (u32 p 0), presence := some (presenceOf p) }
  if own || some (u32 p 0) = ownPrint then { r1 with state := .present }
  else { r1 with state := .foreign, silence := none, digest := none, logout := ⟨none, none, none⟩ }

/-- Whether a LOGOUT's part byte names a part (R178). -/
def logoutPartOf (p : List Byte) : Option LogoutPart :=
  match u8 p 0 with
  | 1 => some .part1 | 2 => some .part2 | 3 => some .part3 | _ => none

/-- Part 2's bytes as they are kept: an entry of the list whose flag is 0 counts as absent, its value bytes ignored and stored as 0
(R74, R177). The flags byte is kept whole, with the bits 4 to 7 for which 12.2 names no meaning: the model's choice (log entry 49). -/
def keptEntries (p : List Byte) : List Byte :=
  p.getD 1 0 :: (List.range 8).map fun i => if (p.getD 1 0).getLsbD (i / 2) then p.getD (2 + i) 0 else 0

/-- The logout record with a part stored (R74). -/
def storePart (part : LogoutPart) (p : List Byte) (l : LogoutRecord) : LogoutRecord :=
  match part with
  | .part1 => ⟨some (p.drop 1), none, none⟩
  | .part2 => { l with part2 := some (keptEntries p) }
  | .part3 => { l with part3 := some (p.drop 1) }

/-- The record after a taken LOGOUT (R74, R178); the own record never takes this rule. -/
def logoutRecord (own : Bool) (p : List Byte) (r : PeerRecord) : PeerRecord :=
  match logoutPartOf p with
  | none => { r with heldBack := raised r.heldBack }
  | some part =>
    if own then r else { r with state := .loggedOut, silence := none, logout := storePart part p r.logout }

/-- The record after any other taken frame (R71): a MISSING or LOGGED-OUT sender is PRESENT again. -/
def heardRecord (r : PeerRecord) : PeerRecord :=
  if r.state = .missing ∨ r.state = .loggedOut then { r with state := .present } else r

/-- The record after a taken DIGEST (R75). -/
def digestRecord (p : List Byte) (stamp : Tag) (r : PeerRecord) : PeerRecord :=
  { heardRecord r with digest := some (digestContentOf p stamp) }

/-- The state rule of a kind (R69). -/
def recordByKind (own : Bool) (ownPrint : Option (BitVec 32)) (k : FrameKind) (p : List Byte) (stamp : Tag)
    (r : PeerRecord) : PeerRecord :=
  match k with
  | .presence => presenceRecord own ownPrint p r
  | .logout => logoutRecord own p r
  | .digest => digestRecord p stamp r
  | _ => heardRecord r

/-- The silence timer of a record starts again (R73). -/
def setSilence (st : Station) (s : State) : State :=
  s.setPeer st { s.member.peers.get st with silence := some (s.now + silenceSpan s) }

/-- The silence timer of a peer is restarted at every frame taken from it while it is PRESENT (R73). -/
def restartSilence (st : Station) (s : State) : State :=
  if s.member.number ≠ some st ∧ (s.member.peers.get st).state = .present then usingConfig [0x15] (setSilence st) s else s

/-- A change of a record's state is noticed, and told to the Agreement Unit (R71 to R75). -/
def recordChanged (st : Station) (old new : PeerState) (s : State) : State :=
  if new = old then s
  else
    let s1 := raiseNow (stNo st) (.peerState new) s
    if new = .present then s1 else donorGone st s1

/-- Whether a frame is held back at once (R69): its sender is FOREIGN or has no fingerprint on record, and it is no PRESENCE. -/
def heldAtOnce (k : FrameKind) (r : PeerRecord) : Bool :=
  k != .presence && (r.state == .foreign || r.fingerprint.isNone)

/-- The sender's record after a frame taken from it, its silence timer apart (R69 to R75). -/
def takenRecord (k : FrameKind) (st : Station) (f : RxFrame) (s : State) : PeerRecord :=
  recordByKind (s.member.number == some st) s.member.fingerprint k f.payload f.stamp
    (touchRecord (clockOffset s f) f.stamp (s.member.peers.get st))

/-- The sender's record takes a frame, and a change of its state is noticed (R69 to R75). -/
def storeTaken (k : FrameKind) (st : Station) (f : RxFrame) (s : State) : State :=
  recordChanged st (s.member.peers.get st).state (takenRecord k st f s).state (s.setPeer st (takenRecord k st f s))

/-- The sender's record takes a frame, and its silence timer starts again (R69 to R75). -/
def enterRecord (k : FrameKind) (st : Station) (f : RxFrame) (s : State) : State := restartSilence st (storeTaken k st f s)

/-- The Membership Unit takes a frame into its sender's record, with the link delay in its clock offset (R69 to R75). -/
def takeRecord (k : FrameKind) (st : Station) (f : RxFrame) (s : State) : State := usingConfig [0x0F] (enterRecord k st f) s

/-- The cycle number a joining station takes from a frame, its sender's record having been updated (R66). -/
def joinNumber (k : FrameKind) (st : Station) (f : RxFrame) (s : State) : Option CycleNo :=
  if s.member.station = .joining ∧ s.member.number ≠ some st ∧ k ≠ .logout ∧
      (s.member.peers.get st).state = .present then f.cycle
  else none

/-- The frame is handed to the blocks of its kind (R61). The Agreement Unit takes no frame while JOINING (R149). -/
def handToBlocks (k : FrameKind) (st : Station) (f : RxFrame) (s : State) : State :=
  match k with
  | .logout => s
  | .presence => s
  | .digest => s
  | .control => controlFrame st f.payload s
  | .event => applyEvent st (eventOf f.payload) (eventReceipt (eventOf f.payload) s)
  | .hit => hitFrame st f s
  | .pulse => pulseFrame st f.cycle f.stamp s
  | .row => if s.member.station = .running then rowFrame st f.own f.payload s else s

/-- After the update a frame goes on or is held back (R73). -/
def handOn (k : FrameKind) (st : Station) (f : RxFrame) (s : State) : State :=
  if k ≠ .presence ∧ k ≠ .logout ∧
      ((s.member.peers.get st).state = .absent ∨ (s.member.peers.get st).state = .foreign) then holdBack st s
  else handToBlocks k st f s

/-- A joining station takes its cycle number from a frame before the frame goes on (R66, R73). -/
def joinAndHandOn (k : FrameKind) (st : Station) (f : RxFrame) (s : State) : State :=
  match joinNumber k st f s with
  | some n => (joinAdopt n s).unlessFrozen (handOn k st f)
  | none => handOn k st f s

/-- A frame the handler gives to the Membership Unit (R66, R69, R73). -/
def memberFrame (k : FrameKind) (st : Station) (f : RxFrame) (s : State) : State :=
  if heldAtOnce k (s.member.peers.get st) then holdBack st s
  else (takeRecord k st f s).unlessFrozen (joinAndHandOn k st f)

/-! ## The frame handler (R58 to R61) -/

/-- The frame the idle handler takes next, with its lane: the one that completed first (R58). -/
def heldFrame (l : Link) : Option (Lane × RxFrame) :=
  match l.lanes.x.hold, l.lanes.y.hold with
  | none, none => none
  | some f, none => some (.x, f)
  | none, some g => some (.y, g)
  | some f, some g =>
    match l.holdFirst with
    | .x => some (.x, f)
    | .y => some (.y, g)

/-- A frame that fails a check of R59 is counted on its lane. -/
def rejectFrame (l : Lane) (s : State) : State :=
  s.setLane l { s.link.lanes.get l with rejected := raised (s.link.lanes.get l).rejected }

/-- An accepted frame is counted and entered in the list of last accepted frames (R61). -/
def countAccepted (l : Lane) (k : FrameKind) (st : Station) (s : State) : State :=
  let s1 := s.setLane l { s.link.lanes.get l with accepted := raised (s.link.lanes.get l).accepted }
  s1.withLink { s1.link with lastAccepted := ((k, st) :: s1.link.lastAccepted).take 4 }

/-- Acceptance, the duplicate number, and the hand-out (R59 to R61). -/
def acceptFrame (l : Lane) (f : RxFrame) (s : State) : State :=
  match acceptance (Block.histLen s.block) f with
  | none => rejectFrame l s
  | some (k, st) =>
    if s.member.number = some st ∧ f.own = false then raiseNow s.ownNo (.duplicateNumber l) s
    else memberFrame k st f (countAccepted l k st s)

/-- The handler is busy with a frame, whose hold buffer is empty now (R58). -/
def beginHandling (l : Lane) (f : RxFrame) (s : State) : State :=
  let s1 := s.setLane l { s.link.lanes.get l with hold := none }
  s1.withLink { s1.link with handler := some (l, f) }

/-- The handler is idle again (R58). -/
def endHandling (s : State) : State := s.withLink { s.link with handler := none }

/-- The words that acceptance reads: H, for the payload length of a ROW that has passed the checks before it (R59). -/
def acceptanceWords (f : RxFrame) : List Nat :=
  if f.checkOk && frameKindOf f.kindByte == some .row && (stOf f.senderByte).isSome then [0x1B] else []

/-- The handler takes the frame, has every block take it, and is idle again (R58). -/
def handOut (l : Lane) (f : RxFrame) (s : State) : State := endHandling (usingConfig (acceptanceWords f) (acceptFrame l f) (beginHandling l f s))

/-- The handler takes one frame (R58); in a FROZEN station it discards it (R63). -/
def handleFrame (l : Lane) (f : RxFrame) (s : State) : State :=
  if s.member.station = .frozen then s.setLane l { s.link.lanes.get l with hold := none }
  else handOut l f s

end Sys2Proof.Machine
end

