-- ==== Sys2Proof/Machine/Members.lean ====
section
/-! DEFINITION. The commands of the Membership Unit's timers (chapter 4). -/

namespace Sys2Proof.Machine

/-- Whether the join timer has run out on a JOINING station (R67). -/
def joinDue (s : State) : Bool := s.member.station == .joining && due s.now s.member.joinTimer

/-- JOIN_TIMER_EXPIRY (R67): the station adopts 0 and is RUNNING. -/
def execJoinTimerExpiry (m : Moment) (s : State) : Host.Outcome State Fault Refusal :=
  atMoment m s fun s => if joinDue s then joinAdopt 0 s else s

/-- Whether a PRESENT peer's silence timer has run out (R73). -/
def silenceDue (st : Station) (s : State) : Bool :=
  s.atWork && (s.member.peers.get st).state == .present && due s.now (s.member.peers.get st).silence

/-- The record becomes MISSING and its timer stops (R73). -/
def goMissing (st : Station) (s : State) : State :=
  recordChanged st .present .missing (s.setPeer st { s.member.peers.get st with state := .missing, silence := none })

/-- SILENCE_TIMER_EXPIRY (R73). -/
def execSilenceTimerExpiry (m : Moment) (st : Station) (s : State) : Host.Outcome State Fault Refusal :=
  atMoment m s fun s => if silenceDue st s then goMissing st s else s

/-- Whether the presence timer has run out (R76). -/
def presenceDue (s : State) : Bool := s.atWork && due s.now s.member.presenceTimer

/-- A PRESENCE frame is asked for, once, and the timer starts again (R76). -/
def askPresence (s : State) : State :=
  request .presence s.presencePayload keepNoRef id
    (s.withMember { s.member with presenceTimer := some (s.now + presencePeriod s) })

/-- PRESENCE_TIMER_EXPIRY (R76). -/
def execPresenceTimerExpiry (m : Moment) (s : State) : Host.Outcome State Fault Refusal :=
  atMoment m s fun s => if presenceDue s then usingConfig [0x15] askPresence s else s

end Sys2Proof.Machine
end

