-- ==== Sys2Proof/Machine/Press.lean ====
section
/-! DEFINITION. The commands of the press lines and the tracker's timers (chapter 1). -/

namespace Sys2Proof.Machine

/-- The tracker takes an edge while the station is JOINING or RUNNING (R1). -/
def takeEdge (f : State → State) (s : State) : State := if s.atWork then f s else s

/-- CYC_RISING (R3). -/
def execCycRising (m : Moment) (s : State) : Host.Outcome State Fault Refusal := atMoment m s (takeEdge cycEdge)

/-- A rising edge of FIL by phase (R4, R7). -/
def filEdge (s : State) : State :=
  match s.tracker.phase with
  | .feed => enterPhase .fill1 s
  | .shake1 => enterPhase .fill2 s
  | _ => strayEdge s

/-- FIL_RISING (R4, R7). -/
def execFilRising (m : Moment) (s : State) : Host.Outcome State Fault Refusal := atMoment m s (takeEdge filEdge)

/-- The phase after the first fill, by the double-fill flag (R4). -/
def firstShake (s : State) : State := if Block.doubleFill s.block = 1 then enterPhase .shake1 s else enterPhase .shake2 s

/-- A rising edge of VIB by phase (R4, R7). -/
def vibEdge (s : State) : State :=
  match s.tracker.phase with
  | .fill1 => usingConfig [0x01] firstShake s
  | .fill2 => enterPhase .shake2 s
  | _ => strayEdge s

/-- VIB_RISING (R4, R7). -/
def execVibRising (m : Moment) (s : State) : Host.Outcome State Fault Refusal := atMoment m s (takeEdge vibEdge)

/-- A rising edge of STR by phase (R5, R7). -/
def strEdge (s : State) : State :=
  match s.tracker.phase with
  | .shake2 => enterPhase .strip s
  | .feed => disorderly s
  | .fill1 => disorderly s
  | .shake1 => disorderly s
  | .fill2 => disorderly s
  | _ => strayEdge s

/-- STR_RISING (R5, R7). -/
def execStrRising (m : Moment) (s : State) : Host.Outcome State Fault Refusal := atMoment m s (takeEdge strEdge)

/-- A falling edge of STR by phase (R6, R7). -/
def strFall (s : State) : State :=
  match s.tracker.phase with
  | .strip => enterReturn s
  | _ => strayEdge s

/-- STR_FALLING (R6, R7). -/
def execStrFalling (m : Moment) (s : State) : Host.Outcome State Fault Refusal := atMoment m s (takeEdge strFall)

/-- Whether the settle timer has run out with its cycle open (R10). -/
def settleDue (s : State) : Bool := s.atWork && s.tracker.isOpen && due s.now s.tracker.settle

/-- SETTLE_TIMER_EXPIRY (R10). -/
def execSettleTimerExpiry (m : Moment) (s : State) : Host.Outcome State Fault Refusal :=
  atMoment m s fun s => if settleDue s then settleClose s else s

/-- Whether the cycle timer has run out (R12). -/
def cycleDue (s : State) : Bool :=
  s.atWork && (match s.tracker.cycleTimer with
    | .running t => reached s.now t
    | _ => false)

/-- CYCLE_TIMER_EXPIRY (R12). -/
def execCycleTimerExpiry (m : Moment) (s : State) : Host.Outcome State Fault Refusal :=
  atMoment m s fun s => if cycleDue s then cycleExpired s else s

end Sys2Proof.Machine
end

