-- ==== Sys2Proof/Machine/Pulses.lean ====
section
/-! DEFINITION. The commands of the Coupling Unit's tags (chapter 9). -/

namespace Sys2Proof.Machine

/-- The slot tag, once reached in PLACED (R151). -/
def slotDue (s : State) : Option Tag :=
  match s.coup.slot with
  | .placed tag => if s.atWork && reached s.now tag then some tag else none
  | _ => none

/-- The slot tag is reached (R151): skipped if the pulse channel's sensor is DEAD, else the channel is asked to arm. -/
def takeSlot (tag : Tag) (s : State) : State :=
  match pulseChannel s with
  | some c =>
    if (s.coup.records.get c).state = .dead then judgeIfReady (skipSlot s)
    else reofferThenJudge (setSlot (.waiting tag) s)
  | none => s

/-- SLOT_TAG_REACHED (R151). -/
def execSlotTagReached (m : Moment) (s : State) : Host.Outcome State Fault Refusal :=
  atMoment m s fun s =>
    match slotDue s with
    | some tag => usingConfig (pulseWords s) (takeSlot tag) s
    | none => s

/-- Whether the wait of a slot has run out (R151). -/
def waitOver (s : State) : Bool :=
  match s.coup.slot with
  | .waiting tag => s.atWork && reached s.now (tag + halfSpacing s)
  | _ => false

/-- The slot is skipped at the end of its wait (R151). -/
def endWait (s : State) : State := judgeIfReady (skipSlot s)

/-- SLOT_WAIT_END (R151). -/
def execSlotWaitEnd (m : Moment) (s : State) : Host.Outcome State Fault Refusal :=
  atMoment m s fun s => if waitOver s then usingConfig [0x25] endWait s else s

/-- Whether the fire tag of an announced pulse has been reached (R152). -/
def fireDue (s : State) : Bool :=
  match s.coup.slot with
  | .announced fire => s.atWork && reached s.now fire
  | _ => false

/-- Whether a channel is armed (R36). -/
def isArmed (u : ChannelUnit) : Bool := u.role == .pulse && u.state == .hush

/-- The armed channel is fired (R37, R152). -/
def fireChannel (c : Channel) (s : State) : State :=
  (s.setUnit c { s.channels.units.get c with
      state := .pulsing, pulseTimer := some (s.now + span (Block.pulseWidth s.block)) }).withCoup
    { s.coup with slot := .firing, counts := { s.coup.counts with fired := raised s.coup.counts.fired } }

/-- The fire command finds the channel not armed (R37, R152): the pulses-fired count, raised with the command, is lowered back,
and the slot is skipped. -/
def notFired (s : State) : State :=
  judgeIfReady (skipSlot (s.withCoup { s.coup with
    counts := { s.coup.counts with fired := raised s.coup.counts.fired - 1 } }))

/-- The fire tag is reached (R152). -/
def takeFire (s : State) : State :=
  match pulseChannel s with
  | some c => if isArmed (s.channels.units.get c) then fireChannel c s else notFired s
  | none => notFired s

/-- The words a fire command reads: the pulse channel and, where the channel is armed, the pulse width (R37, R152). -/
def fireWords (s : State) : List Nat :=
  pulseWords s ++ (if (pulseChannel s).any fun c => isArmed (s.channels.units.get c) then [0x0D] else [])

/-- FIRE_TAG_REACHED (R152). -/
def execFireTagReached (m : Moment) (s : State) : Host.Outcome State Fault Refusal :=
  atMoment m s fun s => if fireDue s then usingConfig (fireWords s) takeFire s else s

/-- Whether a pending window's fire tag has been reached (R154). -/
def windowFireDue (s : State) : Bool :=
  match s.coup.window with
  | some w => s.atWork && w.stage == .pending && reached s.now w.fire
  | none => false

/-- WINDOW_FIRE_TAG (R154). -/
def execWindowFireTag (m : Moment) (s : State) : Host.Outcome State Fault Refusal :=
  atMoment m s fun s => if windowFireDue s then reofferPulse (openWindow s) else s

/-- Whether an open window's end tag has been reached (R156). -/
def endTagDue (s : State) : Bool :=
  match s.coup.window with
  | some w => s.atWork && w.stage == .isOpen && reached s.now w.finish
  | none => false

/-- The window becomes JUDGING (R156). -/
def beginJudging (s : State) : State :=
  match s.coup.window with
  | some w => s.withCoup { s.coup with window := some { w with stage := .judging } }
  | none => s

/-- The end tag is reached (R156): the channels are told that the window has closed, and it is judged once it may be. The window is JUDGING
before the closing reads the listen setting (log entry 50). -/
def takeEndTag (s : State) : State :=
  judgeIfReady ((channelsWindowClosed (beginJudging s)).unlessFrozen reofferPulse)

/-- END_TAG_REACHED (R156). -/
def execEndTagReached (m : Moment) (s : State) : Host.Outcome State Fault Refusal :=
  atMoment m s fun s => if endTagDue s then takeEndTag s else s

end Sys2Proof.Machine
end

