-- ==== Sys2Proof/Machine/Receive.lean ====
section
/-! DEFINITION. The commands of the receivers and of the frame handler (chapter 3, sections 8 and 9). -/

namespace Sys2Proof.Machine

/-- The receive stamp and the own-echo mark of the frame a lane's receiver is assembling, while receivers run (R41, R56). -/
def assembling (l : Lane) (s : State) : Option (Tag × Bool) :=
  match (s.link.lanes.get l).receiver with
  | .assembling stamp own => if s.linkUp then some (stamp, own) else none
  | .hunting => none

/-- A frame starts on a lane (R56). A rest of 2.5 µs before it has broken a frame still being assembled. -/
def beginFrameOn (l : Lane) (s : State) : State :=
  match assembling l s with
  | some _ => startFrame l (breakFrame l s.clock s)
  | none => startFrame l s

/-- FRAME_START (R56). -/
def execFrameStart (m : Moment) (l : Lane) (s : State) : Host.Outcome State Fault Refusal :=
  atMoment m s fun s => if s.linkUp then beginFrameOn l s else s

/-- FRAME_COMPLETE (R56, R57). -/
def execFrameComplete (m : Moment) (l : Lane) (bytes : List Byte) (s : State) : Host.Outcome State Fault Refusal :=
  atMoment m s fun s =>
    match assembling l s with
    | some (stamp, own) => completeFrame l ⟨bytes, stamp, own⟩ s
    | none => s

/-- The clock value from which a lane's idle time counts when a frame on it is broken: an early rest is seen 2.5 µs after the last
stop bit, which is 3 ticks back at most (R45, R56; log entry 18). -/
def brokenIdleFrom (cause : BrokenCause) (now : Nat) : Nat :=
  match cause with
  | .earlyRest => now - 3
  | _ => now

/-- FRAME_BROKEN (R56). -/
def execFrameBroken (m : Moment) (l : Lane) (cause : BrokenCause) (s : State) : Host.Outcome State Fault Refusal :=
  atMoment m s fun s =>
    match assembling l s with
    | some _ => breakFrame l (brokenIdleFrom cause s.clock) s
    | none => s

/-- FRAME_HANDLER_TAKE (R58). -/
def execFrameHandlerTake (m : Moment) (s : State) : Host.Outcome State Fault Refusal :=
  atMoment m s fun s =>
    match heldFrame s.link with
    | some (l, f) => if s.linkUp then handleFrame l f s else s
    | none => s

end Sys2Proof.Machine
end

