-- ==== Sys2Proof/Machine/Resets.lean ====
section
/-! DEFINITION. The RESET pin and power-on (11.6). The model's own queue and free-choice count stay: they belong to no block. -/

namespace Sys2Proof.Machine

/-- The whole part at its power-on values (R176). -/
def powerOnValues (held : Bool) (s : State) : State :=
  { State.reset with resetHeld := held, freeCount := s.freeCount, pending := s.pending }

/-- RESET (R176): the pin is held low, and the part is held at its power-on values. -/
def execReset (s : State) : Host.Outcome State Fault Refusal := .next (powerOnValues true s)

/-- POWER_ON (R176): as a RESET that has ended. -/
def execPowerOn (s : State) : Host.Outcome State Fault Refusal := .next (powerOnValues false s)

/-- RESET_RELEASE (R176): the pin rises, and the station waits UNCONFIGURED. -/
def execResetRelease (s : State) : Host.Outcome State Fault Refusal := .next { s with resetHeld := false }

end Sys2Proof.Machine
end

