-- ==== Sys2Proof/Machine/Dispatch.lean ====
section
/-! DEFINITION. One arm per command: the direct call of its meaning. -/

namespace Sys2Proof.Machine

/-- The effect of a command on everything but the queue of waiting commands. -/
def exec (i : Instr) (s : State) : Host.Outcome State Fault Refusal :=
  match i with
  | .cycRising m => Sys2Proof.Machine.execCycRising m s
  | .filRising m => Sys2Proof.Machine.execFilRising m s
  | .vibRising m => Sys2Proof.Machine.execVibRising m s
  | .strRising m => Sys2Proof.Machine.execStrRising m s
  | .strFalling m => Sys2Proof.Machine.execStrFalling m s
  | .settleTimerExpiry m => Sys2Proof.Machine.execSettleTimerExpiry m s
  | .cycleTimerExpiry m => Sys2Proof.Machine.execCycleTimerExpiry m s
  | .sample m ch value => Sys2Proof.Machine.execSample m ch value s
  | .lockoutTimerExpiry m ch => Sys2Proof.Machine.execLockoutTimerExpiry m ch s
  | .sampleLoss m ch => Sys2Proof.Machine.execSampleLoss m ch s
  | .sampleRecovery m ch => Sys2Proof.Machine.execSampleRecovery m ch s
  | .pulseWidthEnd m ch => Sys2Proof.Machine.execPulseWidthEnd m ch s
  | .recoveryEnd m ch => Sys2Proof.Machine.execRecoveryEnd m ch s
  | .accessGapReached m lane => Sys2Proof.Machine.execAccessGapReached m lane s
  | .accessTimerExpiry m => Sys2Proof.Machine.execAccessTimerExpiry m s
  | .attemptSent m => Sys2Proof.Machine.execAttemptSent m s
  | .echoMismatch m => Sys2Proof.Machine.execEchoMismatch m s
  | .echoTimeout m index => Sys2Proof.Machine.execEchoTimeout m index s
  | .frameComplete m lane bytes => Sys2Proof.Machine.execFrameComplete m lane bytes s
  | .frameBroken m lane cause => Sys2Proof.Machine.execFrameBroken m lane cause s
  | .frameHandlerTake m => Sys2Proof.Machine.execFrameHandlerTake m s
  | .joinTimerExpiry m => Sys2Proof.Machine.execJoinTimerExpiry m s
  | .silenceTimerExpiry m station => Sys2Proof.Machine.execSilenceTimerExpiry m station s
  | .presenceTimerExpiry m => Sys2Proof.Machine.execPresenceTimerExpiry m s
  | .closeExpiry m => Sys2Proof.Machine.execCloseExpiry m s
  | .publicationDeadline m key => Sys2Proof.Machine.execPublicationDeadline m key s
  | .digestWindowExpiry m => Sys2Proof.Machine.execDigestWindowExpiry m s
  | .transferLeadExpiry m => Sys2Proof.Machine.execTransferLeadExpiry m s
  | .slotTagReached m => Sys2Proof.Machine.execSlotTagReached m s
  | .slotWaitEnd m => Sys2Proof.Machine.execSlotWaitEnd m s
  | .fireTagReached m => Sys2Proof.Machine.execFireTagReached m s
  | .windowFireTag m => Sys2Proof.Machine.execWindowFireTag m s
  | .endTagReached m => Sys2Proof.Machine.execEndTagReached m s
  | .scrubRead m => Sys2Proof.Machine.execScrubRead m s
  | .logoutTimerExpiry m => Sys2Proof.Machine.execLogoutTimerExpiry m s
  | .load m block => Sys2Proof.Machine.execLoad m block s
  | .loadCheckComplete m => Sys2Proof.Machine.execLoadCheckComplete m s
  | .start m => Sys2Proof.Machine.execStart m s
  | .restart m => Sys2Proof.Machine.execRestart m s
  | .status m => Sys2Proof.Machine.execStatus m s
  | .nextNotice m => Sys2Proof.Machine.execNextNotice m s
  | .readSegment m n => Sys2Proof.Machine.execReadSegment m n s
  | .readPeer m n => Sys2Proof.Machine.execReadPeer m n s
  | .readCoupling m => Sys2Proof.Machine.execReadCoupling m s
  | .readFault m => Sys2Proof.Machine.execReadFault m s
  | .clearFault m => Sys2Proof.Machine.execClearFault m s
  | .segmentControl m kind group value mask => Sys2Proof.Machine.execSegmentControl m kind group value mask s
  | .selectRise m bytesOut => Sys2Proof.Machine.execSelectRise m bytesOut s
  | .reset => Sys2Proof.Machine.execReset s
  | .powerOn => Sys2Proof.Machine.execPowerOn s
  | .frameStart m lane => Sys2Proof.Machine.execFrameStart m lane s
  | .resetRelease => Sys2Proof.Machine.execResetRelease s
  | .noCommandByte m byte => Sys2Proof.Machine.execNoCommandByte m byte s

end Sys2Proof.Machine
end

