-- ==== Sys2Proof/Machine/Step.lean ====
section
/-! DEFINITION. One step of the block: the command at the front of the queue, or a tick of the time tag when none waits. -/

namespace Sys2Proof.Machine

/-- A tick of 1 µs with nothing to take: the time tag counts on, unless the RESET pin holds the part (log entry 19). -/
def tick (s : State) : State := if s.resetHeld then s else s.withClock (s.clock + 1)

/-- One step: the command at the front of the queue is run on the rest of the queue; on an empty queue the time tag ticks. -/
def step (s : State) : Host.Outcome State Fault Refusal :=
  match s.pending with
  | [] => .next (tick s)
  | c :: rest => exec c (s.withPending rest)

/-- The state with the command that a word spells put at the front of the queue; no word spells one (log entry 14). -/
def State.withFetchWord (s : State) (nbits w : Nat) : State :=
  match decodeTableWord nbits w with
  | some i => s.withPending (i :: s.pending)
  | none => s

end Sys2Proof.Machine
end

