-- ==== Sys2Proof/Safety.lean ====
section
/-! DEFINITION. What counts as a safe run, in the terms the statements use: sound stores, and the relations between pieces of
state that the manual says always hold. -/

namespace Sys2Proof.Machine

/-- The RESET pin is not held and no stored bit has flipped, before the command or with it: every parity check passes. -/
def Sound (m : Moment) (s : State) : Prop := m.upsets = [] ∧ s.fault.flipped = [] ∧ s.resetHeld = false

/-- No read can find a parity fault: the RESET pin is not held, no bit flips with the command, and the only flipped bits are those of
the word that a freeze has set aside, which a FROZEN station keeps until its restart (R161, R163, R166). -/
def NoFaultToFind (m : Moment) (s : State) : Prop :=
  m.upsets = [] ∧ s.resetHeld = false ∧ ∀ u ∈ s.fault.flipped, s.fault.faultedWord = some u.word

/-- What always holds in the Phase Tracker of a station that is not FROZEN: an open cycle has a number and a phase other than
IDLE (R3, R9, R14); the settle timer runs exactly in RETURN with a cycle open (R6, R10, R14); the expired-in-return mark stands
only there (R12); the cycle timer is stopped exactly in IDLE (R12, R14). -/
def TrackerOk (t : Tracker) : Prop :=
  (t.isOpen = true → t.cycle.isSome = true ∧ t.phase ≠ .idle) ∧
  (t.settle.isSome = true ↔ t.isOpen = true ∧ t.phase = .ret) ∧
  (t.cycleTimer = .expiredInReturn → t.isOpen = true ∧ t.phase = .ret) ∧
  (t.cycleTimer = .stopped ↔ t.phase = .idle)

/-- The tracker's invariant: a check of a LOAD runs only in UNCONFIGURED (R170), and the tracker's relations hold while the
station is not FROZEN; a freeze may leave a close part done, and its restart resets the tracker (R18, R163). -/
def TrackerInv (s : State) : Prop :=
  (s.port.checking = true → s.member.station = .unconfigured) ∧ (s.member.station = .frozen ∨ TrackerOk s.tracker)

/-- Whether a lane is FAULTY (R54). -/
def laneFaulty (l : Lane) (k : Link) : Prop := healthOf (k.lanes.get l).run = .faulty

/-- What always holds between the lanes (R55): the link is LOST exactly while both lanes are FAULTY, outside LOST the home lane
is never FAULTY, and while LOST every attempt is on the home lane (R51). -/
def LanesOk (k : Link) : Prop :=
  (k.lost = true ↔ laneFaulty .x k ∧ laneFaulty .y k) ∧
  (k.lost = false → ¬ laneFaulty k.home k) ∧
  (k.lost = true → ∀ c, k.current = some c → c.lane = k.home)

/-- The lanes' invariant. -/
def LanesInv (s : State) : Prop := LanesOk s.link

/-- Every collection stays within the capacity its chapter gives: the transmit queue (R46), the notice queue (R174), the Own
Hit Queue (R31), the Hit Window (R78), the Pending Group List (R91), the Applied Event List (R110), the carry list (R145) and
the list of last accepted frames (R61). -/
def CapacityInv (s : State) : Prop :=
  s.link.queue.length ≤ queueCapacity ∧ s.port.notices.length ≤ noticeCapacity ∧
  s.channels.queue.length ≤ ownQueueCapacity ∧ s.coin.window.length ≤ windowCapacity ∧
  s.coin.pendingGroups.length ≤ pendingCapacity ∧ s.evid.applied.length ≤ appliedCapacity ∧
  s.agree.carry.length ≤ carryCapacity ∧ s.link.lastAccepted.length ≤ 4

/-- What always holds in a segment record (R115): the suspect-since cycle is present while the state is SUSPECT or CRACKED, the
cracked-since cycle while it is CRACKED, and an excluded record is clean. -/
def RecordOk (r : SegmentRecord) : Prop :=
  (r.suspectSince.isSome = true ↔ r.state = .suspect ∨ r.state = .cracked) ∧
  (r.crackedSince.isSome = true ↔ r.state = .cracked) ∧ (r.excluded = true → r = .clean true)

/-- Every record of the Segment Table, and every record an unfinished transfer has brought, is of that kind. -/
def SegmentsInv (s : State) : Prop :=
  (∀ r ∈ s.evid.table, RecordOk r) ∧
  (∀ donor cycle digest n last buffer, s.agree.transfer = .awaiting donor cycle digest n last buffer → ∀ r ∈ buffer, RecordOk r)

/-! ## Words of the statements -/

/-- The state after a step at `tag` that only enters phase `p`: the tracker's phase, and the channels that follow the phase's
listen setting (R16, R24). -/
def inPhase (p : Phase) (tag : Tag) (s : State) : State :=
  { s.withNow tag with
    tracker := { s.tracker with phase := p }
    channels := { s.channels with
      units := s.channels.units.map fun _ u => followListen (Block.listen s.block (phaseCode p) == 1 || s.windowOpen) u } }

/-- The command `cmd`, at `m`, ends the attempt of the current frame `c` with this cause (R49, R50). -/
def FailsNow (m : Moment) (c : CurrentFrame) (cmd : Instr) (cause : FailCause) : Prop :=
  (∃ d, c.attempt = .waiting d ∧ reached m.tag d = true ∧ cmd = .accessTimerExpiry m ∧ cause = .starved) ∨
  (∃ stamp, c.attempt = .transmitting stamp ∧ cmd = .echoMismatch m ∧ cause = .clash) ∨
  (∃ stamp i, c.attempt = .transmitting stamp ∧ cmd = .echoTimeout m i ∧ cause = if i = 0 then .mute else .clash)

/-- The lane that the retry settings give the next attempt, outside LOST (R51). -/
def settingLane (c : CurrentFrame) (b : List Byte) : Lane :=
  if (if c.retries = 0 then Block.firstRetryLane b else Block.secondRetryLane b) = 0 then c.lane else otherLane c.lane

/-- The command `cmd`, at `m`, brings the current frame `c` to its final outcome: SENT, or DROPPED with this last failure (R52). -/
def EndsNow (m : Moment) (s : State) (c : CurrentFrame) (cmd : Instr) (failure : Option FailCause) : Prop :=
  (failure = none ∧ (∃ stamp, c.attempt = .transmitting stamp) ∧ cmd = .attemptSent m) ∨
  (∃ cause, failure = some cause ∧ FailsNow m c cmd cause ∧ (c.noRetry = true ∨ Block.retryCount s.block ≤ c.retries))

/-- The command `cmd`, at `m`, closes the open cycle with this cause and these flags (R10 to R13). -/
def ClosesNow (m : Moment) (s : State) (cmd : Instr) (cause : CloseCause) (disordered abandoned : Bool) : Prop :=
  Sound m s ∧ s.atWork = true ∧ s.tracker.isOpen = true ∧ disordered = s.tracker.disordered ∧
  ((∃ d, s.tracker.settle = some d ∧ reached m.tag d = true ∧ cmd = .settleTimerExpiry m ∧ cause = .settle ∧
      abandoned = s.tracker.abandoned) ∨
   (cmd = .cycRising m ∧ cause = .cyc ∧ abandoned = (s.tracker.abandoned || beforeStrip s.tracker.phase)) ∨
   (∃ d, s.tracker.cycleTimer = .running d ∧ reached m.tag d = true ∧ s.tracker.phase ≠ .ret ∧
      cmd = .cycleTimerExpiry m ∧ cause = .cycleTimer ∧ abandoned = true))

/-- The frame handler takes this frame, of this kind and sender, and it goes on to the blocks of its kind: it is accepted, it is
no duplicate of the own number, and its sender is on record and neither ABSENT nor FOREIGN (R58 to R61, R69, R73). -/
def Handed (m : Moment) (s : State) (l : Lane) (f : RxFrame) (k : FrameKind) (st : Station) : Prop :=
  Sound m s ∧ s.atWork = true ∧ heldFrame s.link = some (l, f) ∧ acceptance (Block.histLen s.block) f = some (k, st) ∧
  (s.member.number = some st → f.own = true) ∧ (s.member.peers.get st).fingerprint ≠ none ∧
  ((s.member.peers.get st).state = .present ∨ (s.member.peers.get st).state = .missing ∨
    (s.member.peers.get st).state = .loggedOut)

/-- The station as such a frame finds it, its sender's record and the Link Unit apart: a peer's frame with a set cycle number has
made a JOINING station RUNNING first (R14, R66). -/
def frameFinds (m : Moment) (f : RxFrame) (st : Station) (s : State) : State :=
  match f.cycle with
  | some n =>
    if s.member.station = .joining ∧ s.member.number ≠ some st then
      adoptFirst n ((s.withNow m.tag).withMember { s.member with station := .running, joinTimer := none })
    else s.withNow m.tag
  | none => s.withNow m.tag

/-- The notice that a peer's frame raises when its sender was not PRESENT (R71). -/
def presentAgain (st : Station) (s : State) : List Notice :=
  if (s.member.peers.get st).state = .present then [] else [⟨s.tracker.cycle, stNo st, .peerState .present⟩]

/-- These notices are raised, in this order (R174). -/
def raiseAll (ns : List Notice) (s : State) : State := ns.foldl (fun t n => raise n t) s

/-- A SEGMENT STATE notice for every segment whose state or excluded flag differs, in segment order (R129). -/
def segmentNotices (cycle : Option CycleNo) (cause : SegCause) (old new : List SegmentRecord) : List Notice :=
  ((old.zip new).zipIdx).filterMap fun c =>
    if c.1.1.state = c.1.2.state ∧ c.1.1.excluded = c.1.2.excluded then none
    else some ⟨cycle, c.2 + 1, .segmentState c.1.2.state c.1.2.excluded cause⟩

/-- The table after a CONTROL: the records of the segments it selects are changed (R122 to R124). -/
def controlledTable (nSeg : Nat) (c : Control) (table : List SegmentRecord) : List SegmentRecord :=
  table.mapIdx fun i r => if i + 1 ∈ selectedSegments nSeg c.group c.mask then controlRecord c (i + 1) r else r

/-- The table after carried CONTROLs, one after the other, and the notices they raise on the way (R145, R146). -/
def carriedTable (nSeg : Nat) (cs : List Control) (table : List SegmentRecord) : List SegmentRecord :=
  cs.foldl (fun t c => controlledTable nSeg c t) table
def carriedNotices (nSeg : Nat) (cycle : Option CycleNo) : List Control → List SegmentRecord → List Notice
  | [], _ => []
  | c :: cs, table =>
    segmentNotices cycle (controlCause c) table (controlledTable nSeg c table)
      ++ carriedNotices nSeg cycle cs (controlledTable nSeg c table)

/-- The Agreement Unit after a transfer in AWAITING has been abandoned (R147). -/
def transferGone (a : Agreement) : Agreement :=
  { a with transfer := .idle, carry := [], carryOverflow := false
           counts := { a.counts with abandoned := min (a.counts.abandoned + 1) 65535 } }

/-- The payload of the first PRESENCE after a restart (R65, R76). -/
def firstPresence (s : State) : List Byte := be32 (s.member.fingerprint.getD 0) ++ [0, 0, 0, 0, 0, 0]

/-- The own record, and the Peer Table around it, as JOINING begins (R65, R68). -/
def peersAtStart (mem : Membership) : Eight PeerRecord :=
  match mem.number with
  | some n => (Eight.all PeerRecord.reset).set n { PeerRecord.reset with state := .present, fingerprint := mem.fingerprint }
  | none => .all .reset

/-- The flipped bits that a restart leaves: those of the configuration store, which it keeps (R64, R165). -/
def keptFlips (s : State) : List Upset := s.fault.flipped.filter fun u => match u.word with | .config _ => true | _ => false

/-- A configured station restarted at `tag`: every block at its reset values and at work in JOINING, with the configuration, the load
result and this fault record (R64, R65, R40, R63, R68, R76, R165, R172). The notice's cycle and subject: log entry 24. -/
def restarted (why : RestartCause) (record : FaultRecord) (tag : Tag) (s : State) : State :=
  { s.withNow tag with
    tracker := .reset
    channels := { Channels.reset with units := .all { ChannelUnit.reset with
      role := .listen, state := if Block.listen s.block 0 = 1 then .quiet else .hush, watch := .watching tag } }
    link := { Link.reset with
      queue := [⟨0, .presence, firstPresence s, tag⟩], nextRef := 1
      lanes := .all { LaneUnit.reset with idleFrom := (s.withNow tag).clock }
      current := some
        { ref := some 0, kind := .presence, payload := firstPresence s, cycle := none, lane := .x
          attempt := .waiting (tag + span (Block.accessTimeoutMs s.block * 1000)), retries := 0, lastFailure := none
          noRetry := false, unreported := false } }
    member := { Membership.reset with
      station := .joining, number := s.member.number, fingerprint := s.member.fingerprint, peers := peersAtStart s.member
      joinTimer := some (tag + span (Block.joinWindow100Ms s.block * 100000))
      presenceTimer := some (tag + span (Block.presence10Ms s.block * 10000)) }
    coin := .reset, evid := .reset (Block.nSeg s.block), agree := .reset, coup := .reset
    fault := { FaultUnit.reset with record := record, flipped := keptFlips s }
    port := { s.port with
      slot := s.port.slot.map slotAfterRestart, control := none, notices := [⟨none, s.ownNo, .restarted why⟩]
      stacked := List.replicate 12 0 } }

/-- The first word with a flipped bit among those of the configuration store that entry to JOINING reads: access timeout, join window,
presence period, listen setting of IDLE (R65, R161; log entry 7). -/
def joinFault (s : State) : Option Nat :=
  [0x10, 0x14, 0x15, 0x40].find? fun i => s.fault.flipped.any fun u => u.word == .config i

/-- The payload of LOGOUT part 1 for a fault that a block's read has found in the configuration store at `tag`, in IDLE with the cycle
number unset (R164, 12.2). -/
def joinLogout (tag : Tag) : List Byte := [1, 1, 1, 0xFF, 0xFF, 0] ++ be32 tag

/-- The restarted station has frozen again at once, entry to JOINING having found a parity fault in byte `i` of the configuration store
(R163): the channels are OFF, the first PRESENCE is flushed and LOGOUT part 1 requested and selected, the record is written afresh. -/
def refrozen (why : RestartCause) (record : FaultRecord) (tag : Tag) (i : Nat) (s : State) : State :=
  { restarted why record tag s with
    channels := .reset
    link := { (restarted why record tag s).link with
      queue := [⟨1, .logout, joinLogout tag, tag⟩], nextRef := 2
      current := some
        { ref := some 1, kind := .logout, payload := joinLogout tag, cycle := none, lane := .x
          attempt := .waiting (tag + span (Block.accessTimeoutMs s.block * 1000)), retries := 0, lastFailure := none
          noRetry := false, unreported := false } }
    member := { (restarted why record tag s).member with station := .frozen }
    fault := { FaultUnit.reset with
      flipped := keptFlips s, faultedWord := some (.config i), logout := some .part1, logoutTimer := some (tag + 100000)
      record := { kind := some .read, store := some .configuration, cycle := some none, phase := some .idle, tag := some tag
                  partsSent := 0, doubleFault := false, restarts := record.restarts } } }

/-- The state after a restart at `tag`: JOINING, or FROZEN again at once where entry to JOINING has found a parity fault. -/
def afterRestart (why : RestartCause) (record : FaultRecord) (tag : Tag) (s : State) : State :=
  match joinFault s with
  | none => restarted why record tag s
  | some i => refrozen why record tag i s

/-- A freezing store's word `w` is the one with a flipped bit, and it is not set aside (R161, R163). -/
def OnlyBad (m : Moment) (s : State) (w : StoreWord) : Prop :=
  m.upsets = [] ∧ s.resetHeld = false ∧ s.fault.flipped ≠ [] ∧ (∀ u ∈ s.fault.flipped, u.word = w) ∧
  s.fault.faultedWord ≠ some w

/-- What the request of a judgment makes of a channel (R38, R158). A mute request makes role and state MUTED, with the open hit, the floor
and the lockout gone; a channel that is OFF or of role PULSE does not take it. An unmute request makes a MUTED-role channel LISTEN;
its state follows the listen setting, unless a hit or a lockout holds it. -/
def askedUnit (listen : Bool) (ask : MuteRequest) (u : ChannelUnit) : ChannelUnit :=
  match ask with
  | .none => u
  | .mute =>
    if u.state = .off ∨ u.role = .pulse then u
    else { u with role := .muted, state := .muted, floorWindow := [], openHit := none, lockout := none, pulseTimer := none }
  | .unmute =>
    if u.role = .muted ∧ u.state ≠ .off then
      if u.state = .muted ∨ u.state = .quiet then
        { u with role := .listen, state := if listen then .quiet else .hush, floorWindow := [] }
      else { u with role := .listen }
    else u

/-- The Hit Window after such a request: the own hit open on a channel that takes a mute request leaves it (R35, R80). -/
def askedWindow (ask : MuteRequest) (id : Tag → HitId) (u : ChannelUnit) (window : List HitEntry) : List HitEntry :=
  match ask, u.openHit with
  | .mute, some h =>
    if u.state ≠ .off ∧ u.role ≠ .pulse ∧ h.kind = .own then window.filter fun e => e.id != id h.arrival else window
  | _, _ => window

/-- One own sensor's turn in the judgment of a window (R157, R158): if its reference pulser is the window's, its record is judged against
expected amplitude less coupling margin, a change of the record's state is noticed, and the channel is asked to mute or unmute. -/
def sensorJudged (w : PulseWindow) (s : State) (c : Channel) : State :=
  if Block.refPulser s.block (4 * (s.ownNo - 1) + chNo c) = stNo w.pulser then
    let old := s.coup.records.get c
    let pass := Block.expected s.block (4 * (s.ownNo - 1) + chNo c) - Block.couplingMargin s.block (4 * (s.ownNo - 1) + chNo c)
    let new := (judgeRecord pass (w.captures.get c) old).1
    let ask := (judgeRecord pass (w.captures.get c) old).2
    let u := s.channels.units.get c
    { s with
      coup := { s.coup with records := s.coup.records.set c new }
      port := (if new.state = old.state then s
        else raise ⟨s.tracker.cycle, packSensor s.ownNo (chNo c), .sensorState new.state⟩ s).port
      channels := { s.channels with units := s.channels.units.set c (askedUnit s.listening ask u) }
      coin := { s.coin with window := askedWindow ask (fun t => ⟨s.ownNo, chNo c, t⟩) u s.coin.window } }
  else s

/-- The judgment of a window (R156, R157): the window is gone, windows judged is raised, and the own sensors are judged, channel 1 first
(log entry 11). -/
def windowJudged (w : PulseWindow) (s : State) : State :=
  [Channel.c1, .c2, .c3, .c4].foldl (sensorJudged w)
    { s with coup := { s.coup with
      window := none, counts := { s.coup.counts with judged := min (s.coup.counts.judged + 1) 65535 } } }

/-- No pulse window waits to be judged. -/
def NoJudging (s : State) : Prop := ∀ w, s.coup.window = some w → w.stage ≠ .judging

/-- The slot does not wait for its channel. -/
def NoWaiting (s : State) : Prop := ∀ tag, s.coup.slot ≠ .waiting tag

/-! ## Layouts (12.2, 12.3)

`u8`, `u16`, `u24` and `u32` (Operands.lean) read a value of one to four bytes at an offset, most significant byte first (R177); bit 0 is the
least significant. A value wider than its bytes would lose its upper part; the counts and the codes are none. -/

/-- The frame of 12.2: sync, header, payload, and the CRC-16 of R43 over header and payload. -/
def FrameLayout (kind : FrameKind) (sender : Nat) (stamp : Tag) (cycle : Option CycleNo) (p r : List Byte) : Prop :=
  r.length = 13 + p.length ∧ u8 r 0 = 0xD5 ∧ u8 r 1 = 0x6B ∧ u8 r 2 = frameKindCode kind ∧ u8 r 3 = sender % 256 ∧
  u32 r 4 = stamp ∧ u16 r 8 = cycleValue cycle ∧ u8 r 10 = p.length % 256 ∧ slice r 11 p.length = p ∧
  u16 r (11 + p.length) = (crc16 (slice r 2 (9 + p.length))).toNat

/-- The HIT record of 12.2. -/
def HitLayout (h : HitRecord) (r : List Byte) : Prop :=
  r.length = 16 ∧ u8 r 0 = (h.station * 16 + h.channel) % 256 ∧ u32 r 1 = h.arrival ∧ u8 r 5 = h.features.peak % 256 ∧
  u16 r 6 = h.features.rise % 65536 ∧ u16 r 8 = h.features.duration % 65536 ∧ u16 r 10 = h.features.crossings % 65536 ∧
  u16 r 12 = h.features.energy % 65536 ∧ u8 r 14 = bit h.features.saturated + 2 * bit h.features.long ∧
  u8 r 15 = phaseCode h.phase

/-- The EVENT payload of 12.2. -/
def EventLayout (e : EventRecord) (r : List Byte) : Prop :=
  r.length = 12 + 6 * e.ids.length ∧ u16 r 0 = cycleValue e.cycle ∧ u8 r 2 = phaseCode e.phase + 16 * e.method.toNat ∧
  u8 r 3 = e.segment % 256 ∧ r.getD 4 0 = e.attrs ∧
  (1 ≤ e.hitCount → e.hitCount ≤ 16 → 1 ≤ e.sensorCount → e.sensorCount ≤ 16 →
    u8 r 5 / 16 + 1 = e.hitCount ∧ u8 r 5 % 16 + 1 = e.sensorCount) ∧
  u8 r 6 = e.peak % 256 ∧ u24 r 7 = e.energy % 16777216 ∧ u16 r 10 = e.longest % 65536 ∧
  ∀ i id, e.ids[i]? = some id →
    u8 r (12 + 6 * i) = id.station % 256 ∧ u8 r (13 + 6 * i) = id.channel % 256 ∧ u32 r (14 + 6 * i) = id.tag

/-- The PRESENCE payload of 12.2, made at a request (R76). -/
def PresenceLayout (s : State) (r : List Byte) : Prop :=
  r.length = 10 ∧ u32 r 0 = s.member.fingerprint.getD 0 ∧ u8 r 4 = phaseCode s.tracker.phase ∧
  u16 r 5 = s.evid.age % 65536 ∧ u8 r 7 = standingCode s.agree.standing ∧
  (∀ c, u8 r 8 / 4 ^ (chNo c - 1) % 4 = couplingCode (s.coup.records.get c).state) ∧
  u8 r 9 = healthCode (healthOf s.link.lanes.x.run) + 4 * healthCode (healthOf s.link.lanes.y.run)

/-- The segment record of 12.2, in 8 + 2H bytes: an absent field, and a history entry beyond the length, is sent as 0. -/
def SegmentLayout (hLen : Nat) (g : SegmentRecord) (r : List Byte) : Prop :=
  r.length = 8 + 2 * hLen ∧ u8 r 0 % 4 = segStateCode g.state ∧ (r.getD 0 0).getLsbD 2 = g.excluded ∧
  (r.getD 0 0).getLsbD 3 = g.suspectSince.isSome ∧ (r.getD 0 0).getLsbD 4 = g.crackedSince.isSome ∧ u8 r 0 < 32 ∧
  u16 r 1 = g.quietRun % 65536 ∧ u16 r 3 = (g.suspectSince.map cycleValue).getD 0 ∧
  u16 r 5 = (g.crackedSince.map cycleValue).getD 0 ∧ u8 r 7 = min g.history.length hLen % 256 ∧
  ∀ j, j < hLen →
    (∀ e, g.history[j]? = some e → u8 r (8 + 2 * j) = e.count % 256 ∧ r.getD (9 + 2 * j) 0 = e.phases) ∧
    (g.history[j]? = none → u8 r (8 + 2 * j) = 0 ∧ u8 r (9 + 2 * j) = 0)

/-- The ROW payload of 12.2. -/
def RowLayout (hLen : Nat) (row : RowFrame) (r : List Byte) : Prop :=
  r.length = 10 + row.records.length * (8 + 2 * hLen) ∧ u16 r 0 = cycleValue row.cycle ∧ u32 r 2 = row.digest ∧
  u16 r 6 = row.age % 65536 ∧ u8 r 8 = row.first % 256 ∧
  (row.count < 16 → u8 r 9 = row.count + 128 * bit row.last) ∧
  ∀ i g, row.records[i]? = some g → slice r (10 + i * (8 + 2 * hLen)) (8 + 2 * hLen) = segmentBytes hLen g

/-- The load result's four bytes in the status reply. -/
def LoadResultLayout (l : LoadResult) (r : List Byte) : Prop :=
  (l = .none → u8 r 10 = 0 ∧ u8 r 11 = 0 ∧ u16 r 12 = 0) ∧ (l = .passed → u8 r 10 = 1 ∧ u8 r 11 = 0 ∧ u16 r 12 = 0) ∧
  ∀ check index, l = .failed check index → u8 r 10 = 2 ∧ u8 r 11 = check % 256 ∧ u16 r 12 = index % 65536

/-- The two-byte counts of the status reply, offset 27 on: the Link Unit's, at 49 the Coincidence Unit's, at 69 the Evidence Unit's, at 85
the Agreement Unit's, at 103 the Coupling Unit's, at 115 the soft faults and the table age (R62, R97, R130, R148, R160). -/
def reportedCounts (s : State) : List Nat :=
  [s.link.sent, s.link.dropped, s.link.retriesBegun, s.link.lanes.x.broken, s.link.lanes.y.broken,
    s.link.lanes.x.rejected, s.link.lanes.y.rejected, s.link.lanes.x.overruns, s.link.lanes.y.overruns,
    s.link.lanes.x.accepted, s.link.lanes.y.accepted] ++
  [s.coin.counts.offCycle, s.coin.counts.malformed, s.coin.counts.duplicates, s.coin.counts.late, s.coin.counts.overflow,
    s.coin.counts.groupsDropped, s.coin.counts.published, s.coin.counts.eventsDropped, s.coin.counts.hitsDiscarded,
    s.coin.counts.groupsDiscarded] ++
  [s.evid.counts.applied, s.evid.counts.stale, s.evid.counts.duplicate, s.evid.counts.listFull, s.evid.counts.malformed,
    s.evid.counts.unfolded, s.evid.counts.controls, s.evid.counts.malformedControls] ++
  [s.agree.counts.decisions, s.agree.counts.cut, s.agree.counts.adoptions, s.agree.counts.digestsNotSent,
    s.agree.counts.rowsSent, s.agree.counts.aborted, s.agree.counts.rowsIgnored, s.agree.counts.completed,
    s.agree.counts.abandoned] ++
  [s.coup.counts.fired, s.coup.counts.skipped, s.coup.counts.judged, s.coup.counts.abandoned, s.coup.counts.ignored,
    s.coup.counts.peerHits] ++
  [s.fault.softFaults, s.evid.age]

/-- The status reply of 12.3. Between cycles the flags of the open cycle are those of the last one opened (log entry 44). -/
def StatusLayout (s : State) (r : List Byte) : Prop :=
  r.length = 119 ∧ u8 r 0 = stationStateCode s.member.station ∧ u8 r 1 = phaseCode s.tracker.phase ∧
  u16 r 2 = cycleValue s.tracker.cycle ∧ u16 r 4 = cycleValue s.tracker.lastClosed ∧
  (r.getD 6 0).getLsbD 0 = s.tracker.isOpen ∧ (r.getD 6 0).getLsbD 1 = s.tracker.disordered ∧
  (r.getD 6 0).getLsbD 2 = s.tracker.abandoned ∧ (r.getD 6 0).getLsbD 3 = s.tracker.lastDisordered ∧
  (r.getD 6 0).getLsbD 4 = s.tracker.lastAbandoned ∧ u8 r 6 < 32 ∧ u8 r 7 = standingCode s.agree.standing ∧
  u8 r 8 % 4 = healthCode (healthOf s.link.lanes.x.run) ∧ u8 r 8 / 4 % 4 = healthCode (healthOf s.link.lanes.y.run) ∧
  (r.getD 8 0).getLsbD 4 = decide (s.link.home = .y) ∧ (r.getD 8 0).getLsbD 5 = s.link.lost ∧ u8 r 8 < 64 ∧
  u8 r 9 = bit s.evid.warn + 2 * bit s.evid.stop ∧ LoadResultLayout s.port.loadResult r ∧
  (∀ c, u8 r (13 + chNo c) % 16 = channelStateCode (s.channels.units.get c).state ∧
    u8 r (13 + chNo c) / 16 = roleCode (s.channels.units.get c).role ∧
    u8 r (22 + chNo c) = (s.channels.units.get c).losses % 256) ∧
  u8 r 18 = s.port.notices.length % 256 ∧ u16 r 19 = s.tracker.stray % 65536 ∧ u16 r 21 = s.channels.lost % 65536 ∧
  ∀ k n, (reportedCounts s)[k]? = some n → u16 r (27 + 2 * k) = n % 65536

/-- The kind byte and the used detail bytes of a notice (12.1, 12.3). -/
def NoticeDetailLayout (d : NoticeDetail) (kind : Nat) (bs : List Byte) : Prop :=
  (∀ st ex c, d = .segmentState st ex c → kind = 1 ∧ bs = [byte (segStateCode st), byte (bit ex), byte (segCauseCode c)]) ∧
  (∀ n, d = .standing n → kind = 2 ∧ bs = [byte (standingCode n)]) ∧
  (∀ n, d = .peerState n → kind = 3 ∧ bs = [byte (peerStateCode n)]) ∧
  (∀ l e, d = .laneState l e → kind = 4 ∧ bs = [byte (laneCode l), byte (laneEventCode e)]) ∧
  (∀ n, d = .sensorState n → kind = 5 ∧ bs = [byte (couplingCode n)]) ∧
  (∀ ok c f n, d = .controlResult ok c f n → kind = 6 ∧ bs = [byte (if ok then 1 else 2), byte (controlKindCode c.kind),
    c.group, c.value, c.mask, byte (failCauseCode f), byte n]) ∧
  (d = .transfer .sent → kind = 7 ∧ bs = [1, 0]) ∧ (d = .transfer .aborted → kind = 7 ∧ bs = [2, 0]) ∧
  (d = .transfer .completed → kind = 7 ∧ bs = [3, 0]) ∧
  (∀ k, d = .transfer (.abandoned k) → kind = 7 ∧
    bs = [4, match k with | .order => 1 | .mismatch => 2 | .carry => 3 | .donor => 4 | .close => 5]) ∧
  (∀ l, d = .duplicateNumber l → kind = 8 ∧ bs = [byte (laneCode l)]) ∧
  (∀ lost, d = .sampleLoss lost → kind = 9 ∧ bs = [byte (if lost then 1 else 2)]) ∧
  (∀ c dis ab k, d = .cycleFlag c dis ab k → kind = 10 ∧ bs = [byte (cycleValue c / 256), byte (cycleValue c),
    byte (bit dis + 2 * bit ab), byte (closeCauseCode k)]) ∧
  (∀ k, d = .restarted k → kind = 11 ∧ bs = [byte (restartCauseCode k)]) ∧
  (∀ ns, d = .stacked ns → kind = 12 ∧ bs = (ns.take 12).map byte)

/-- The reply of NEXT NOTICE (12.3): the oldest notice, or, with none, 16 bytes of 0, of which the kind's says absent and the others are the
model's choice (log entry 45). -/
def NoticeLayout (notices : List Notice) (r : List Byte) : Prop :=
  r.length = 16 ∧ (notices = [] → r = List.replicate 16 0) ∧
  ∀ n rest, notices = n :: rest → u16 r 1 = cycleValue n.cycle ∧ u8 r 3 = n.subject % 256 ∧
    ∃ bs, NoticeDetailLayout n.detail (u8 r 0) bs ∧ r.drop 4 = bs ++ List.replicate (12 - bs.length) 0

/-- The peer record of 12.3. -/
def PeerLayout (p : PeerRecord) (r : List Byte) : Prop :=
  r.length = 77 ∧ u8 r 0 = peerStateCode p.state ∧
  (r.getD 1 0).getLsbD 0 = p.lastHeard.isSome ∧ (r.getD 1 0).getLsbD 1 = p.offset.isSome ∧
  (r.getD 1 0).getLsbD 2 = p.fingerprint.isSome ∧ (r.getD 1 0).getLsbD 3 = p.presence.isSome ∧
  (r.getD 1 0).getLsbD 4 = p.digest.isSome ∧ (r.getD 1 0).getLsbD 5 = p.logout.part1.isSome ∧
  (r.getD 1 0).getLsbD 6 = p.logout.part2.isSome ∧ (r.getD 1 0).getLsbD 7 = p.logout.part3.isSome ∧
  u32 r 2 = p.lastHeard.getD 0 ∧ u32 r 6 = p.offset.getD 0 ∧ u32 r 10 = p.fingerprint.getD 0 ∧
  (∀ c, p.presence = some c → r.getD 14 0 = c.phase ∧ u16 r 15 = c.age % 65536 ∧ r.getD 17 0 = c.standing ∧
    r.getD 18 0 = c.coupling ∧ r.getD 19 0 = c.lanes) ∧
  (p.presence = none → slice r 14 6 = List.replicate 6 0) ∧
  (∀ d, p.digest = some d → u16 r 20 = cycleValue d.cycle ∧ u32 r 22 = d.digest ∧ u16 r 26 = d.age % 65536 ∧
    r.getD 28 0 = d.standing ∧ slice r 29 14 = slice d.counts 0 14 ∧ u32 r 43 = d.arrival) ∧
  (p.digest = none → slice r 20 27 = List.replicate 27 0) ∧
  slice r 47 9 = slice (p.logout.part1.getD []) 0 9 ∧ slice r 56 9 = slice (p.logout.part2.getD []) 0 9 ∧
  slice r 65 8 = slice (p.logout.part3.getD []) 0 8 ∧ u16 r 73 = p.taken % 65536 ∧ u16 r 75 = p.heldBack % 65536

/-- The reply of READ COUPLING (12.3). -/
def CouplingLayout (s : State) (r : List Byte) : Prop :=
  r.length = 8 ∧ ∀ c, (s.coup.records.get c).misses < 4 →
    u8 r (2 * (chNo c - 1)) = couplingCode (s.coup.records.get c).state + 4 * bit (s.coup.records.get c).lastPeak.isSome
      + 16 * (s.coup.records.get c).misses ∧
    u8 r (2 * (chNo c - 1) + 1) = (s.coup.records.get c).lastPeak.getD 0 % 256

/-- The reply of READ FAULT (12.3). -/
def FaultLayout (f : FaultRecord) (r : List Byte) : Prop :=
  r.length = 13 ∧ (r.getD 0 0).getLsbD 0 = f.kind.isSome ∧ (r.getD 0 0).getLsbD 1 = f.store.isSome ∧
  (r.getD 0 0).getLsbD 2 = f.cycle.isSome ∧ (r.getD 0 0).getLsbD 3 = f.phase.isSome ∧
  (r.getD 0 0).getLsbD 4 = f.tag.isSome ∧ u8 r 0 < 32 ∧ u8 r 1 = (f.kind.map faultKindCode).getD 0 ∧
  u8 r 2 = (f.store.map storeCode).getD 0 ∧ u16 r 3 = (f.cycle.map cycleValue).getD 0 ∧
  u8 r 5 = (f.phase.map phaseCode).getD 0 ∧ u32 r 6 = f.tag.getD 0 ∧ u8 r 10 = f.partsSent % 256 ∧
  u8 r 11 = bit f.doubleFault ∧ u8 r 12 = f.restarts % 256

end Sys2Proof.Machine
end

