-- ==== Sys2Proof/Certificates/Slice0/Obligations.lean ====
section
/-! DEFINITION. The statements for the provers. `Sound m s` says that the RESET pin is not held and that no bit of a protected
store has flipped before or with the command, and `NoFaultToFind m s` allows the flipped bits of the word that a freeze has set aside,
which a FROZEN station keeps; the statements about faults say otherwise. `Handed`, `ClosesNow` and `EndsNow` say which
commands a statement covers (Safety.lean). A descriptor's `ref` and the link's `nextRef`, by which several statements name a
descriptor, are the model's own (log entry 8). -/

open Sys2Proof Sys2Proof.Machine

/-! ## The queue, reset -/

/-- A step runs the command at the front of the queue on the rest of the queue; on an empty queue the clock ticks, and the time tag with it, unless
the RESET pin is held (the tick is the model's choice, log entry 19). -/
def Obligations.StepRunsFrontCommand : Prop :=
  (∀ (c : Instr) (rest : List Instr) (s : State), s.pending = c :: rest → step s = exec c (s.withPending rest)) ∧
  (∀ s : State, s.pending = [] → s.resetHeld = false → step s = .next { s with clock := s.clock + 1 }) ∧
  (∀ s : State, s.pending = [] → s.resetHeld = true → step s = .next s) ∧
  (∀ s : State, State.now { s with clock := s.clock + 1 } = s.now + 1)

/-- Every command of the table answers a next state in every state, and leaves the queue of waiting commands alone. That no command of the
table ever stops the part is read from the manual, not stated in it (log entry 1). -/
def Obligations.EveryCommandCompletes : Prop :=
  ∀ (c : Instr) (s : State), ∃ t, exec c s = .next t ∧ t.pending = s.pending

/-- R176: the RESET pin holds the whole part at its power-on values, on which no other command has any effect; when it rises the
station waits; power-on does the same. The time tag's restart at 0 is the model's choice (log entry 9). -/
def Obligations.ResetReturnsPowerOnValues : Prop :=
  (∀ s : State, exec .reset s =
    .next { State.reset with resetHeld := true, freeCount := s.freeCount, pending := s.pending }) ∧
  (∀ s : State, exec .powerOn s =
    .next { State.reset with resetHeld := false, freeCount := s.freeCount, pending := s.pending }) ∧
  (∀ s : State, exec .resetRelease s = .next { s with resetHeld := false }) ∧
  (∀ (c : Instr) (s : State), s.resetHeld = true → c ≠ .reset → c ≠ .powerOn → c ≠ .resetRelease → exec c s = .next s) ∧
  (State.reset.member.station = .unconfigured ∧ State.reset.port.config = none ∧ State.reset.port.notices = [] ∧
    State.reset.port.slot = none ∧ State.reset.fault.record = .reset ∧ State.reset.evid.warn = false ∧
    State.reset.evid.stop = false ∧ State.reset.noticeLine = false ∧ State.reset.link.current = none ∧
    ∀ ch, State.reset.pulseDrive ch = false)

/-! ## The press cycle -/

/-- R3, R9, R11, R13, R153, R159: a rising edge of CYC, in any phase, closes an open cycle early and starts the next one; it ends the
station's slot and abandons the pulse window. -/
def Obligations.CycRisingStartsCycle : Prop :=
  (∀ (m : Moment) (s : State), Sound m s → s.atWork = true → ∃ t, exec (.cycRising m) s = .next t ∧
    t.tracker.phase = .feed ∧ t.tracker.settle = none ∧ t.tracker.stray = s.tracker.stray ∧
    t.tracker.cycleTimer = .running (m.tag + span (Block.maxCycle100Ms s.block * 100000)) ∧
    t.tracker.cycle = s.tracker.cycle.map (· + 1) ∧
    (s.tracker.cycle.isSome = true →
      t.tracker.isOpen = true ∧ t.tracker.disordered = false ∧ t.tracker.abandoned = false) ∧
    (s.tracker.cycle = none → t.tracker.isOpen = false) ∧
    (s.tracker.isOpen = false → t.tracker.lastClosed = s.tracker.lastClosed ∧
      t.tracker.lastDisordered = s.tracker.lastDisordered ∧ t.tracker.lastAbandoned = s.tracker.lastAbandoned) ∧
    (s.tracker.isOpen = true → t.tracker.lastClosed = s.tracker.cycle ∧ t.tracker.lastDisordered = s.tracker.disordered ∧
      t.tracker.lastAbandoned = (s.tracker.abandoned || beforeStrip s.tracker.phase)) ∧
    (s.tracker.isOpen = true → s.port.notices.length < 32 →
      (s.tracker.disordered || s.tracker.abandoned || beforeStrip s.tracker.phase) = true →
      (⟨s.tracker.cycle, s.ownNo, .cycleFlag s.tracker.cycle s.tracker.disordered
        (s.tracker.abandoned || beforeStrip s.tracker.phase) .cyc⟩ : Notice) ∈ t.port.notices) ∧
    t.coup = { s.coup with
      slot := if s.coup.slot = .firing then .firing else .none
      window := none
      counts := { s.coup.counts with
        skipped := if s.coup.slot = .none ∨ s.coup.slot = .firing then s.coup.counts.skipped
          else min (s.coup.counts.skipped + 1) 65535
        abandoned := if s.coup.window = none then s.coup.counts.abandoned else min (s.coup.counts.abandoned + 1) 65535 } } ∧
    (∀ r, s.coup.slot = .queued r → (∀ c, t.link.current = some c → c.ref ≠ some r) → ∀ d ∈ t.link.queue, d.ref ≠ r) ∧
    (∀ ch, (∃ r, s.coup.slot = .queued r) ∨ (∃ fire, s.coup.slot = .announced fire) → pulseChannel s = some ch →
      (s.channels.units.get ch).role = .pulse → (s.channels.units.get ch).state = .hush →
      (s.coup.records.get ch).state ≠ .dead → (t.channels.units.get ch).role = .listen ∧
        (t.channels.units.get ch).state = if Block.listen s.block 1 = 1 then .quiet else .hush) ∧
    (∀ ch, (s.channels.units.get ch).role = .listen →
      (s.channels.units.get ch).state = .quiet ∨ (s.channels.units.get ch).state = .hush →
      (t.channels.units.get ch).role = .listen ∧
        (t.channels.units.get ch).state = if Block.listen s.block 1 = 1 then .quiet else .hush) ∧
    t.member = s.member ∧ t.port.config = s.port.config ∧ t.now = m.tag) ∧
  (∀ p, beforeStrip p = true ↔ p = .feed ∨ p = .fill1 ∨ p = .shake1 ∨ p = .fill2 ∨ p = .shake2) ∧
  ((65534 : CycleNo) + 1 = 0)

/-- R4: the fill and shake edges change the phase alone. -/
def Obligations.FillAndShakeEdgesMovePhase : Prop :=
  ∀ (m : Moment) (s : State), Sound m s → s.atWork = true →
    (s.tracker.phase = .feed → exec (.filRising m) s = .next (inPhase .fill1 m.tag s)) ∧
    (s.tracker.phase = .shake1 → exec (.filRising m) s = .next (inPhase .fill2 m.tag s)) ∧
    (s.tracker.phase = .fill1 → Block.doubleFill s.block = 1 →
      exec (.vibRising m) s = .next (inPhase .shake1 m.tag s)) ∧
    (s.tracker.phase = .fill1 → Block.doubleFill s.block ≠ 1 →
      exec (.vibRising m) s = .next (inPhase .shake2 m.tag s)) ∧
    (s.tracker.phase = .fill2 → exec (.vibRising m) s = .next (inPhase .shake2 m.tag s)) ∧
    (s.tracker.phase = .shake2 → exec (.filRising m) s =
      .next { s.withNow m.tag with tracker := { s.tracker with stray := min (s.tracker.stray + 1) 65535 } })

/-- R1, R7: an edge that has no transition in the current phase raises the stray edge count and changes nothing else; outside JOINING and
RUNNING the tracker takes no edges and counts none, whatever bits have flipped. -/
def Obligations.StrayEdgesAreOnlyCounted : Prop :=
  (∀ (m : Moment) (s : State) (c : Instr), Sound m s → s.atWork = true →
    ((c = .filRising m ∧ s.tracker.phase ≠ .feed ∧ s.tracker.phase ≠ .shake1) ∨
     (c = .vibRising m ∧ s.tracker.phase ≠ .fill1 ∧ s.tracker.phase ≠ .fill2) ∨
     (c = .strRising m ∧ (s.tracker.phase = .idle ∨ s.tracker.phase = .strip ∨ s.tracker.phase = .ret)) ∨
     (c = .strFalling m ∧ s.tracker.phase ≠ .strip)) →
    exec c s = .next { s.withNow m.tag with tracker := { s.tracker with stray := min (s.tracker.stray + 1) 65535 } }) ∧
  (∀ (m : Moment) (s : State) (c : Instr), m.upsets = [] → s.resetHeld = false →
    s.member.station = .unconfigured ∨ s.member.station = .configured ∨ s.member.station = .frozen →
    c = .cycRising m ∨ c = .filRising m ∨ c = .vibRising m ∨ c = .strRising m ∨ c = .strFalling m →
    exec c s = .next (s.withNow m.tag))

/-- R5, R6, R150: STR rising makes the phase STRIP, and before SHAKE-2 flags an open cycle DISORDERED; STR falling in STRIP makes the phase
RETURN, starts the settle timer of an open cycle, and places the slot of a station whose check falls in this RETURN. -/
def Obligations.StrEdgesEnterStripAndReturn : Prop :=
  (∀ (m : Moment) (s : State), Sound m s → s.atWork = true →
    (s.tracker.phase = .shake2 → exec (.strRising m) s = .next (inPhase .strip m.tag s)) ∧
    (s.tracker.phase = .feed ∨ s.tracker.phase = .fill1 ∨ s.tracker.phase = .shake1 ∨ s.tracker.phase = .fill2 →
      exec (.strRising m) s = .next (inPhase .strip m.tag
        { s with tracker := { s.tracker with disordered := s.tracker.disordered || s.tracker.isOpen } }))) ∧
  (∀ (m : Moment) (s : State), Sound m s → s.atWork = true → s.tracker.phase = .strip →
    ∃ t, exec (.strFalling m) s = .next t ∧
      t = { inPhase .ret m.tag s with
        tracker := { s.tracker with
          phase := .ret
          settle := if s.tracker.isOpen then some (m.tag + span (Block.closeDelayMs s.block * 1000)) else s.tracker.settle }
        coup := t.coup } ∧
      (s.member.station ≠ .running ∨ Block.checkPeriod s.block = 0 ∨ Block.pulseChannel s.block s.ownNo = 0 ∨
          s.tracker.cycle = none → t.coup = s.coup) ∧
      (∀ c, s.tracker.cycle = some c → c.val % Block.checkPeriod s.block ≠ 0 → t.coup = s.coup) ∧
      (∀ c, s.member.station = .running → Block.checkPeriod s.block ≠ 0 → Block.pulseChannel s.block s.ownNo ≠ 0 →
        s.tracker.cycle = some c → c.val % Block.checkPeriod s.block = 0 →
        t.coup = if s.coup.slot = .firing then
            { s.coup with counts := { s.coup.counts with skipped := min (s.coup.counts.skipped + 1) 65535 } }
          else { s.coup with slot := .placed (m.tag + span (s.ownNo * (Block.pulseSpacingMs s.block * 1000))) }))

/-- R10, R13: the settle timer's expiry closes the open cycle; the phase stays RETURN unless the cycle timer left its mark. -/
def Obligations.SettleExpiryClosesCycle : Prop :=
  ∀ (m : Moment) (s : State) (d : Tag), Sound m s → s.atWork = true → s.tracker.isOpen = true →
    s.tracker.settle = some d → reached m.tag d = true → ∃ t, exec (.settleTimerExpiry m) s = .next t ∧
      t.tracker = { s.tracker with
        isOpen := false, settle := none, lastClosed := s.tracker.cycle, lastDisordered := s.tracker.disordered
        lastAbandoned := s.tracker.abandoned
        phase := if s.tracker.cycleTimer = .expiredInReturn then .idle else s.tracker.phase
        cycleTimer := if s.tracker.cycleTimer = .expiredInReturn then .stopped else s.tracker.cycleTimer } ∧
      ((s.tracker.disordered || s.tracker.abandoned) = true → s.port.notices.length < 32 →
        (⟨s.tracker.cycle, s.ownNo, .cycleFlag s.tracker.cycle s.tracker.disordered s.tracker.abandoned .settle⟩ : Notice)
          ∈ t.port.notices) ∧
      t.coin.window = [] ∧ t.coin.horizon = none ∧ t.coin.pendingGroups = [] ∧
      t.member.station = s.member.station ∧ t.port.config = s.port.config ∧ t.now = m.tag

/-- R12, R13: what the cycle timer's expiry does in each situation. -/
def Obligations.CycleTimerExpiryEndsCycle : Prop :=
  ∀ (m : Moment) (s : State) (d : Tag), Sound m s → s.atWork = true →
    s.tracker.cycleTimer = .running d → reached m.tag d = true →
      (s.tracker.isOpen = true → s.tracker.phase = .ret → exec (.cycleTimerExpiry m) s =
        .next { s.withNow m.tag with tracker := { s.tracker with cycleTimer := .expiredInReturn } }) ∧
      (s.tracker.isOpen = false → exec (.cycleTimerExpiry m) s =
        .next (inPhase .idle m.tag { s with tracker := { s.tracker with cycleTimer := .stopped } })) ∧
      (s.tracker.isOpen = true → s.tracker.phase ≠ .ret → ∃ t, exec (.cycleTimerExpiry m) s = .next t ∧
        t.tracker = { s.tracker with
          phase := .idle, cycleTimer := .stopped, isOpen := false, settle := none, abandoned := true
          lastClosed := s.tracker.cycle, lastDisordered := s.tracker.disordered, lastAbandoned := true } ∧
        (s.port.notices.length < 32 →
          (⟨s.tracker.cycle, s.ownNo, .cycleFlag s.tracker.cycle s.tracker.disordered true .cycleTimer⟩ : Notice)
            ∈ t.port.notices) ∧
        t.member.station = s.member.station ∧ t.port.config = s.port.config ∧ t.now = m.tag)

/-- R116 to R121, R129, R13: what each of the three closes does to the Segment Table, the Applied Event List and the outputs. A NORMAL
close folds every segment with the qualifying events placed on it, raises the table age and derives the outputs again; another
only counts its events unfolded. The notices are raised in this order: the cycle flag, the changed segments, an abandoned transfer
(between blocks the model's choice, log entry 11). -/
def Obligations.ClosesFoldTheTable : Prop :=
  (∀ (m : Moment) (s : State) (cmd : Instr) (cause : CloseCause) (dis ab : Bool), ClosesNow m s cmd cause dis ab →
    ∃ t, exec cmd s = .next t ∧ t.evid.applied = [] ∧ t.evid.hold = s.evid.hold ∧
      t.port = (raiseAll
        ((if dis = false ∧ ab = false then []
            else [⟨s.tracker.cycle, s.ownNo, .cycleFlag s.tracker.cycle dis ab cause⟩]) ++
          segmentNotices s.tracker.cycle .fold s.evid.table t.evid.table ++
          (match s.agree.transfer with
            | .awaiting donor _ _ _ _ _ => [⟨s.tracker.cycle, stNo donor, .transfer (.abandoned .close)⟩]
            | _ => [])) s).port ∧
      (dis = false → ab = false →
        t.evid.table = (s.evid.table.mapIdx fun i r =>
          foldRecord s.block s.tracker.cycle (entriesOn s.block s.evid.applied (i + 1)) r) ∧
        t.evid.age = min (s.evid.age + 1) 65535 ∧ t.evid.counts = s.evid.counts ∧
        (s.agree.standing ≠ .outOfStep → t.evid.warn = (setOutputs t).evid.warn ∧ t.evid.stop = (setOutputs t).evid.stop) ∧
        (s.agree.standing = .outOfStep → t.evid.warn = s.evid.warn ∧ t.evid.stop = s.evid.stop)) ∧
      (dis = true ∨ ab = true → t.evid = { s.evid with
        applied := []
        counts := { s.evid.counts with
          unfolded := min (s.evid.counts.unfolded + s.evid.applied.length) 65535 } })) ∧
  (∀ (b : List Byte) (list : List AppliedEvent) (n : Nat) (a : AppliedEvent),
    (entriesOn b list n).Sublist list ∧
    (a ∈ entriesOn b list n ↔ a ∈ list ∧ a.event.segment = n ∧ Block.evidential b (phaseCode a.event.phase) = 1 ∧
      ∀ i, i < 8 → a.event.attrs.getLsbD i = true → (Block.mask b (phaseCode a.event.phase)).testBit i = true))

/-- R47, R132 to R135, R145, R147: what each of the three closes does in the Agreement Unit: the previous window is cut, a transfer ends,
the carry list empties, the snapshot is taken of the table the close has left, its digest goes out in a DIGEST frame, or is counted
not sent, and the digest window starts. The DIGEST carries the standing of the previous decision. That descriptors are withdrawn before the next is
selected is the model's choice (log entry 13). -/
def Obligations.ClosesTakeSnapshotAndDigest : Prop :=
  ∀ (m : Moment) (s : State) (cmd : Instr) (cause : CloseCause) (dis ab : Bool) (kept : List Descriptor) (digest : BitVec 32),
    ClosesNow m s cmd cause dis ab →
    kept = s.link.queue.filter (fun d =>
      (match s.link.current with
        | some c => c.ref == some d.ref && !(c.kind == .hit && (match c.attempt with | .waiting _ => true | _ => false))
        | none => false) ||
      !(s.coin.ownerRefs.contains d.ref || s.coin.pendingGroups.any (fun p => p.publication == .queued d.ref) ||
        (match s.agree.transfer with | .sending _ (.row r _) => r == d.ref | _ => false))) →
    ∃ t, exec cmd s = .next t ∧
      (digest = digestOf (Block.histLen s.block) s.tracker.cycle t.evid.age t.evid.table →
        t.agree = { s.agree with
          snapshot := some ⟨s.tracker.cycle, t.evid.age, t.evid.table⟩, ownDigest := some digest
          window := some ⟨m.tag + span (Block.digestWindow10Ms s.block * 10000), m.tag⟩
          transfer := .idle, carry := [], carryOverflow := false
          counts := { s.agree.counts with
            cut := if s.agree.window = none then s.agree.counts.cut else min (s.agree.counts.cut + 1) 65535
            abandoned := match s.agree.transfer with
              | .awaiting .. => min (s.agree.counts.abandoned + 1) 65535
              | _ => s.agree.counts.abandoned
            digestsNotSent := if kept.length < 12 then s.agree.counts.digestsNotSent
              else min (s.agree.counts.digestsNotSent + 1) 65535 } } ∧
        t.link.queue = (kept ++ (if kept.length < 12 then [Descriptor.mk s.link.nextRef .digest
            (be16 (cycleValue s.tracker.cycle) ++ be32 digest ++ be16 t.evid.age ++ [byte (standingCode s.agree.decided)] ++
              be16 t.evid.counts.applied ++ be16 t.evid.counts.stale ++ be16 t.evid.counts.duplicate ++
              be16 t.coin.counts.late ++ be16 t.channels.lost ++ be16 t.link.dropped ++ be16 t.overrunSum) m.tag]
          else [])).filter fun d =>
            !(cause == .cyc && s.coup.slot == .queued d.ref &&
              !(match t.link.current with | some c => c.ref == some d.ref | none => false)))

/-- R13, R29, R31, R53, R95: what each of the three closes does to the hits of the cycle: the coincidence state is discarded and counted,
the Own Hit Queue empties, an open hit of the cycle is told that its cycle has closed, and a current HIT frame finishes its attempt without a
retry, or is DROPPED while it waits. That the Own Hit Queue is empty before the next frame is selected, so that a waiting HIT frame is
dropped and no further HIT frame of the closed cycle is selected, or dropped, in the step, is the model's choice (log entry 13, DESIGN
CHOICE). -/
def Obligations.ClosesDiscardTheCycle : Prop :=
  ∀ (m : Moment) (s : State) (cmd : Instr) (cause : CloseCause) (dis ab : Bool), ClosesNow m s cmd cause dis ab →
    ∃ t, exec cmd s = .next t ∧
      t.coin = { s.coin with
        window := [], horizon := none, pendingGroups := [], ownerRefs := []
        counts := { s.coin.counts with
          hitsDiscarded := min (s.coin.counts.hitsDiscarded + s.coin.window.length) 65535
          groupsDiscarded := min (s.coin.counts.groupsDiscarded + s.coin.pendingGroups.length) 65535 } } ∧
      t.channels.queue = [] ∧ t.channels.detected = s.channels.detected ∧ t.channels.lost = s.channels.lost ∧
      (∀ ch h, (s.channels.units.get ch).state = .inHit → (s.channels.units.get ch).openHit = some h →
        t.channels.units.get ch = { s.channels.units.get ch with openHit := some { h with cycleGone := true } }) ∧
      (∀ c, s.link.current = some c → c.kind ≠ .hit → t.link.current = some c ∧ t.link.dropped = s.link.dropped) ∧
      (∀ c stamp, s.link.current = some c → c.kind = .hit → c.attempt = .transmitting stamp →
        t.link.current = some { c with noRetry := true } ∧ t.link.dropped = s.link.dropped) ∧
      (∀ c due, s.link.current = some c → c.kind = .hit → c.attempt = .waiting due →
        (∀ c', t.link.current = some c' → c'.ref ≠ none) ∧ t.link.dropped = min (s.link.dropped + 1) 65535) ∧
      t.tracker.cycle = (if cause = .cyc then s.tracker.cycle.map (· + 1) else s.tracker.cycle) ∧
      t.tracker.lastClosed = s.tracker.cycle ∧ t.tracker.lastDisordered = dis ∧ t.tracker.lastAbandoned = ab ∧
      t.member = s.member ∧ t.fault.record = s.fault.record

/-! ## Sensor channels and hits -/

/-- R20 to R22: the amplitude is the whole part of twenty times the common logarithm of the envelope, clamped to 0 to 90; which samples are
saturated; the noise floor is unset until the window is full, then the whole part of twenty times the common logarithm of the mean envelope,
clamped so, and 0 when the mean is below 1; the threshold is the larger of the absolute threshold and the floor plus
the margin of the current phase, and the threshold level the smallest envelope that reaches it. -/
def Obligations.AmplitudeAndThreshold : Prop :=
  ((∀ v : Half, envelope v ≤ 32768 ∧ (v.toInt = envelope v ∨ v.toInt = -(envelope v : Int))) ∧
  amplitude 0 = 0 ∧
  (∀ e : Nat, 1 ≤ e → e ≤ 32768 → amplitude e ≤ 90 ∧ 10 ^ amplitude e ≤ e ^ 20 ∧ e ^ 20 < 10 ^ (amplitude e + 1)) ∧
  (∀ v : Half, isSaturated (envelope v) = true ↔ v.toInt = 32767 ∨ v.toInt = -32767 ∨ v.toInt = -32768)) ∧
  ((∀ w : List Nat, w.length < 32000 → noiseFloor w = none) ∧
  (∀ w : List Nat, 32000 ≤ w.length → ∃ f, noiseFloor w = some f ∧ f ≤ 90 ∧ (w.sum < w.length → f = 0) ∧
    (w.length ≤ w.sum → 10 ^ f * w.length ^ 20 ≤ w.sum ^ 20 ∧ (f = 90 ∨ w.sum ^ 20 < 10 ^ (f + 1) * w.length ^ 20))) ∧
  (∀ (s : State) (u : ChannelUnit), noiseFloor u.floorWindow = none →
    s.threshold u = Block.absolute s.block (phaseCode s.tracker.phase)) ∧
  (∀ (s : State) (u : ChannelUnit) (f : Nat), noiseFloor u.floorWindow = some f →
    s.threshold u = max (Block.absolute s.block (phaseCode s.tracker.phase))
      (f + Block.margin s.block (phaseCode s.tracker.phase)))) ∧
  (∀ th : Nat, 1 ≤ th → th ≤ 90 → th ≤ amplitude (thresholdLevel th) ∧ ∀ e, e < thresholdLevel th → amplitude e < th)

/-- R22, R25, R26, R79, R155: the first sample at or above the threshold in QUIET opens a hit: a capture in an open pulse window, the first of its
channel kept, an own hit while RUNNING with a cycle open, else a local hit. The sample itself is in the floor window before the test (log
entry 21). -/
def Obligations.SampleAtThresholdOpensHit : Prop :=
  ∀ (m : Moment) (s : State) (ch : Channel) (v : Half), Sound m s → s.atWork = true →
    (s.channels.units.get ch).state = .quiet →
    s.threshold (noteSample m.tag (envelope v) (s.channels.units.get ch)) ≤ amplitude (envelope v) →
    ∃ t h, exec (.sample m ch v) s = .next t ∧
      (t.channels.units.get ch).state = .inHit ∧ (t.channels.units.get ch).openHit = some h ∧
      h.arrival = m.tag ∧ h.phase = s.tracker.phase ∧ h.peak = amplitude (envelope v) ∧ h.peakTag = m.tag ∧
      h.threshold = s.threshold (noteSample m.tag (envelope v) (s.channels.units.get ch)) ∧
      h.crossings = 1 ∧ h.lastCrossing = m.tag ∧ h.saturated = isSaturated (envelope v) ∧
      h.level = thresholdLevel h.threshold ∧ h.energySum = envelope v - h.level ∧ h.below = false ∧ h.cycleGone = false ∧
      h.kind = (if s.windowOpen then .capture
        else if s.member.station = .running ∧ s.tracker.isOpen = true then .own else .localHit) ∧
      t.channels.detected = (if s.windowOpen then s.channels.detected else min (s.channels.detected + 1) 65535) ∧
      (h.kind = .own → s.coin.window.length < 64 →
        (⟨⟨s.ownNo, chNo ch, m.tag⟩, m.tag, s.tracker.phase, none, true⟩ : HitEntry) ∈ t.coin.window) ∧
      (h.kind = .own → 64 ≤ s.coin.window.length → t.coin.window = s.coin.window ∧
        t.coin.counts.overflow = min (s.coin.counts.overflow + 1) 65535) ∧
      (h.kind ≠ .own → t.coin = s.coin) ∧
      (∀ w, h.kind = .capture → s.coup.window = some w → t.coup = { s.coup with
        window := some { w with
          captures := if w.captures.get ch = .none then w.captures.set ch (.started m.tag) else w.captures } }) ∧
      (h.kind ≠ .capture → t.coup = s.coup) ∧
      (∀ d, d ≠ ch → t.channels.units.get d = s.channels.units.get d) ∧
      t.channels.queue = s.channels.queue ∧ t.channels.lost = s.channels.lost ∧
      t.tracker = s.tracker ∧ t.link = s.link ∧ t.member = s.member ∧ t.evid = s.evid ∧ t.agree = s.agree ∧
      t.fault = s.fault ∧ t.port = s.port

/-- R20, R21, R25 to R27: a sample that finds its channel in no hit and starts none only enters the channel's watch and floor window (the floor
sample of a threshold test before it: log entry 21); what a sample that does not end an open hit does to its measures. -/
def Obligations.SamplesNotedAndMeasured : Prop :=
  (∀ (m : Moment) (s : State) (ch : Channel) (v : Half), Sound m s → s.atWork = true →
    (((s.channels.units.get ch).state = .quiet ∧
        amplitude (envelope v) < s.threshold (noteSample m.tag (envelope v) (s.channels.units.get ch))) ∨
      ((s.channels.units.get ch).state ≠ .quiet ∧ (s.channels.units.get ch).state ≠ .inHit)) →
    exec (.sample m ch v) s = .next { s.withNow m.tag with
      channels := { s.channels with units := s.channels.units.set ch { s.channels.units.get ch with
        watch := watchSample m.tag (s.channels.units.get ch).watch
        floorWindow := if isFloorSample (s.channels.units.get ch) then
            (envelope v :: (s.channels.units.get ch).floorWindow).take 32000
          else (s.channels.units.get ch).floorWindow } } }) ∧
  (∀ (m : Moment) (s : State) (ch : Channel) (v : Half) (h : OpenHit), Sound m s → s.atWork = true →
    (s.channels.units.get ch).state = .inHit → (s.channels.units.get ch).openHit = some h →
    elapsed m.tag h.arrival < Block.hitCapMs s.block * 1000 →
    (h.threshold ≤ amplitude (envelope v) ∨ elapsed m.tag h.lastCrossing < Block.hdt s.block) →
    ∃ h', exec (.sample m ch v) s = .next { s.withNow m.tag with
        channels := { s.channels with units := s.channels.units.set ch { s.channels.units.get ch with
          watch := watchSample m.tag (s.channels.units.get ch).watch, openHit := some h' } } } ∧
      h' = { h with peak := h'.peak, peakTag := h'.peakTag, crossings := h'.crossings, lastCrossing := h'.lastCrossing
                    below := h'.below, energySum := h'.energySum, saturated := h'.saturated } ∧
      (elapsed m.tag h.arrival ≤ Block.pdt s.block → h.peak < amplitude (envelope v) →
        h'.peak = amplitude (envelope v) ∧ h'.peakTag = m.tag) ∧
      (Block.pdt s.block < elapsed m.tag h.arrival ∨ amplitude (envelope v) ≤ h.peak →
        h'.peak = h.peak ∧ h'.peakTag = h.peakTag) ∧
      (h.below = true → h.threshold ≤ amplitude (envelope v) →
        h'.crossings = min (h.crossings + 1) 4095 ∧ h'.lastCrossing = m.tag) ∧
      (h.below = false ∨ amplitude (envelope v) < h.threshold →
        h'.crossings = h.crossings ∧ h'.lastCrossing = h.lastCrossing) ∧
      (h'.below = true ↔ amplitude (envelope v) < h.threshold) ∧
      h'.energySum = h.energySum + (envelope v - h.level) ∧ h'.saturated = (h.saturated || isSaturated (envelope v)))

/-- R28, R29, R30, R31: the sample that reaches the quiet end or the cap ends the hit: the channel enters LOCKOUT, and the hit's
record goes where its kind sends it. -/
def Obligations.SampleEndsHit : Prop :=
  ∀ (m : Moment) (s : State) (ch : Channel) (v : Half) (h : OpenHit) (u : ChannelUnit) (f : Features), Sound m s →
    s.atWork = true → (s.channels.units.get ch).state = .inHit → (s.channels.units.get ch).openHit = some h →
    (Block.hitCapMs s.block * 1000 ≤ elapsed m.tag h.arrival ∨
      (amplitude (envelope v) < h.threshold ∧ Block.hdt s.block ≤ elapsed m.tag h.lastCrossing)) →
    u = { s.channels.units.get ch with
      watch := watchSample m.tag (s.channels.units.get ch).watch, state := .lockout, openHit := none
      lockout := some (m.tag + span (Block.hlt s.block)) } →
    f = { peak := h.peak, rise := elapsed h.peakTag h.arrival, duration := elapsed h.lastCrossing h.arrival
          crossings := h.crossings, energy := min (h.energySum / 4096) 65535, saturated := h.saturated
          long := decide (Block.hitCapMs s.block * 1000 ≤ elapsed m.tag h.arrival) } →
    (h.kind = .localHit ∨ (h.kind = .capture ∧ s.coup.window = none) → exec (.sample m ch v) s =
      .next { s.withNow m.tag with channels := { s.channels with units := s.channels.units.set ch u } }) ∧
    (∀ w, h.kind = .capture → s.coup.window = some w → w.stage = .isOpen → w.captures.get ch = .started h.arrival →
      exec (.sample m ch v) s = .next { s.withNow m.tag with
        channels := { s.channels with units := s.channels.units.set ch u }
        coup := { s.coup with window := some { w with captures := w.captures.set ch (.peaked h.peak) } } }) ∧
    (h.kind = .own → h.cycleGone = false → s.channels.queue.length < 16 → s.link.current.isSome = true →
      exec (.sample m ch v) s = .next { s.withNow m.tag with
        channels := { s.channels with
          units := s.channels.units.set ch u
          queue := s.channels.queue ++ [⟨⟨s.ownNo, chNo ch, h.arrival, h.phase, f⟩, m.tag⟩] }
        coin := { s.coin with window := s.coin.window.map fun e =>
          if e.id = ⟨s.ownNo, chNo ch, h.arrival⟩ then { e with features := some f } else e } }) ∧
    (h.kind = .own → h.cycleGone = false → 16 ≤ s.channels.queue.length → exec (.sample m ch v) s = .next { s.withNow m.tag with
        channels := { s.channels with
          units := s.channels.units.set ch u, lost := min (s.channels.lost + 1) 65535 }
        coin := { s.coin with window := s.coin.window.filter fun e => e.id != ⟨s.ownNo, chNo ch, h.arrival⟩ } }) ∧
    (h.kind = .own → h.cycleGone = true → exec (.sample m ch v) s = .next { s.withNow m.tag with
        channels := { s.channels with units := s.channels.units.set ch u }
        coin := { s.coin with window := s.coin.window.map fun e =>
          if e.id = ⟨s.ownNo, chNo ch, h.arrival⟩ then { e with features := some f } else e } }) ∧
    (h.kind = .own → h.cycleGone = false → s.link.current = none → s.link.queue = [] → s.channels.queue = [] →
      ∃ t c, exec (.sample m ch v) s = .next t ∧ t.link.current = some c ∧ c.kind = .hit ∧ c.ref = none ∧
        c.payload = hitBytes ⟨s.ownNo, chNo ch, h.arrival, h.phase, f⟩ ∧ t.channels.queue = [] ∧
        t.channels.units = s.channels.units.set ch u)

/-- R30, R37, R151, R152, R158: the lockout's end returns the channel to listening, or to MUTED, and offers a waiting pulse request again; the
pulse width's end releases the drive and starts the recovery time; its end returns the channel to LISTEN, or to MUTED if its sensor is
DEAD, and ends the slot. -/
def Obligations.LockoutAndPulseEnds : Prop :=
  (∀ (m : Moment) (s : State) (ch : Channel) (d : Tag), Sound m s → s.atWork = true →
    (s.channels.units.get ch).state = .lockout → (s.channels.units.get ch).lockout = some d → reached m.tag d = true →
    (NoWaiting s → (s.channels.units.get ch).role = .muted → exec (.lockoutTimerExpiry m ch) s = .next { s.withNow m.tag with
      channels := { s.channels with units := s.channels.units.set ch { s.channels.units.get ch with
        state := if s.windowOpen then .quiet else .muted, lockout := none } } }) ∧
    (NoWaiting s → (s.channels.units.get ch).role ≠ .muted → exec (.lockoutTimerExpiry m ch) s = .next { s.withNow m.tag with
      channels := { s.channels with units := s.channels.units.set ch { s.channels.units.get ch with
        state := if s.listening || s.windowOpen then .quiet else .hush, lockout := none } } }) ∧
    (∀ tag, s.coup.slot = .waiting tag →
      later m.tag (tag + span (Block.pulseSpacingMs s.block * 500)) = false → pulseChannel s = some ch →
      (s.channels.units.get ch).role = .listen → s.link.queue.length < 12 →
      ∃ t, exec (.lockoutTimerExpiry m ch) s = .next t ∧ t.coup.slot = .queued s.link.nextRef ∧
        (t.channels.units.get ch).role = .pulse ∧ (t.channels.units.get ch).state = .hush)) ∧
  (∀ (m : Moment) (s : State) (ch : Channel) (d : Tag), Sound m s → s.atWork = true →
    (s.channels.units.get ch).pulseTimer = some d → reached m.tag d = true →
    ((s.channels.units.get ch).state = .pulsing → exec (.pulseWidthEnd m ch) s = .next { s.withNow m.tag with
      channels := { s.channels with units := s.channels.units.set ch { s.channels.units.get ch with
        state := .recover, pulseTimer := some (m.tag + span (Block.recoveryMs s.block * 1000)) } } }) ∧
    ((s.channels.units.get ch).state = .recover → (s.coup.records.get ch).state ≠ .dead →
      NoJudging s → exec (.recoveryEnd m ch) s = .next { s.withNow m.tag with
        channels := { s.channels with units := s.channels.units.set ch { s.channels.units.get ch with
          role := .listen, state := if s.listening || s.windowOpen then .quiet else .hush, pulseTimer := none } }
        coup := { s.coup with slot := if s.coup.slot = .firing then .none else s.coup.slot } }) ∧
    ((s.channels.units.get ch).state = .recover → (s.coup.records.get ch).state = .dead → s.coup.slot = .firing →
      NoJudging s → ∃ t, exec (.recoveryEnd m ch) s = .next t ∧ (t.channels.units.get ch).role = .muted ∧
        (t.channels.units.get ch).state = .muted ∧ t.coup.slot = .none))

/-- R33, R34, R35: 8 µs without a sample turn a channel OFF: its open hit, floor and lockout go, and the loss is counted and noticed; 1 ms of
steady samples returns it to service, MUTED if its coupling record is DEAD. -/
def Obligations.SampleLossAndRecovery : Prop :=
  (∀ (m : Moment) (s : State) (ch : Channel) (last : Tag), Sound m s → s.atWork = true →
    (s.channels.units.get ch).state ≠ .off → (s.channels.units.get ch).watch = .watching last →
    8 ≤ elapsed m.tag last → ∃ t, exec (.sampleLoss m ch) s = .next t ∧
      t.channels.units.get ch = { ChannelUnit.reset with
        watch := .lost none, losses := min ((s.channels.units.get ch).losses + 1) 255 } ∧
      (∀ h, (s.channels.units.get ch).openHit = some h → h.kind = .own →
        ∀ e ∈ t.coin.window, e.id ≠ ⟨s.ownNo, chNo ch, h.arrival⟩) ∧
      (s.port.notices.length < 32 →
        (⟨s.tracker.cycle, packSensor s.ownNo (chNo ch), .sampleLoss true⟩ : Notice) ∈ t.port.notices) ∧
      ((s.channels.units.get ch).state = .pulsing ∨ (s.channels.units.get ch).state = .recover →
        s.coup.slot = .firing → t.coup.slot = .none) ∧
      t.tracker = s.tracker ∧ t.evid = s.evid ∧ t.agree = s.agree) ∧
  (∀ (m : Moment) (s : State) (ch : Channel) (start last : Tag), Sound m s → s.atWork = true →
    (s.channels.units.get ch).watch = .lost (some (start, last)) → 1000 ≤ elapsed m.tag start →
    elapsed m.tag last < 8 → (s.channels.units.get ch).openHit = none → NoWaiting s →
    exec (.sampleRecovery m ch) s = .next (raise ⟨s.tracker.cycle, packSensor s.ownNo (chNo ch), .sampleLoss false⟩ { s.withNow m.tag with
      channels := { s.channels with units := s.channels.units.set ch { s.channels.units.get ch with
        state := if (s.coup.records.get ch).state = .dead then .muted
          else if s.listening || s.windowOpen then .quiet else .hush
        role := if (s.coup.records.get ch).state = .dead then .muted else .listen
        floorWindow := [], openHit := none, lockout := none, pulseTimer := none, watch := .watching last } } }))

/-! ## The Mould Link -/

/-- R45, R49: once its lane has been at rest for the frame's access gap, the waiting attempt begins to transmit, stamped now; before
that, and on the other lane, it goes on waiting. The rest counts from the last stop bit heard on the lane, of ignored bytes too; how it
is kept is the model's choice (log entry 10). -/
def Obligations.AccessGapStartsTransmission : Prop :=
  (∀ (m : Moment) (s : State) (r : RestingLane) (u : LaneUnit) (since : Nat) (c : CurrentFrame) (d : Tag), NoFaultToFind m s →
    s.linkUp = true → s.link.current = some c → c.attempt = .waiting d → u = s.link.lanes.get r.lane →
    since = (match r.lastByte with
      | some b => if u.receiver = .hunting then max u.idleFrom ((s.withNow m.tag).clock - elapsed m.tag b) else u.idleFrom
      | none => u.idleFrom) →
    (c.lane = r.lane → u.receiver = .hunting →
      8 + 20 * frameClass c.kind + 2 * (s.ownNo - 1) ≤ (s.withNow m.tag).clock - since →
      exec (.accessGapReached m r) s = .next { s.withNow m.tag with link := { s.link with
        lanes := s.link.lanes.set r.lane { u with idleFrom := since }
        current := some { c with attempt := .transmitting m.tag } } }) ∧
    (c.lane ≠ r.lane ∨ u.receiver ≠ .hunting ∨
        (s.withNow m.tag).clock - since < 8 + 20 * frameClass c.kind + 2 * (s.ownNo - 1) →
      exec (.accessGapReached m r) s = .next { s.withNow m.tag with link := { s.link with
        lanes := s.link.lanes.set r.lane { u with idleFrom := since } } })) ∧
  (frameClass .logout = 0 ∧ frameClass .control = 0 ∧ frameClass .event = 1 ∧ frameClass .hit = 2 ∧ frameClass .pulse = 2 ∧
    frameClass .digest = 3 ∧ frameClass .row = 3 ∧ frameClass .presence = 3)

/-- R49, R50, R51, R54: an attempt that ends STARVED, CLASH or MUTE with a retry left is followed by the next attempt, on the lane the
retry settings give, or on the home lane while the link is LOST. -/
def Obligations.FailedAttemptIsRetried : Prop :=
  ∀ (m : Moment) (s : State) (c : CurrentFrame) (cmd : Instr) (cause : FailCause), NoFaultToFind m s → s.linkUp = true →
    s.link.current = some c → FailsNow m c cmd cause → c.noRetry = false → c.retries < Block.retryCount s.block →
    ∃ t, exec cmd s = .next t ∧
      t.link.current = some { c with
        lane := if t.link.lost then t.link.home else settingLane c s.block
        attempt := .waiting (m.tag + span (Block.accessTimeoutMs s.block * 1000))
        retries := c.retries + 1, lastFailure := some cause } ∧
      t.link.retriesBegun = min (s.link.retriesBegun + 1) 65535 ∧
      (t.link.lanes.get c.lane).run = min ((s.link.lanes.get c.lane).run + 1) 255 ∧
      t.link.lanes.get (otherLane c.lane) = s.link.lanes.get (otherLane c.lane) ∧
      t.link.queue = s.link.queue ∧ t.link.sent = s.link.sent ∧ t.link.dropped = s.link.dropped ∧
      t.tracker = s.tracker ∧ t.channels = s.channels ∧ t.member = s.member ∧ t.coin = s.coin ∧ t.evid = s.evid ∧
      t.agree = s.agree ∧ t.coup = s.coup ∧ t.fault = s.fault

/-- R52, R53: with no retry left the frame is DROPPED: the dropped count is raised, and a frame with no requester, or cut from its
requester by a freeze, leaves the queue with nothing else done but the next selection. -/
def Obligations.LastFailureDropsFrame : Prop :=
  ∀ (m : Moment) (s : State) (c : CurrentFrame) (cmd : Instr) (cause : FailCause), NoFaultToFind m s → s.linkUp = true →
    s.link.current = some c → FailsNow m c cmd cause → c.noRetry = true ∨ Block.retryCount s.block ≤ c.retries →
    (c.kind ≠ .logout ∨ c.unreported = true → ∃ t, exec cmd s = .next t ∧
      t.link.dropped = min (s.link.dropped + 1) 65535 ∧ t.link.sent = s.link.sent ∧
      t.link.retriesBegun = s.link.retriesBegun ∧
      (t.link.lanes.get c.lane).run = min ((s.link.lanes.get c.lane).run + 1) 255 ∧
      t.tracker = s.tracker ∧ t.evid = s.evid) ∧
    (c.ref = none ∨ c.kind = .presence ∨ c.unreported = true → s.channels.queue = [] →
      (∀ d ∈ s.link.queue, c.ref = some d.ref) → ∃ t, exec cmd s = .next t ∧
        t.link.current = none ∧ t.link.queue = [] ∧ t.coin = s.coin ∧ t.agree = s.agree ∧ t.coup = s.coup ∧
        t.fault = s.fault ∧ t.member = s.member ∧ t.channels = s.channels)

/-- R50, R52, R54, R55, R76: an attempt that ends SENT clears its lane's failure run, ends LOST, restarts the presence timer of a
station at work and is counted; a DIGEST, HIT or PRESENCE asks for nothing more. -/
def Obligations.SentAttemptCompletesFrame : Prop :=
  ∀ (m : Moment) (s : State) (c : CurrentFrame) (stamp : Tag), NoFaultToFind m s → s.linkUp = true →
    s.link.current = some c → c.attempt = .transmitting stamp →
    (c.kind ≠ .logout ∨ c.unreported = true → ∃ t, exec (.attemptSent m) s = .next t ∧
      t.link.sent = min (s.link.sent + 1) 65535 ∧ t.link.dropped = s.link.dropped ∧ t.link.lost = false ∧
      (t.link.lanes.get c.lane).run = 0 ∧ t.link.home = s.link.home ∧
      t.member = { s.member with
        presenceTimer := if s.atWork then some (m.tag + span (Block.presence10Ms s.block * 10000)) else s.member.presenceTimer } ∧
      t.tracker = s.tracker ∧ t.evid = s.evid) ∧
    (c.ref = none ∨ c.kind = .presence ∨ c.kind = .digest ∨ c.unreported = true → s.channels.queue = [] →
      (∀ d ∈ s.link.queue, c.ref = some d.ref) → ∃ t, exec (.attemptSent m) s = .next t ∧
        t.link.current = none ∧ t.link.queue = [] ∧ t.coin = s.coin ∧ t.agree = s.agree ∧ t.coup = s.coup ∧
        t.fault = s.fault ∧ t.channels = s.channels)

/-- R54, R55: a lane's health follows from its failure run; a change of health, a move of the home lane, the link's loss and its return are
noticed, the subject of the notices being the own station (log entry 17). An attempt that ends CLASH or MUTE takes the own-echo
mark from what its lane assembles (log entry 43). -/
def Obligations.LaneHealthIsNoticed : Prop :=
  (∀ (m : Moment) (s : State) (c : CurrentFrame) (cmd : Instr) (cause : FailCause) (run other : Nat), NoFaultToFind m s →
    s.linkUp = true → s.link.current = some c → FailsNow m c cmd cause → run = (s.link.lanes.get c.lane).run →
    other = (s.link.lanes.get (otherLane c.lane)).run →
    (c.noRetry = false ∧ c.retries < Block.retryCount s.block) ∨ c.kind = .hit ∨ c.kind = .event ∨ c.kind = .digest ∨
      c.kind = .presence ∨ c.unreported = true →
    ∃ t, exec cmd s = .next t ∧ (t.link.lanes.get c.lane).run = min (run + 1) 255 ∧
      (run ≠ 3 → t.link.lost = s.link.lost ∧ t.link.home = s.link.home ∧ t.port = (raiseAll
        (if run = 0 then [⟨s.tracker.cycle, s.ownNo, .laneState c.lane (.health .failing)⟩] else []) s).port) ∧
      (run = 3 → 4 ≤ other → t.link.lost = true ∧ t.link.home = s.link.home ∧ t.port = (raiseAll
        [⟨s.tracker.cycle, s.ownNo, .laneState c.lane (.health .faulty)⟩,
         ⟨s.tracker.cycle, s.ownNo, .laneState c.lane .lost⟩] s).port) ∧
      (run = 3 → other ≤ 3 → c.lane = s.link.home → t.link.lost = s.link.lost ∧ t.link.home = otherLane c.lane ∧
        t.port = (raiseAll
          [⟨s.tracker.cycle, s.ownNo, .laneState c.lane (.health .faulty)⟩,
           ⟨s.tracker.cycle, s.ownNo, .laneState (otherLane c.lane) .home⟩] s).port) ∧
      (run = 3 → other ≤ 3 → c.lane ≠ s.link.home → t.link.lost = s.link.lost ∧ t.link.home = s.link.home ∧
        t.port = (raiseAll [⟨s.tracker.cycle, s.ownNo, .laneState c.lane (.health .faulty)⟩] s).port) ∧
      (∀ stamp own, (s.link.lanes.get c.lane).receiver = .assembling stamp own →
        (t.link.lanes.get c.lane).receiver = .assembling stamp (if cause = .starved then own else false))) ∧
  (∀ (m : Moment) (s : State) (c : CurrentFrame) (stamp : Tag) (run : Nat), NoFaultToFind m s → s.linkUp = true →
    s.link.current = some c → c.attempt = .transmitting stamp → run = (s.link.lanes.get c.lane).run →
    c.kind = .hit ∨ c.kind = .event ∨ c.kind = .digest ∨ c.kind = .presence ∨ c.unreported = true →
    ∃ t, exec (.attemptSent m) s = .next t ∧ (t.link.lanes.get c.lane).run = 0 ∧ t.link.lost = false ∧
      t.link.home = s.link.home ∧ t.port = (raiseAll
        ((if run = 0 then [] else [⟨s.tracker.cycle, s.ownNo, .laneState c.lane (.health .good)⟩]) ++
          (if s.link.lost = true then [⟨s.tracker.cycle, s.ownNo, .laneState c.lane .restored⟩] else [])) s).port) ∧
  (∀ run, healthOf run = if run = 0 then .good else if run ≤ 3 then .failing else .faulty)

/-- R52, R90, R94, R134, R141, R142, R152, R173: what each requester makes of the final outcome of its frame, SENT or DROPPED: an EVENT,
the PULSE of a QUEUED slot, the Board Port's CONTROL, a ROW of a transfer, a DIGEST. That the CONTROL RESULT or TRANSFER notice is appended
after the LANE STATE notices of the same step is the model's choice (log entry 11). -/
def Obligations.RequestersHearOutcomes : Prop :=
  ∀ (m : Moment) (s : State) (c : CurrentFrame) (cmd : Instr) (failure : Option FailCause) (r : Nat), NoFaultToFind m s →
    s.linkUp = true → s.link.current = some c → c.ref = some r → c.unreported = false → EndsNow m s c cmd failure →
    (c.kind = .event → ∃ t, exec cmd s = .next t ∧ t.coin = { s.coin with
        ownerRefs := s.coin.ownerRefs.filter (· != r)
        pendingGroups := if failure = none then
            s.coin.pendingGroups.map fun p => if p.publication = .queued r then { p with publication := .sent } else p
          else s.coin.pendingGroups.filter fun p => p.publication != .queued r
        counts := { s.coin.counts with
          published := if failure = none then min (s.coin.counts.published + 1) 65535 else s.coin.counts.published
          eventsDropped := if failure = none then s.coin.counts.eventsDropped
            else min (s.coin.counts.eventsDropped + 1) 65535 } } ∧
      t.agree = s.agree ∧ t.coup = s.coup ∧ t.evid = s.evid ∧ t.tracker = s.tracker ∧ t.fault = s.fault) ∧
    (c.kind = .pulse → s.coup.slot = .queued r → NoJudging s →
      (∀ ch, pulseChannel s = some ch → (s.coup.records.get ch).state ≠ .dead) → ∃ t, exec cmd s = .next t ∧
      (∀ stamp, failure = none → c.attempt = .transmitting stamp →
        t.coup = { s.coup with slot := .announced (stamp + 1000#32) } ∧ t.channels.units = s.channels.units) ∧
      (failure ≠ none → t.coup = { s.coup with
          slot := .none, counts := { s.coup.counts with skipped := min (s.coup.counts.skipped + 1) 65535 } } ∧
        ∀ ch, pulseChannel s = some ch → (s.channels.units.get ch).role = .pulse →
          (s.channels.units.get ch).state = .hush → t.channels.units.get ch = { s.channels.units.get ch with
            role := .listen, state := if s.listening || s.windowOpen then .quiet else .hush, pulseTimer := none }) ∧
      t.coin = s.coin ∧ t.agree = s.agree ∧ t.evid = s.evid ∧ t.tracker = s.tracker) ∧
    (c.kind = .pulse → s.coup.slot ≠ .queued r → ∃ t, exec cmd s = .next t ∧ t.coup = s.coup ∧
      t.channels.units = s.channels.units ∧ t.coin = s.coin ∧ t.agree = s.agree) ∧
    (∀ ctl, c.kind = .control → s.port.control = some (r, ctl) → s.port.notices.length < 30 →
      ∃ t, exec cmd s = .next t ∧ t.port.control = none ∧
        t.port.notices.getLast? = some ⟨s.tracker.cycle, lowestSelected ctl s,
          .controlResult failure.isNone ctl (failure.or c.lastFailure) c.retries⟩ ∧
        t.coin = s.coin ∧ t.agree = s.agree ∧ t.coup = s.coup ∧ t.evid = s.evid ∧ t.tracker = s.tracker) ∧
    (c.kind = .control → (∀ ctl, s.port.control ≠ some (r, ctl)) → ∃ t, exec cmd s = .next t ∧
      t.port.control = s.port.control ∧ t.coin = s.coin ∧ t.agree = s.agree ∧ t.coup = s.coup) ∧
    (∀ n last, c.kind = .row → s.agree.transfer = .sending n (.row r last) →
      (failure = none → last = true → ∃ t, exec cmd s = .next t ∧
        t.agree = { s.agree with
          transfer := .idle, counts := { s.agree.counts with rowsSent := min (s.agree.counts.rowsSent + 1) 65535 } } ∧
        (s.port.notices.length < 30 →
          t.port.notices.getLast? = some ⟨s.tracker.cycle, s.ownNo, .transfer .sent⟩)) ∧
      (∀ snap row, failure = none → last = false → s.agree.snapshot = some snap →
        row = { cycle := snap.cycle, digest := s.agree.ownDigest.getD 0, age := snap.age, first := n
                count := ((snap.records.drop (n - 1)).take 4).length
                last := n - 1 + ((snap.records.drop (n - 1)).take 4).length == snap.records.length
                records := (snap.records.drop (n - 1)).take 4 } →
        (s.link.queue.filter fun d => d.ref != r).length < 12 → (∀ x ∈ s.link.queue, x.kind = .row → x.ref = r) →
        ∃ t, exec cmd s = .next t ∧
          t.agree = { s.agree with
            transfer := .sending (n + row.count) (.row s.link.nextRef row.last)
            counts := { s.agree.counts with rowsSent := min (s.agree.counts.rowsSent + 1) 65535 } } ∧
          t.link.queue = (s.link.queue.filter fun d => d.ref != r) ++
            [⟨s.link.nextRef, .row, rowBytes (Block.histLen s.block) row, m.tag⟩]) ∧
      (failure ≠ none → ∃ t, exec cmd s = .next t ∧
        t.agree = { s.agree with
          transfer := .idle, counts := { s.agree.counts with aborted := min (s.agree.counts.aborted + 1) 65535 } } ∧
        (s.port.notices.length < 30 →
          t.port.notices.getLast? = some ⟨s.tracker.cycle, s.ownNo, .transfer .aborted⟩))) ∧
    (c.kind = .row → (∀ n last, s.agree.transfer ≠ .sending n (.row r last)) → ∃ t, exec cmd s = .next t ∧
      t.agree = s.agree ∧ t.coin = s.coin ∧ t.coup = s.coup) ∧
    (c.kind = .digest → ∃ t, exec cmd s = .next t ∧ t.coin = s.coin ∧ t.coup = s.coup ∧ t.evid = s.evid ∧
      t.agree = { s.agree with counts := { s.agree.counts with
        digestsNotSent := if failure = none then s.agree.counts.digestsNotSent
          else min (s.agree.counts.digestsNotSent + 1) 65535 } })

/-- R44, R56, R57: what the receivers make of a start bit after a rest, of a frame's last byte and of a broken frame. That a start
bit during assembly breaks the old frame, and the time a lane is idle from after an early rest, are the model's choices (log entries
28 and 18). -/
def Obligations.ReceiversFollowFrames : Prop :=
  ∀ (m : Moment) (s : State) (l : Lane) (bytes : List Byte) (cause : BrokenCause) (u : LaneUnit), NoFaultToFind m s →
    s.linkUp = true → u = s.link.lanes.get l →
    (u.receiver = .hunting → exec (.frameStart m l) s = .next { s.withNow m.tag with
      link := { s.link with lanes := s.link.lanes.set l { u with
        receiver := .assembling m.tag (s.transmitting l), idleFrom := (s.withNow m.tag).clock } } }) ∧
    (u.receiver ≠ .hunting → exec (.frameStart m l) s = .next { s.withNow m.tag with
      link := { s.link with lanes := s.link.lanes.set l { u with
        receiver := .assembling m.tag (s.transmitting l), idleFrom := (s.withNow m.tag).clock, broken := min (u.broken + 1) 65535 } } }) ∧
    (u.receiver = .hunting → exec (.frameComplete m l bytes) s = .next (s.withNow m.tag) ∧
      exec (.frameBroken m l cause) s = .next (s.withNow m.tag)) ∧
    (∀ stamp own, u.receiver = .assembling stamp own →
      (u.hold = none → exec (.frameComplete m l bytes) s = .next { s.withNow m.tag with
        link := { s.link with
          lanes := s.link.lanes.set l { u with
            receiver := .hunting, hold := some ⟨bytes, stamp, own⟩, idleFrom := (s.withNow m.tag).clock }
          holdFirst := if (s.link.lanes.get (otherLane l)).hold = none then l else otherLane l } }) ∧
      (u.hold ≠ none → exec (.frameComplete m l bytes) s = .next { s.withNow m.tag with
        link := { s.link with lanes := s.link.lanes.set l { u with
          receiver := .hunting, overruns := min (u.overruns + 1) 65535, idleFrom := (s.withNow m.tag).clock } } }) ∧
      exec (.frameBroken m l cause) s = .next { s.withNow m.tag with
        link := { s.link with lanes := s.link.lanes.set l { u with
          receiver := .hunting, broken := min (u.broken + 1) 65535
          idleFrom := if cause = .earlyRest then (s.withNow m.tag).clock - 3 else (s.withNow m.tag).clock } } })

/-- R58, R59, R60, R63: the handler takes the frame that completed first; a frame that fails a check is counted and dropped, one that
carries the own number without the echo mark raises DUPLICATE NUMBER, a FROZEN station discards every frame. -/
def Obligations.HandlerRefusesBadFrames : Prop :=
  ∀ (m : Moment) (s : State) (l : Lane) (f : RxFrame) (u : LaneUnit), NoFaultToFind m s → heldFrame s.link = some (l, f) →
    u = s.link.lanes.get l →
    (s.member.station = .frozen → exec (.frameHandlerTake m) s = .next { s.withNow m.tag with
      link := { s.link with lanes := s.link.lanes.set l { u with hold := none } } }) ∧
    (s.atWork = true → acceptance (Block.histLen s.block) f = none → exec (.frameHandlerTake m) s = .next { s.withNow m.tag with
      link := { s.link with
        lanes := s.link.lanes.set l { u with hold := none, rejected := min (u.rejected + 1) 65535 }, handler := none } }) ∧
    (∀ k st, s.atWork = true → acceptance (Block.histLen s.block) f = some (k, st) → s.member.number = some st →
      f.own = false → exec (.frameHandlerTake m) s =
        .next (raise ⟨s.tracker.cycle, s.ownNo, .duplicateNumber l⟩ { s.withNow m.tag with
          link := { s.link with lanes := s.link.lanes.set l { u with hold := none }, handler := none } })) ∧
    ((s.link.lanes.get (otherLane l)).hold ≠ none → s.link.holdFirst = l) ∧
    (acceptance (Block.histLen s.block) f = none ↔
      frameKindOf f.kindByte = none ∨ stOf f.senderByte = none ∨ f.checkOk = false ∨
        ∃ k, frameKindOf f.kindByte = some k ∧ lengthOk (Block.histLen s.block) k f.payload = false)

/-- R174, R175: a notice is appended while the queue holds fewer than 32, else only the stacked count of its kind is raised. -/
def Obligations.NoticesAreQueuedOrStacked : Prop :=
  ∀ (n : Notice) (s : State),
    (s.port.notices.length < 32 →
      raise n s = { s with port := { s.port with notices := s.port.notices ++ [n] } }) ∧
    (32 ≤ s.port.notices.length → raise n s = { s with port := { s.port with
      stacked := s.port.stacked.set (noticeKindCode n.detail - 1)
        (min (s.port.stacked.getD (noticeKindCode n.detail - 1) 0 + 1) 255) } }) ∧
    (s.noticeLine = true ↔ s.port.notices ≠ [])

/-! ## Stations and membership -/

/-- R69, R70, R72, R73: what an accepted PRESENCE of a peer makes of the sender's record; any other frame of a sender that is FOREIGN
or has no fingerprint on record is held back, with no effect but the counts. -/
def Obligations.PresenceMakesPeerRecord : Prop :=
  ∀ (m : Moment) (s : State) (l : Lane) (f : RxFrame) (st : Station), Sound m s → s.atWork = true →
    heldFrame s.link = some (l, f) → s.member.number ≠ some st →
    (acceptance (Block.histLen s.block) f = some (.presence, st) → ∃ t r, exec (.frameHandlerTake m) s = .next t ∧
      r = t.member.peers.get st ∧ r.fingerprint = some (u32 f.payload 0) ∧ r.presence = some (presenceOf f.payload) ∧
      r.lastHeard = some f.stamp ∧ r.offset = some (f.stamp - f.senderStamp - span (Block.linkDelay s.block)) ∧
      r.taken = min ((s.member.peers.get st).taken + 1) 65535 ∧ r.heldBack = (s.member.peers.get st).heldBack ∧
      (some (u32 f.payload 0) = s.member.fingerprint → r.state = .present ∧ r.digest = (s.member.peers.get st).digest ∧
        r.logout = (s.member.peers.get st).logout ∧
        r.silence = some (m.tag + span (3 * (Block.presence10Ms s.block * 10000)))) ∧
      (some (u32 f.payload 0) ≠ s.member.fingerprint → r.state = .foreign ∧ r.digest = none ∧
        r.logout = ⟨none, none, none⟩ ∧ r.silence = none) ∧
      (r.state ≠ (s.member.peers.get st).state → s.port.notices.length < 32 →
        (⟨s.tracker.cycle, stNo st, .peerState r.state⟩ : Notice) ∈ t.port.notices) ∧
      (∀ st', st' ≠ st → t.member.peers.get st' = s.member.peers.get st') ∧
      (t.link.lanes.get l).accepted = min ((s.link.lanes.get l).accepted + 1) 65535 ∧
      t.link.lastAccepted = ((.presence, st) :: s.link.lastAccepted).take 4 ∧ t.evid.table = s.evid.table) ∧
    (∀ k, k ≠ .presence → acceptance (Block.histLen s.block) f = some (k, st) →
      (s.member.peers.get st).state = .foreign ∨ (s.member.peers.get st).fingerprint = none →
      exec (.frameHandlerTake m) s = .next { s.withNow m.tag with
        link := { s.link with
          lanes := s.link.lanes.set l { s.link.lanes.get l with
            hold := none, accepted := min ((s.link.lanes.get l).accepted + 1) 65535 }
          lastAccepted := ((k, st) :: s.link.lastAccepted).take 4, handler := none }
        member := { s.member with peers := s.member.peers.set st { s.member.peers.get st with
          heldBack := min ((s.member.peers.get st).heldBack + 1) 65535 } } })

/-- R70, R73, R74, R75, R177, R178: what a taken DIGEST and a taken LOGOUT make of the sender's record. A LOGOUT whose part byte names no
part is held back with no effect but the counts; a peer's other LOGOUT makes it LOGGED-OUT, and a transfer it was giving is abandoned. That
the PEER STATE notice comes before the TRANSFER notice is the model's choice (log entry 11), and so is keeping the bits 4 to 7 of part 2's
flags byte, which 12.2 does not name (log entry 49). -/
def Obligations.DigestAndLogoutFramesRecorded : Prop :=
  (∀ (m : Moment) (s : State) (l : Lane) (f : RxFrame) (st : Station) (s0 : State) (old : PeerRecord),
    Handed m s l f .digest st → s0 = frameFinds m f st s → old = s.member.peers.get st →
    ∃ t, exec (.frameHandlerTake m) s = .next t ∧
      t.member.peers.get st = { old with
        state := .present, digest := some (digestContentOf f.payload f.stamp), lastHeard := some f.stamp
        offset := some (f.stamp - f.senderStamp - span (Block.linkDelay s.block)), taken := min (old.taken + 1) 65535
        silence := if s.member.number = some st then old.silence
          else some (m.tag + span (3 * (Block.presence10Ms s.block * 10000))) } ∧
      (∀ st', st' ≠ st → t.member.peers.get st' = s.member.peers.get st') ∧ t.member.station = s0.member.station ∧
      t.port = (raiseAll (presentAgain st s) s).port ∧ t.tracker = s0.tracker ∧ t.coin = s0.coin ∧ t.evid = s0.evid ∧
      t.agree = s.agree ∧ t.coup = s.coup ∧ t.fault.record = s.fault.record ∧ t.channels = s.channels) ∧
  (∀ (m : Moment) (s : State) (l : Lane) (f : RxFrame) (st : Station) (old base : PeerRecord),
    Handed m s l f .logout st → old = s.member.peers.get st →
    base = { old with
      lastHeard := some f.stamp, offset := some (f.stamp - f.senderStamp - span (Block.linkDelay s.block))
      taken := min (old.taken + 1) 65535 } →
    ∃ t, exec (.frameHandlerTake m) s = .next t ∧
      (u8 f.payload 0 = 0 ∨ 4 ≤ u8 f.payload 0 → t.member.peers.get st = { base with
          heldBack := min (old.heldBack + 1) 65535
          silence := if s.member.number ≠ some st ∧ old.state = .present then
            some (m.tag + span (3 * (Block.presence10Ms s.block * 10000))) else old.silence } ∧
        t.agree = s.agree ∧ t.port = s.port) ∧
      (1 ≤ u8 f.payload 0 → u8 f.payload 0 ≤ 3 → s.member.number = some st → t.member.peers.get st = { base with
          silence := old.silence } ∧ t.agree = s.agree ∧ t.port = s.port) ∧
      (s.member.number ≠ some st →
        (u8 f.payload 0 = 1 → t.member.peers.get st = { base with
          state := .loggedOut, silence := none, logout := ⟨some (f.payload.drop 1), none, none⟩ }) ∧
        (u8 f.payload 0 = 2 → t.member.peers.get st = { base with
          state := .loggedOut, silence := none, logout := { old.logout with part2 := some (keptEntries f.payload) } }) ∧
        (u8 f.payload 0 = 3 → t.member.peers.get st = { base with
          state := .loggedOut, silence := none, logout := { old.logout with part3 := some (f.payload.drop 1) } }) ∧
        (1 ≤ u8 f.payload 0 → u8 f.payload 0 ≤ 3 → old.state ≠ .loggedOut →
          (∀ c v n r b, s.agree.transfer = .awaiting st c v n r b → t.agree = transferGone s.agree ∧
            t.port = (raiseAll [⟨s.tracker.cycle, stNo st, .peerState .loggedOut⟩,
              ⟨s.tracker.cycle, stNo st, .transfer (.abandoned .donor)⟩] s).port) ∧
          ((∀ c v n r b, s.agree.transfer ≠ .awaiting st c v n r b) → t.agree = s.agree ∧
            t.port = (raise ⟨s.tracker.cycle, stNo st, .peerState .loggedOut⟩ s).port))) ∧
      (∀ st', st' ≠ st → t.member.peers.get st' = s.member.peers.get st') ∧ t.member.station = s.member.station ∧
      t.tracker = s.tracker ∧ t.coin = s.coin ∧ t.evid = s.evid ∧ t.coup = s.coup ∧ t.channels = s.channels) ∧
  (∀ (p : List Byte) (i : Nat), i < 8 → (keptEntries p).length = 9 ∧ (keptEntries p).getD 0 0 = p.getD 1 0 ∧
    (keptEntries p).getD (i + 1) 0 = if (p.getD 1 0).getLsbD (i / 2) then p.getD (2 + i) 0 else 0)

/-- R14, R66, R67: the first qualifying peer frame gives a JOINING station its cycle number and makes it RUNNING; the cycle opens unless the
phase is IDLE, and in RETURN the settle timer starts. The join timer's expiry makes it RUNNING with cycle number 0. -/
def Obligations.JoiningStationAdoptsNumber : Prop :=
  (∀ (m : Moment) (s : State) (l : Lane) (f : RxFrame) (k : FrameKind) (st : Station) (n : CycleNo), Sound m s →
    s.member.station = .joining → heldFrame s.link = some (l, f) → s.member.number ≠ some st →
    acceptance (Block.histLen s.block) f = some (k, st) → f.cycle = some n →
    (k = .presence ∧ some (u32 f.payload 0) = s.member.fingerprint) ∨
      (k ≠ .presence ∧ k ≠ .logout ∧ (s.member.peers.get st).fingerprint ≠ none ∧
        ((s.member.peers.get st).state = .present ∨ (s.member.peers.get st).state = .missing ∨
          (s.member.peers.get st).state = .loggedOut)) →
    ∃ t, exec (.frameHandlerTake m) s = .next t ∧ t.member.station = .running ∧ t.member.joinTimer = none ∧
      (s.tracker.phase = .idle → t.tracker = { s.tracker with cycle := some n }) ∧
      (s.tracker.phase = .ret → t.tracker = { s.tracker with
        cycle := some n, isOpen := true, disordered := false, abandoned := false
        settle := some (m.tag + span (Block.closeDelayMs s.block * 1000)) }) ∧
      (s.tracker.phase ≠ .idle → s.tracker.phase ≠ .ret → t.tracker = { s.tracker with
        cycle := some n, isOpen := true, disordered := false, abandoned := false }) ∧
      t.member.number = s.member.number ∧ t.member.fingerprint = s.member.fingerprint ∧ t.port.config = s.port.config) ∧
  (∀ (m : Moment) (s : State) (d : Tag), Sound m s → s.member.station = .joining → s.member.joinTimer = some d →
    reached m.tag d = true → ∃ t, exec (.joinTimerExpiry m) s = .next t ∧
      t.member = { s.member with station := .running, joinTimer := none } ∧
      (s.tracker.phase = .idle → t = { s.withNow m.tag with
        member := t.member, tracker := { s.tracker with cycle := some 0 }
        coin := if s.tracker.isOpen then { s.coin with horizon := none } else s.coin
        evid := if s.tracker.isOpen then { s.evid with applied := [] } else s.evid }) ∧
      (s.tracker.phase ≠ .idle → t = { s.withNow m.tag with
        member := t.member
        tracker := { s.tracker with
          cycle := some 0, isOpen := true, disordered := false, abandoned := false
          settle := if s.tracker.phase = .ret then some (m.tag + span (Block.closeDelayMs s.block * 1000))
            else s.tracker.settle }
        coin := { s.coin with horizon := none }, evid := { s.evid with applied := [] } }))

/-- R46, R73, R76, R147: a PRESENT peer that stays silent becomes MISSING, with a notice, and a transfer awaited from it is abandoned, with another
(PEER STATE first: the model's choice, log entry 11); the presence timer's expiry asks for a PRESENCE frame made now and starts the timer
again; a full transmit queue refuses the request. -/
def Obligations.SilenceAndPresenceTimers : Prop :=
  (∀ (m : Moment) (s : State) (st : Station) (d : Tag), Sound m s → s.atWork = true →
    (s.member.peers.get st).state = .present → (s.member.peers.get st).silence = some d → reached m.tag d = true →
    ((∀ c v n r b, s.agree.transfer ≠ .awaiting st c v n r b) → exec (.silenceTimerExpiry m st) s =
      .next (raise ⟨s.tracker.cycle, stNo st, .peerState .missing⟩ { s.withNow m.tag with
        member := { s.member with peers := s.member.peers.set st { s.member.peers.get st with
          state := .missing, silence := none } } })) ∧
    (∀ c v n r b, s.agree.transfer = .awaiting st c v n r b → exec (.silenceTimerExpiry m st) s =
      .next (raise ⟨s.tracker.cycle, stNo st, .transfer (.abandoned .donor)⟩
        { raise ⟨s.tracker.cycle, stNo st, .peerState .missing⟩ { s.withNow m.tag with
            member := { s.member with peers := s.member.peers.set st { s.member.peers.get st with
              state := .missing, silence := none } } } with
          agree := { s.agree with
            transfer := .idle, carry := [], carryOverflow := false
            counts := { s.agree.counts with abandoned := min (s.agree.counts.abandoned + 1) 65535 } } }))) ∧
  (∀ (m : Moment) (s : State) (d : Tag), Sound m s → s.atWork = true → s.member.presenceTimer = some d →
    reached m.tag d = true →
    (s.link.queue.length < 12 → ∃ t, exec (.presenceTimerExpiry m) s = .next t ∧
      t.link.queue = s.link.queue ++ [⟨s.link.nextRef, .presence, s.presencePayload, m.tag⟩] ∧
      t.member = { s.member with
        presenceTimer := some (m.tag + span (Block.presence10Ms s.block * 10000)) } ∧
      t.tracker = s.tracker ∧ t.coin = s.coin ∧ t.evid = s.evid ∧ t.agree = s.agree ∧ t.coup = s.coup ∧
      t.fault = s.fault ∧ t.port = s.port ∧ t.channels.units = s.channels.units) ∧
    (12 ≤ s.link.queue.length → exec (.presenceTimerExpiry m) s = .next { s.withNow m.tag with
      member := { s.member with
        presenceTimer := some (m.tag + span (Block.presence10Ms s.block * 10000)) } }))

/-! ## Groups and events -/

/-- R31, R81 to R83, R86, R87: what a HIT frame does. An own echo does nothing, a frame of another cycle is only counted, else each record in
turn is malformed, a duplicate, handed to an open pulse window (its ends included: log entry 41), late, an overflow, or an entry in
its place in the Hit Window; then a close expiry that is past is taken, if the anchor has moved (log entry 15). -/
def Obligations.HitFramesEnterTheWindow : Prop :=
  (∀ (st : Station) (off : Tag) (s : State) (h : HitRecord) (id : HitId) (a : Tag) (e : HitEntry),
    id = ⟨h.station, h.channel, h.arrival⟩ → a = h.arrival + off → e = ⟨id, a, h.phase, some h.features, false⟩ →
    (h.station ≠ stNo st ∨ h.channel = 0 ∨ 4 < h.channel → peerHit st off s h = { s with coin := { s.coin with
      counts := { s.coin.counts with malformed := min (s.coin.counts.malformed + 1) 65535 } } }) ∧
    (h.station = stNo st → 1 ≤ h.channel → h.channel ≤ 4 →
      ((∃ x ∈ s.coin.window, x.id = id) → peerHit st off s h = { s with coin := { s.coin with
        counts := { s.coin.counts with duplicates := min (s.coin.counts.duplicates + 1) 65535 } } }) ∧
      ((∀ x ∈ s.coin.window, x.id ≠ id) →
        ((∃ w, s.coup.window = some w ∧ w.stage = .isOpen ∧ reached a w.fire = true ∧ reached w.finish a = true) →
          peerHit st off s h = { s with coup := { s.coup with
            counts := { s.coup.counts with peerHits := min (s.coup.counts.peerHits + 1) 65535 } } }) ∧
        ((∀ w, s.coup.window = some w → w.stage ≠ .isOpen ∨ reached a w.fire = false ∨ reached w.finish a = false) →
          ((∃ z, s.coin.horizon = some z ∧ reached z a = true) → peerHit st off s h = { s with coin := { s.coin with
            counts := { s.coin.counts with late := min (s.coin.counts.late + 1) 65535 } } }) ∧
          ((∀ z, s.coin.horizon = some z → reached z a = false) →
            (64 ≤ s.coin.window.length → peerHit st off s h = { s with coin := { s.coin with
              counts := { s.coin.counts with overflow := min (s.coin.counts.overflow + 1) 65535 } } }) ∧
            (s.coin.window.length < 64 → ∃ pre post, s.coin.window = pre ++ post ∧
              peerHit st off s h = { s with coin := { s.coin with window := pre ++ e :: post } } ∧
              (∀ x ∈ pre, entryBefore e x = false) ∧ (∀ x ∈ post.head?, entryBefore e x = true))))))) ∧
  (∀ a b : HitEntry, entryBefore a b = true ↔ 0 < (b.localArrival - a.localArrival).toInt ∨
    (a.localArrival = b.localArrival ∧ (a.id.station < b.id.station ∨ (a.id.station = b.id.station ∧
      (a.id.channel < b.id.channel ∨ (a.id.channel = b.id.channel ∧ a.id.tag.toNat < b.id.tag.toNat)))))) ∧
  (∀ (m : Moment) (s : State) (l : Lane) (f : RxFrame) (st : Station) (s0 u : State),
    Handed m s l f .hit st → s0 = frameFinds m f st s →
    u = (hitsOf f.payload).foldl (peerHit st (f.stamp - f.senderStamp - span (Block.linkDelay s.block))) s0 →
    ∃ t, exec (.frameHandlerTake m) s = .next t ∧ t.tracker = s0.tracker ∧ t.evid = s0.evid ∧ t.agree = s.agree ∧
      t.channels.units = s.channels.units ∧ t.port = (raiseAll (presentAgain st s) s).port ∧
      (f.own = true → t.coin = s0.coin ∧ t.coup = s.coup) ∧
      (f.own = false → s0.tracker.isOpen = false ∨ f.cycle ≠ s0.tracker.cycle ∨ s0.member.station ≠ .running →
        t.coup = s.coup ∧ t.coin = { s0.coin with
          counts := { s0.coin.counts with offCycle := min (s0.coin.counts.offCycle + 1) 65535 } }) ∧
      (f.own = false → s0.tracker.isOpen = true → f.cycle = s0.tracker.cycle → s0.member.station = .running →
        t.coup = u.coup ∧ t.coin.window <:+ u.coin.window ∧
        (u.openGroup.map (·.anchor) = s0.openGroup.map (·.anchor) ∨
          (∀ g, u.openGroup = some g → reached m.tag g.expiry = false) → t.coin = u.coin) ∧
        (u.openGroup.map (·.anchor) ≠ s0.openGroup.map (·.anchor) → CapacityInv s →
          ∀ g, t.openGroup = some g → reached m.tag g.expiry = false)))

/-- R93, R109: what an EVENT frame does. In the open cycle every pending group that shares an identity with it goes, with its queued
descriptor; then the record is malformed, stale, or judged against the Applied Event List. -/
def Obligations.EventFramesAreApplied : Prop :=
  (∀ (m : Moment) (s : State) (l : Lane) (f : RxFrame) (st : Station) (s0 : State) (e : EventRecord) (j : Judgement),
    Handed m s l f .event st → s0 = frameFinds m f st s → e = eventOf f.payload →
    j = judgeEvent s0.evid.applied ⟨e, stNo st⟩ → ∃ t, exec (.frameHandlerTake m) s = .next t ∧
      t.tracker = s0.tracker ∧ t.channels = s.channels ∧ t.agree = s.agree ∧ t.coup = s.coup ∧
      t.port = (raiseAll (presentAgain st s) s).port ∧ t.fault.record = s.fault.record ∧
      (s0.tracker.isOpen = true → e.cycle = s0.tracker.cycle →
        t.coin = { s0.coin with pendingGroups := s0.coin.pendingGroups.filter fun p => !sharesIdentity e.ids p.members } ∧
        ∀ d, d ∈ t.link.queue ↔ d ∈ s.link.queue ∧ ((∃ c, s.link.current = some c ∧ c.ref = some d.ref) ∨
          ∀ p ∈ s0.coin.pendingGroups, sharesIdentity e.ids p.members = true → p.publication ≠ .queued d.ref)) ∧
      (s0.tracker.isOpen = false ∨ e.cycle ≠ s0.tracker.cycle → t.coin = s0.coin ∧ t.link.queue = s.link.queue) ∧
      (eventWellFormed (Block.nSeg s.block) e = false → t.evid = { s0.evid with
        counts := { s0.evid.counts with malformed := min (s0.evid.counts.malformed + 1) 65535 } }) ∧
      (eventWellFormed (Block.nSeg s.block) e = true →
        (s0.tracker.isOpen = false ∨ e.cycle ≠ s0.tracker.cycle → t.evid = { s0.evid with
          counts := { s0.evid.counts with stale := min (s0.evid.counts.stale + 1) 65535 } }) ∧
        (s0.tracker.isOpen = true → e.cycle = s0.tracker.cycle → t.evid = { s0.evid with
          applied := j.list
          counts := { s0.evid.counts with
            applied := if j.applied then min (s0.evid.counts.applied + 1) 65535 else s0.evid.counts.applied
            duplicate := if j.duplicate then min (s0.evid.counts.duplicate + 1) 65535 else s0.evid.counts.duplicate
            listFull := if j.full then min (s0.evid.counts.listFull + 1) 65535 else s0.evid.counts.listFull } }))) ∧
  (∀ (nSeg : Nat) (e : EventRecord), eventWellFormed nSeg e = true ↔
    e.segment ≤ nSeg ∧ (∀ i ∈ e.ids, 1 ≤ i.channel ∧ i.channel ≤ 4) ∧ e.ids.Nodup) ∧
  (∀ (ids : List HitId) (ms : List HitEntry), sharesIdentity ids ms = true ↔ ∃ x ∈ ms, x.id ∈ ids)

/-- R85 to R88: at the close expiry every group due closes: its members leave the window, from its front, and the closed horizon
stands. A close expiry delivered before its tag changes nothing (the model's choice, log entry 2). -/
def Obligations.CloseExpiryTakesGroups : Prop :=
  ∀ (m : Moment) (s : State) (g : OpenGroup), Sound m s → s.atWork = true → CapacityInv s → s.openGroup = some g →
    (reached m.tag g.expiry = true → ∃ t, exec (.closeExpiry m) s = .next t ∧
      (∀ g', t.openGroup = some g' → reached m.tag g'.expiry = false) ∧
      t.coin.window <:+ s.coin.window ∧ t.coin.window.length < s.coin.window.length ∧ t.coin.horizon ≠ none ∧
      t.tracker = s.tracker ∧ t.member = s.member ∧ t.evid = s.evid ∧ t.agree = s.agree ∧ t.fault = s.fault) ∧
    (reached m.tag g.expiry = false → exec (.closeExpiry m) s = .next (s.withNow m.tag))

/-- R88 to R92: who publishes a closed group. The owner, the station of its earliest member, asks for an EVENT at once; a station of
rank above 0 waits its publish timeouts; a station with no member does nothing. At the deadline of a WAITING entry the station asks for its
EVENT in the owner's stead, or, refused, drops the entry. -/
def Obligations.GroupPublishedOrPended : Prop :=
  (∀ (m : Moment) (s : State) (g : OpenGroup) (c : Coincidence), Sound m s → s.atWork = true → s.openGroup = some g →
    reached m.tag g.expiry = true → s.coin.window = g.members →
    c = { s.coin with window := [], horizon := moveHorizon s.coin.horizon (g.anchor + span (Block.cw s.block)) } →
    (rankOf s.ownNo g.members = none → exec (.closeExpiry m) s = .next { s.withNow m.tag with coin := c }) ∧
    (rankOf s.ownNo g.members = some 0 → s.link.queue.length < 12 → ∃ t, exec (.closeExpiry m) s = .next t ∧
      t.coin = { c with ownerRefs := c.ownerRefs ++ [s.link.nextRef] } ∧
      t.link.queue = s.link.queue ++
        [⟨s.link.nextRef, .event, eventBytes (buildRecord s.block s.tracker.cycle g.members g.crowded), m.tag⟩]) ∧
    (rankOf s.ownNo g.members = some 0 → 12 ≤ s.link.queue.length → exec (.closeExpiry m) s = .next { s.withNow m.tag with
      coin := { c with counts := { c.counts with eventsDropped := min (c.counts.eventsDropped + 1) 65535 } } }) ∧
    (∀ r, rankOf s.ownNo g.members = some (r + 1) → s.coin.pendingGroups.length < 8 → exec (.closeExpiry m) s =
      .next { s.withNow m.tag with
        coin := { c with pendingGroups := c.pendingGroups ++ [⟨g.members, g.crowded, r + 1,
          m.tag + span ((r + 1) * (Block.publishMs s.block * 1000)), .waiting⟩] } }) ∧
    (∀ r, rankOf s.ownNo g.members = some (r + 1) → 8 ≤ s.coin.pendingGroups.length → exec (.closeExpiry m) s =
      .next { s.withNow m.tag with
        coin := { c with counts := { c.counts with groupsDropped := min (c.counts.groupsDropped + 1) 65535 } } }) ∧
    (∀ e es, g.members = e :: es → (rankOf s.ownNo g.members = some 0 ↔ e.id.station = s.ownNo) ∧
      groupKey g.members = e.id)) ∧
  (∀ (m : Moment) (s : State) (key : HitId) (p : PendingGroup), Sound m s → s.atWork = true →
    deadlineEntry key (s.withNow m.tag) = some p →
    (p ∈ s.coin.pendingGroups ∧ groupKey p.members = key ∧ p.publication = .waiting ∧ reached m.tag p.deadline = true) ∧
    (s.link.queue.length < 12 → ∃ t, exec (.publicationDeadline m key) s = .next t ∧
      t.coin = { s.coin with pendingGroups := s.coin.pendingGroups.map fun q =>
        if q = p then { q with publication := .queued s.link.nextRef } else q } ∧
      t.link.queue = s.link.queue ++
        [⟨s.link.nextRef, .event, eventBytes (buildRecord s.block s.tracker.cycle p.members p.crowded), m.tag⟩] ∧
      t.tracker = s.tracker ∧ t.evid = s.evid ∧ t.member = s.member) ∧
    (12 ≤ s.link.queue.length → exec (.publicationDeadline m key) s = .next { s.withNow m.tag with
      coin := { s.coin with
        pendingGroups := s.coin.pendingGroups.filter (· != p)
        counts := { s.coin.counts with eventsDropped := min (s.coin.counts.eventsDropped + 1) 65535 } } }))

/-- R101 to R106: the lead hits of a group, the first of each sensor in member order; where a group is placed: one sensor by the single-hit
table, two or more by the first entry of the Zone Map that matches the two first lead hits and the time between them, else nowhere; when
an entry matches; the attributes and the other fields of the record, and its member identities. -/
def Obligations.PlacementMethods : Prop :=
  (∀ (b : List Byte) (ms : List HitEntry) (e : HitEntry), leadHits ms = [e] →
    (placeGroup b ms).method = methodSingle ∧
    (placeGroup b ms).segment = Block.singleHit b (4 * (e.id.station - 1) + e.id.channel)) ∧
  (∀ (b : List Byte) (ms rest : List HitEntry) (e1 e2 : HitEntry) (i : Nat), leadHits ms = e1 :: e2 :: rest →
    1 ≤ i → i ≤ Block.zoneCount b →
    zoneMatches b (sensorOf e1) (sensorOf e2) (elapsed e2.localArrival e1.localArrival) i = true →
    (∀ j, 1 ≤ j → j < i →
      zoneMatches b (sensorOf e1) (sensorOf e2) (elapsed e2.localArrival e1.localArrival) j = false) →
    (placeGroup b ms).method = methodPair ∧ (placeGroup b ms).segment = Block.zoneSegment b i) ∧
  (∀ (b : List Byte) (ms rest : List HitEntry) (e1 e2 : HitEntry), leadHits ms = e1 :: e2 :: rest →
    (∀ j, 1 ≤ j → j ≤ Block.zoneCount b →
      zoneMatches b (sensorOf e1) (sensorOf e2) (elapsed e2.localArrival e1.localArrival) j = false) →
    (placeGroup b ms).method = methodNone ∧ (placeGroup b ms).segment = 0) ∧
  (∀ (b : List Byte) (s1 s2 : Nat × Nat) (dt i : Nat), zoneMatches b s1 s2 dt i = true ↔
    Block.zoneFirst b i = s1.1 * 16 + s1.2 ∧ (Block.zoneSecond b i = s2.1 * 16 + s2.2 ∨ Block.zoneSecond b i = 0) ∧
    Block.zoneLow b i ≤ dt ∧ dt ≤ Block.zoneHigh b i) ∧
  (leadHits [] = [] ∧ ∀ (ms : List HitEntry) (e : HitEntry),
    ((∃ x ∈ ms, sensorOf x = sensorOf e) → leadHits (ms ++ [e]) = leadHits ms) ∧
    ((∀ x ∈ ms, sensorOf x ≠ sensorOf e) → leadHits (ms ++ [e]) = leadHits ms ++ [e])) ∧
  (∀ (b : List Byte) (cycle : Option CycleNo) (ms : List HitEntry) (crowded : Bool) (r : EventRecord),
    r = buildRecord b cycle ms crowded →
    r.cycle = cycle ∧ (∀ e es, ms = e :: es → r.phase = e.phase) ∧ r.segment = (placeGroup b ms).segment ∧
    r.method = (placeGroup b ms).method ∧ r.hitCount = ms.length ∧ r.sensorCount = (leadHits ms).length ∧
    (∀ e ∈ ms, (featuresOf e).peak ≤ r.peak) ∧ (ms ≠ [] → ∃ e ∈ ms, (featuresOf e).peak = r.peak) ∧
    r.energy = min (ms.map fun e => (featuresOf e).energy).sum 16777215 ∧
    (∀ e ∈ ms, (featuresOf e).duration ≤ r.longest) ∧ (ms ≠ [] → ∃ e ∈ ms, (featuresOf e).duration = r.longest) ∧
    r.ids = ms.map (·.id) ∧
    (r.attrs.getLsbD 0 = true ↔ ∃ e ∈ ms, (featuresOf e).saturated = true) ∧
    (r.attrs.getLsbD 1 = true ↔ ∃ e ∈ ms, (featuresOf e).long = true) ∧
    (r.attrs.getLsbD 2 = true ↔ r.sensorCount < 3) ∧ (r.attrs.getLsbD 3 = true ↔ r.segment = 0) ∧
    (r.attrs.getLsbD 4 = true ↔ ∃ e ∈ ms, ∃ f ∈ ms, e.phase ≠ f.phase) ∧
    (r.attrs.getLsbD 5 = true ↔ ¬ (ms.map sensorOf).Nodup) ∧ r.attrs.getLsbD 6 = crowded ∧ r.attrs.getLsbD 7 = false) ∧
  (∀ (e : HitEntry) (f : Features), e.features = some f → featuresOf e = f)

/-! ## The segment evidence table -/

/-- R111, R112: the overlap rule and the full-list rule of the Applied Event List: what overlaps, what beats, and which entry a full list
gives up: the first, that is the oldest, of the entries with the fewest hits. -/
def Obligations.EventJudgedAgainstList : Prop :=
  (∀ (list : List AppliedEvent) (a : AppliedEvent),
    ((∀ b ∈ list, overlaps a.event b.event = false) → list.length < 96 →
      (judgeEvent list a).list = list ++ [a] ∧ (judgeEvent list a).applied = true) ∧
    ((∃ b ∈ list, overlaps a.event b.event = true) →
      (∀ b ∈ list, overlaps a.event b.event = true → beats a b = true) →
      (judgeEvent list a).list = (list.filter fun b => !overlaps a.event b.event) ++ [a] ∧
        (judgeEvent list a).applied = true) ∧
    ((∃ b ∈ list, overlaps a.event b.event = true ∧ beats a b = false) →
      (judgeEvent list a).list = list ∧ (judgeEvent list a).applied = false ∧ (judgeEvent list a).duplicate = true) ∧
    ((∀ b ∈ list, overlaps a.event b.event = false) → 96 ≤ list.length →
      (judgeEvent list a).full = true ∧
      ((∀ b ∈ list, a.event.hitCount ≤ b.event.hitCount) →
        (judgeEvent list a).list = list ∧ (judgeEvent list a).applied = false) ∧
      ((∃ b ∈ list, b.event.hitCount < a.event.hitCount) → (judgeEvent list a).applied = true ∧
        ∃ pre b post, list = pre ++ b :: post ∧ (judgeEvent list a).list = pre ++ post ++ [a] ∧
          (∀ x ∈ pre, b.event.hitCount < x.event.hitCount) ∧ ∀ x ∈ post, b.event.hitCount ≤ x.event.hitCount))) ∧
  (∀ (a b : AppliedEvent) (x y : HitId), x = a.event.ids.headD ⟨0, 0, 0⟩ → y = b.event.ids.headD ⟨0, 0, 0⟩ →
    (beats a b = true ↔ b.event.hitCount < a.event.hitCount ∨ (a.event.hitCount = b.event.hitCount ∧
      (a.publisher < b.publisher ∨ (a.publisher = b.publisher ∧
        (x.station < y.station ∨ (x.station = y.station ∧
          (x.channel < y.channel ∨ (x.channel = y.channel ∧ x.tag.toNat < y.tag.toNat))))))))) ∧
  (∀ e f : EventRecord, overlaps e f = true ↔ ∃ i ∈ e.ids, i ∈ f.ids)

/-- R118, R119: the fold of one segment: an excluded one is skipped; else it gets a history entry and a quiet run, and makes at most
the one transition of the table. -/
def Obligations.FoldMovesOneSegment : Prop :=
  ∀ (b : List Byte) (closed : Option CycleNo) (es : List AppliedEvent) (r r' : SegmentRecord) (active : Bool),
    r' = foldRecord b closed es r → active = decide (Block.aMin b ≤ min es.length 255) →
    (r.excluded = true → r' = r) ∧
    (r.excluded = false →
      r'.excluded = false ∧ r'.history = (historyEntry es :: r.history).take (Block.histLen b) ∧
      (active = true → r'.quietRun = 0) ∧ (active = false → r'.quietRun = min (r.quietRun + 1) 65535) ∧
      (r.state = .clear → r'.state = if active then .watch else .clear) ∧
      (r.state = .watch → Block.kS b ≤ activeEntries (Block.aMin b) r'.history →
        r'.state = .suspect ∧ r'.suspectSince = some closed) ∧
      (r.state = .watch → activeEntries (Block.aMin b) r'.history < Block.kS b → Block.qW b ≤ r'.quietRun →
        r'.state = .clear) ∧
      (r.state = .watch → activeEntries (Block.aMin b) r'.history < Block.kS b → r'.quietRun < Block.qW b →
        r'.state = .watch) ∧
      (r.state = .suspect → Block.kC b ≤ activeEntries (Block.aMin b) r'.history →
        phaseTest (unionPhases r'.history) = true → r'.state = .cracked ∧ r'.crackedSince = some closed) ∧
      (r.state = .suspect → activeEntries (Block.aMin b) r'.history < Block.kC b ∨
          phaseTest (unionPhases r'.history) = false →
        (Block.qS b ≤ r'.quietRun → r'.state = .watch ∧ r'.suspectSince = none) ∧
        (r'.quietRun < Block.qS b → r'.state = .suspect)) ∧
      (r.state = .cracked → r'.state = .cracked ∧ r'.crackedSince = r.crackedSince))

/-- R122, R123, R124: which segments a CONTROL selects, and what EXCLUDE-SET and RELEASE make of a selected segment. -/
def Obligations.ControlChangesSelectedSegments : Prop :=
  (∀ (nSeg n : Nat) (group mask : Byte), n ∈ selectedSegments nSeg group mask ↔
    ∃ i, i < 8 ∧ mask.getLsbD i = true ∧ n = 8 * group.toNat + 1 + i ∧ n ≤ nSeg) ∧
  (∀ (c : Control) (n : Nat) (r : SegmentRecord), c.kind = .excludeSet → valueBit c n = true → r.excluded = false →
    controlRecord c n r = SegmentRecord.clean true) ∧
  (∀ (c : Control) (n : Nat) (r : SegmentRecord), c.kind = .excludeSet → valueBit c n = true → r.excluded = true →
    controlRecord c n r = r) ∧
  (∀ (c : Control) (n : Nat) (r : SegmentRecord), c.kind = .excludeSet → valueBit c n = false →
    controlRecord c n r = { r with excluded := false }) ∧
  (∀ (c : Control) (n : Nat) (r : SegmentRecord), c.kind = .release → controlRecord c n r = SegmentRecord.clean r.excluded) ∧
  (∀ (nSeg : Nat) (c : Control), controlValid nSeg c = true ↔
    c.group.toNat ≤ (nSeg - 1) / 8 ∧ (c.kind = .release → c.value = 0))

/-- R122, R129, R145: what a CONTROL frame does: one that fails a check is counted; another changes the segments it selects, raises their
notices in segment order (log entry 11), derives the outputs again unless they are held, and is carried once there is a
snapshot; the ninth abandons a transfer in AWAITING. That nothing is carried while there is no snapshot is read from R145 and R149, not
stated in them (log entry 29). -/
def Obligations.ControlFramesAreApplied : Prop :=
  ∀ (m : Moment) (s : State) (l : Lane) (f : RxFrame) (st : Station) (s0 : State), Handed m s l f .control st →
    s0 = frameFinds m f st s → ∃ t, exec (.frameHandlerTake m) s = .next t ∧
      t.tracker = s0.tracker ∧ t.coin = s0.coin ∧ t.coup = s.coup ∧ t.channels = s.channels ∧
      (controlOf f.payload = none ∨ (∃ c, controlOf f.payload = some c ∧ controlValid (Block.nSeg s.block) c = false) →
        t.agree = s.agree ∧ t.port = (raiseAll (presentAgain st s) s).port ∧ t.evid = { s0.evid with
          counts := { s0.evid.counts with
            malformedControls := min (s0.evid.counts.malformedControls + 1) 65535 } }) ∧
      (∀ c, controlOf f.payload = some c → controlValid (Block.nSeg s.block) c = true →
        t.evid.table = controlledTable (Block.nSeg s.block) c s.evid.table ∧ t.evid.age = s.evid.age ∧
        t.evid.applied = s0.evid.applied ∧ t.evid.hold = s.evid.hold ∧
        t.evid.counts = { s.evid.counts with controls := min (s.evid.counts.controls + 1) 65535 } ∧
        (s.agree.standing ≠ .outOfStep → t.evid.warn = (setOutputs t).evid.warn ∧ t.evid.stop = (setOutputs t).evid.stop) ∧
        (s.agree.standing = .outOfStep → t.evid.warn = s.evid.warn ∧ t.evid.stop = s.evid.stop) ∧
        (s.agree.snapshot = none → t.agree = s.agree) ∧
        (s.agree.snapshot ≠ none → s.agree.carry.length < 8 →
          t.agree = { s.agree with carry := s.agree.carry ++ [c] }) ∧
        (s.agree.snapshot ≠ none → 8 ≤ s.agree.carry.length →
          (∀ d k v n r b, s.agree.transfer = .awaiting d k v n r b → t.agree = transferGone s.agree) ∧
          ((∀ d k v n r b, s.agree.transfer ≠ .awaiting d k v n r b) →
            t.agree = { s.agree with carryOverflow := true })) ∧
        t.port = (raiseAll (presentAgain st s ++
          segmentNotices s0.tracker.cycle (controlCause c) s.evid.table (controlledTable (Block.nSeg s.block) c s.evid.table) ++
          (if s.agree.snapshot ≠ none ∧ 8 ≤ s.agree.carry.length then
            (match s.agree.transfer with
              | .awaiting d _ _ _ _ _ => [⟨s0.tracker.cycle, stNo d, .transfer (.abandoned .carry)⟩]
              | _ => [])
          else [])) s).port)

/-- R127: WARN and STOP follow from the Segment Table, and setting them changes nothing else. -/
def Obligations.OutputsFollowTable : Prop :=
  ∀ s : State,
    setOutputs s = { s with evid := { s.evid with
      warn := (setOutputs s).evid.warn, stop := (setOutputs s).evid.stop } } ∧
    ((setOutputs s).evid.warn = true ↔
      ∃ r ∈ s.evid.table, r.excluded = false ∧ (r.state = .suspect ∨ r.state = .cracked)) ∧
    ((setOutputs s).evid.stop = true ↔ 1 ≤ Block.stopCount s.block ∧
      Block.stopCount s.block ≤ (s.evid.table.filter fun r => !r.excluded && r.state == .cracked).length)

/-! ## Agreement between stations -/

/-- R15, R128, R135 to R140, R143: the digest window's expiry makes the decision. Its senders; the adoption of the cycle number that more than half
of them carry (a DIGEST whose closed cycle is no number names none: log entry 16); else the standing of R138 over the contributors; V and the
donor; the standing kept for the DIGEST of the next close (R134, R139), the STANDING notice, the output hold and the outputs; AWAITING, or SENDING with its lead. -/
def Obligations.DigestWindowDecides : Prop :=
  (∀ (m : Moment) (s : State) (w : DigestWindow) (snap : Snapshot) (digest : BitVec 32) (own : Station)
      (senders group : List DigestSender) (adopted : Option CycleNo) (standing : Standing), Sound m s → s.atWork = true →
    s.agree.window = some w → reached m.tag w.due = true → s.agree.snapshot = some snap →
    s.agree.ownDigest = some digest → s.member.number = some own →
    senders = digestSenders (s.withNow m.tag) w own snap digest → adopted = adoptedCycle snap.cycle senders →
    group = senders.filter (fun d => d.cycle == (if adopted = none then snap.cycle else adopted)) →
    standing = (if adopted = none then standingOf (Block.minAge s.block) snap.age digest group else .outOfStep) →
    ∃ t, exec (.digestWindowExpiry m) s = .next t ∧ t.agree.window = none ∧ t.agree.snapshot = some snap ∧
      t.agree.ownDigest = some digest ∧ t.agree.standing = standing ∧ t.agree.decided = standing ∧
      t.agree.counts.decisions = min (s.agree.counts.decisions + 1) 65535 ∧
      t.agree.counts.adoptions = (if adopted = none then s.agree.counts.adoptions
        else min (s.agree.counts.adoptions + 1) 65535) ∧
      (adopted = none → t.tracker = s.tracker) ∧ (∀ k, adopted = some k → t.tracker = adoptCycle k s.tracker) ∧
      (standing = s.agree.standing → t.evid = s.evid) ∧
      (standing ≠ s.agree.standing → standing = .outOfStep →
        t.evid = { s.evid with hold := some (s.evid.warn, s.evid.stop) }) ∧
      (standing ≠ s.agree.standing → standing ≠ .outOfStep →
        t.evid = { (setOutputs s).evid with hold := none }) ∧
      (standing ≠ .outOfStep ∨ majorityDigest (Block.minAge s.block) group = none ∨ s.agree.carryOverflow = false →
        t.port = (if standing = s.agree.standing then s else
          raise ⟨t.tracker.cycle, s.ownNo, .standing standing⟩ s).port) ∧
      (∀ v donor, standing = .outOfStep → majorityDigest (Block.minAge s.block) group = some v →
        donorOf (Block.minAge s.block) group v = some donor →
        (s.agree.carryOverflow = false → t.agree.carry = s.agree.carry ∧ t.agree.carryOverflow = false ∧
          t.agree.transfer = .awaiting donor (if adopted = none then snap.cycle else adopted) v 1 none []) ∧
        (s.agree.carryOverflow = true → t.agree.transfer = .idle ∧ t.agree.carry = [] ∧ t.agree.carryOverflow = false ∧
          t.agree.counts.abandoned = min (s.agree.counts.abandoned + 1) 65535 ∧
          t.port = (raiseAll ((if standing = s.agree.standing then []
              else [⟨t.tracker.cycle, s.ownNo, .standing standing⟩]) ++
            [⟨t.tracker.cycle, stNo donor, .transfer (.abandoned .carry)⟩]) s).port)) ∧
      (standing = .inStep → majorityDigest (Block.minAge s.block) group = some digest →
        donorOf (Block.minAge s.block) group digest = some own →
        (∃ d ∈ senders, d.cycle ≠ snap.cycle ∨ d.digest ≠ digest) →
        t.agree.transfer = .sending 1 (.lead (m.tag + 5000#32)) ∧ t.agree.carry = s.agree.carry) ∧
      ((standing ≠ .outOfStep ∧ standing ≠ .inStep) ∨ majorityDigest (Block.minAge s.block) group = none ∨
        (standing = .inStep ∧ (donorOf (Block.minAge s.block) group digest ≠ some own ∨
          ∀ d ∈ senders, d.cycle = snap.cycle ∧ d.digest = digest)) →
        t.agree.transfer = s.agree.transfer ∧ t.agree.carry = s.agree.carry) ∧
      t.evid.table = s.evid.table ∧ t.link = s.link ∧ t.channels = s.channels ∧ t.coin = s.coin ∧ t.coup = s.coup ∧
      t.member = s.member) ∧
  (∀ (s : State) (w : DigestWindow) (own : Station) (snap : Snapshot) (digest : BitVec 32) (x : DigestSender),
    (x ∈ digestSenders s w own snap digest ↔ x = ⟨own, snap.cycle, digest, snap.age⟩ ∨ ∃ d, x.station ≠ own ∧
      (s.member.peers.get x.station).state = .present ∧ (s.member.peers.get x.station).digest = some d ∧
      reached d.arrival (w.closeMoment - span (Block.digestWindow10Ms s.block * 10000)) = true ∧
      reached s.now d.arrival = true ∧ x = ⟨x.station, d.cycle, d.digest, d.age⟩) ∧
    (digestSenders s w own snap digest).Pairwise fun a b => stNo a.station < stNo b.station) ∧
  (∀ (own : Option CycleNo) (ds : List DigestSender) (k : CycleNo), adoptedCycle own ds = some k ↔
    own ≠ some k ∧ ds.length < 2 * (ds.filter fun d => d.cycle == some k).length) ∧
  (∀ (minAge : Nat) (cs : List DigestSender), seasonedOf minAge cs =
    if (∃ c ∈ cs, minAge ≤ c.age) then cs.filter fun c => minAge ≤ c.age else cs) ∧
  (∀ (minAge : Nat) (cs : List DigestSender) (v : BitVec 32), majorityDigest minAge cs = some v ↔
    (seasonedOf minAge cs).length < 2 * ((seasonedOf minAge cs).filter fun d => d.digest == v).length) ∧
  (∀ (minAge : Nat) (cs : List DigestSender) (v : BitVec 32) (d : Station), donorOf minAge cs v = some d ↔
    ∃ pre x post, seasonedOf minAge cs = pre ++ x :: post ∧ x.digest = v ∧ x.station = d ∧ ∀ y ∈ pre, y.digest ≠ v) ∧
  (∀ (minAge age : Nat) (d : BitVec 32) (cs : List DigestSender),
    (cs.length ≤ 1 → standingOf minAge age d cs = if minAge ≤ age then .alone else .novice) ∧
    (2 ≤ cs.length → majorityDigest minAge cs = none → standingOf minAge age d cs = .split) ∧
    (2 ≤ cs.length → majorityDigest minAge cs = some d → standingOf minAge age d cs = .inStep) ∧
    (∀ v, 2 ≤ cs.length → majorityDigest minAge cs = some v → v ≠ d → standingOf minAge age d cs = .outOfStep)) ∧
  (∀ (k c l : CycleNo) (t : Tracker), t.cycle = some c → t.lastClosed = some l →
    adoptCycle k t = { t with cycle := some (c + (k - l)), lastClosed := some k })

/-- R140, R141, R142: the transfer lead's expiry asks for the ROW of the snapshot's next four records; refused, the transfer is
aborted. -/
def Obligations.TransferLeadSendsRow : Prop :=
  ∀ (m : Moment) (s : State) (n : Nat) (d : Tag) (snap : Snapshot) (row : RowFrame), Sound m s → s.atWork = true →
    s.agree.transfer = .sending n (.lead d) → reached m.tag d = true → s.agree.snapshot = some snap →
    row = { cycle := snap.cycle, digest := s.agree.ownDigest.getD 0, age := snap.age, first := n
            count := ((snap.records.drop (n - 1)).take 4).length
            last := n - 1 + ((snap.records.drop (n - 1)).take 4).length == snap.records.length
            records := (snap.records.drop (n - 1)).take 4 } →
    (s.link.queue.length < 12 → (∀ x ∈ s.link.queue, x.kind ≠ .row) → ∃ t, exec (.transferLeadExpiry m) s = .next t ∧
      t.agree = { s.agree with transfer := .sending (n + row.count) (.row s.link.nextRef row.last) } ∧
      t.link.queue = s.link.queue ++ [⟨s.link.nextRef, .row, rowBytes (Block.histLen s.block) row, m.tag⟩] ∧
      t.evid = s.evid ∧ t.tracker = s.tracker ∧ t.member = s.member) ∧
    (12 ≤ s.link.queue.length ∨ (∃ x ∈ s.link.queue, x.kind = .row) → exec (.transferLeadExpiry m) s =
      .next (raise ⟨s.tracker.cycle, s.ownNo, .transfer .aborted⟩ { s.withNow m.tag with
        agree := { s.agree with
          transfer := .idle, counts := { s.agree.counts with aborted := min (s.agree.counts.aborted + 1) 65535 } } }))

/-- R126, R144 to R147: what a ROW frame does. Only the next ROW in segment order from the donor of the awaited transfer is taken, a repeat
is ignored, another order abandons the transfer; the last ROW completes it if the digest of its records matches: the table is replaced
by the donor's, the carried CONTROLs are applied to it again, and the station is IN-STEP. The model's choices: outside RUNNING a ROW has no
effect in the Agreement Unit and is not counted (R149; log entry 29), the digest is taken over the records as kept (log entry 38), and the order
of the notices (log entry 11). -/
def Obligations.RowFramesAreTaken : Prop :=
  (∀ (m : Moment) (s : State) (l : Lane) (f : RxFrame) (st : Station) (s0 : State) (row : RowFrame),
    Handed m s l f .row st → s0 = frameFinds m f st s → row = rowOf (Block.histLen s.block) f.payload →
    ∃ t, exec (.frameHandlerTake m) s = .next t ∧
      t.tracker = s0.tracker ∧ t.coin = s0.coin ∧ t.coup = s.coup ∧ t.channels = s.channels ∧
      (s0.member.station ≠ .running ∨ f.own = true → t.agree = s.agree ∧ t.evid = s0.evid ∧
        t.port = (raiseAll (presentAgain st s) s).port) ∧
      (s0.member.station = .running → f.own = false →
        ((∀ d c v n r b, s.agree.transfer ≠ .awaiting d c v n r b) ∨
          (∃ d c v n r b, s.agree.transfer = .awaiting d c v n r b ∧
            (st ≠ d ∨ row.cycle ≠ c ∨ row.digest ≠ v ∨ repeatsRow row r = true)) →
          t.evid = s0.evid ∧ t.port = (raiseAll (presentAgain st s) s).port ∧ t.agree = { s.agree with
            counts := { s.agree.counts with rowsIgnored := min (s.agree.counts.rowsIgnored + 1) 65535 } }) ∧
        (∀ n r b, s.agree.transfer = .awaiting st row.cycle row.digest n r b → repeatsRow row r = false →
          (nextInOrder (Block.nSeg s.block) n row = false → t.agree = transferGone s.agree ∧ t.evid = s0.evid ∧
            t.port = (raiseAll (presentAgain st s ++
              [⟨s0.tracker.cycle, stNo st, .transfer (.abandoned .order)⟩]) s).port) ∧
          (nextInOrder (Block.nSeg s.block) n row = true → row.last = false → t.evid = s0.evid ∧
            t.port = (raiseAll (presentAgain st s) s).port ∧ t.agree = { s.agree with
              transfer := .awaiting st row.cycle row.digest (n + row.count) (some row) (b ++ row.records) }) ∧
          (nextInOrder (Block.nSeg s.block) n row = true → row.last = true →
            digestOf (Block.histLen s.block) row.cycle row.age (b ++ row.records) ≠ row.digest →
            t.agree = transferGone s.agree ∧ t.evid = s0.evid ∧ t.port = (raiseAll (presentAgain st s ++
              [⟨s0.tracker.cycle, stNo st, .transfer (.abandoned .mismatch)⟩]) s).port) ∧
          (nextInOrder (Block.nSeg s.block) n row = true → row.last = true →
            digestOf (Block.histLen s.block) row.cycle row.age (b ++ row.records) = row.digest →
            t.evid.table = carriedTable (Block.nSeg s.block) s.agree.carry (b ++ row.records) ∧ t.evid.age = row.age ∧
            t.evid.applied = s0.evid.applied ∧
            t.evid.counts = { s.evid.counts with
              controls := s.agree.carry.foldl (fun k _ => min (k + 1) 65535) s.evid.counts.controls } ∧
            t.agree = { s.agree with
              standing := .inStep, transfer := .idle, carry := [], carryOverflow := false
              counts := { s.agree.counts with completed := min (s.agree.counts.completed + 1) 65535 } } ∧
            (s.agree.standing ≠ .inStep → t.evid.hold = none ∧ t.evid.warn = (setOutputs t).evid.warn ∧
              t.evid.stop = (setOutputs t).evid.stop) ∧
            t.port = (raiseAll (presentAgain st s ++
              segmentNotices s0.tracker.cycle .transfer s.evid.table (b ++ row.records) ++
              carriedNotices (Block.nSeg s.block) s0.tracker.cycle s.agree.carry (b ++ row.records) ++
              (if s.agree.standing = .inStep then [] else [⟨s0.tracker.cycle, s.ownNo, .standing .inStep⟩]) ++
              [⟨s0.tracker.cycle, stNo st, .transfer .completed⟩]) s).port)))) ∧
  (∀ (nSeg n : Nat) (row : RowFrame), nextInOrder nSeg n row = true ↔ row.first = n ∧ 1 ≤ row.count ∧ row.count ≤ 4 ∧
    row.first + row.count ≤ nSeg + 1 ∧ (row.last = true ↔ row.first + row.count = nSeg + 1)) ∧
  (∀ (row : RowFrame) (r : Option RowFrame), repeatsRow row r = true ↔ ∃ p, r = some p ∧ row.first = p.first ∧
    row.count = p.count ∧ row.records = p.records ∧ row.last = p.last)

/-! ## Coupling checks -/

/-- R37, R151, R152: at the slot tag a DEAD pulse sensor's slot is skipped; else the channel is armed and a PULSE asked for, or the slot waits
for a channel that cannot take the request. A slot whose wait runs out is skipped; at the fire tag an armed channel drives its pulse, and
a channel that is not armed leaves the slot skipped and the pulses-fired count as it was (at 65535 it falls by one: log entry 34). -/
def Obligations.SlotWaitsArmsAndFires : Prop :=
  (∀ (m : Moment) (s : State) (tag : Tag) (c : Channel), Sound m s → s.atWork = true → s.coup.slot = .placed tag →
    reached m.tag tag = true → later m.tag (tag + span (Block.pulseSpacingMs s.block * 500)) = false →
    pulseChannel s = some c → NoJudging s →
    ((s.coup.records.get c).state = .dead → exec (.slotTagReached m) s = .next { s.withNow m.tag with
      coup := { s.coup with
        slot := .none, counts := { s.coup.counts with skipped := min (s.coup.counts.skipped + 1) 65535 } } }) ∧
    ((s.coup.records.get c).state ≠ .dead → armable (s.channels.units.get c) = false →
      exec (.slotTagReached m) s = .next { s.withNow m.tag with coup := { s.coup with slot := .waiting tag } }) ∧
    ((s.coup.records.get c).state ≠ .dead → armable (s.channels.units.get c) = true → s.link.queue.length < 12 →
      ∃ t, exec (.slotTagReached m) s = .next t ∧ t.coup = { s.coup with slot := .queued s.link.nextRef } ∧
        t.link.queue = s.link.queue ++ [⟨s.link.nextRef, .pulse, pulseBytes (chNo c), m.tag⟩] ∧
        t.channels.units = s.channels.units.set c { s.channels.units.get c with role := .pulse, state := .hush }) ∧
    ((s.coup.records.get c).state ≠ .dead → armable (s.channels.units.get c) = true → 12 ≤ s.link.queue.length →
      ∃ t, exec (.slotTagReached m) s = .next t ∧ t.coup = { s.coup with
          slot := .none, counts := { s.coup.counts with skipped := min (s.coup.counts.skipped + 1) 65535 } } ∧
        (t.channels.units.get c).role = .listen) ∧
    (armable (s.channels.units.get c) = true ↔ (s.channels.units.get c).role = .listen ∧
      ((s.channels.units.get c).state = .quiet ∨ (s.channels.units.get c).state = .hush))) ∧
  (∀ (m : Moment) (s : State), Sound m s → s.atWork = true → NoJudging s →
    (∀ tag, s.coup.slot = .waiting tag → reached m.tag (tag + span (Block.pulseSpacingMs s.block * 500)) = true →
      exec (.slotWaitEnd m) s = .next { s.withNow m.tag with
        coup := { s.coup with
          slot := .none, counts := { s.coup.counts with skipped := min (s.coup.counts.skipped + 1) 65535 } } }) ∧
    (∀ fire c, s.coup.slot = .announced fire → reached m.tag fire = true → pulseChannel s = some c →
      (s.channels.units.get c).role = .pulse → (s.channels.units.get c).state = .hush →
      exec (.fireTagReached m) s = .next { s.withNow m.tag with
        channels := { s.channels with units := s.channels.units.set c { s.channels.units.get c with
          state := .pulsing, pulseTimer := some (m.tag + span (Block.pulseWidth s.block)) } }
        coup := { s.coup with
          slot := .firing, counts := { s.coup.counts with fired := min (s.coup.counts.fired + 1) 65535 } } }) ∧
    (∀ fire c, s.coup.slot = .announced fire → reached m.tag fire = true → pulseChannel s = some c →
      (s.channels.units.get c).role ≠ .pulse ∨ (s.channels.units.get c).state ≠ .hush → s.coup.counts.fired < 65535 →
      exec (.fireTagReached m) s = .next { s.withNow m.tag with
        coup := { s.coup with
          slot := .none, counts := { s.coup.counts with skipped := min (s.coup.counts.skipped + 1) 65535 } } }))

/-- R154, R159: what a PULSE frame does: outside the current cycle of a RUNNING station, or with its end tag passed (log entry 22), it is ignored;
else its window takes the place of any other, which is abandoned, and is open at once if its fire tag has been reached. -/
def Obligations.PulseFramesPlaceWindow : Prop :=
  ∀ (m : Moment) (s : State) (l : Lane) (f : RxFrame) (st : Station) (s0 : State) (fire finish : Tag)
      (units : Four ChannelUnit), Handed m s l f .pulse st → s0 = frameFinds m f st s →
    fire = f.stamp - span (Block.linkDelay s.block) + 1000#32 →
    finish = fire + span (Block.pulseWindow100Us s.block * 100) →
    units = (if s.windowOpen then s.channels.units.map (fun _ u => closeWindowUnit s.listening u) else s.channels.units) →
    ∃ t, exec (.frameHandlerTake m) s = .next t ∧ t.tracker = s0.tracker ∧ t.coin = s0.coin ∧ t.evid = s0.evid ∧
      t.agree = s.agree ∧ t.port = (raiseAll (presentAgain st s) s).port ∧
      (s0.member.station ≠ .running ∨ f.cycle ≠ s0.tracker.cycle ∨ later m.tag finish = true →
        t.channels = s.channels ∧ t.coup = { s.coup with
          counts := { s.coup.counts with ignored := min (s.coup.counts.ignored + 1) 65535 } }) ∧
      (s0.member.station = .running → f.cycle = s0.tracker.cycle → later m.tag finish = false →
        t.coup.window = some ⟨if reached m.tag fire then .isOpen else .pending, st, fire, finish, .all .none⟩ ∧
        t.coup.counts.abandoned = (if s.coup.window = none then s.coup.counts.abandoned
          else min (s.coup.counts.abandoned + 1) 65535) ∧
        t.coup.records = s.coup.records ∧ t.coup.counts.ignored = s.coup.counts.ignored ∧
        (NoWaiting s → t.coup.slot = s.coup.slot ∧ t.coup.counts.skipped = s.coup.counts.skipped ∧
          t.channels.units = if reached m.tag fire then units.map (fun _ u => openWindowUnit u) else units))

/-- R38, R39, R154, R156, R157, R158: at its fire tag a pending pulse window opens and the channels listen; at its end tag they go back, and
the window is judged once no kept capture is open and the pulser's slot is NONE: at the end tag, or later out of JUDGING, when a sample
ends the last capture, a sample loss withdraws it or cuts the pulse, the recovery time ends, or a waiting pulse request, offered again as
a lockout ends or a lost channel returns, finds the transmit queue full and the slot is skipped. `windowJudged` (Safety.lean) spells out
the judgment of each own sensor with its SENSOR STATE notice and what a mute or unmute request does to the channel; the judgment of a
coupling record. The order of the sensors, and that a SAMPLE LOSS notice comes before theirs, is log entry 11. -/
def Obligations.PulseWindowJudged : Prop :=
  (∀ (m : Moment) (s : State) (w : PulseWindow), Sound m s → s.atWork = true → s.coup.window = some w → NoWaiting s →
    (w.stage = .pending → reached m.tag w.fire = true → exec (.windowFireTag m) s = .next { s.withNow m.tag with
      channels := { s.channels with units := s.channels.units.map fun _ u => openWindowUnit u }
      coup := { s.coup with window := some { w with stage := .isOpen } } }) ∧
    (w.stage = .isOpen → reached m.tag w.finish = true → judgeable s { w with stage := .judging } = false →
      exec (.endTagReached m) s = .next { s.withNow m.tag with
        channels := { s.channels with units := s.channels.units.map fun _ u => closeWindowUnit s.listening u }
        coup := { s.coup with window := some { w with stage := .judging } } }) ∧
    (w.stage = .isOpen → reached m.tag w.finish = true → judgeable s { w with stage := .judging } = true →
      ∃ t, exec (.endTagReached m) s = .next t ∧ t.coup.window = none ∧
        t.coup.counts.judged = min (s.coup.counts.judged + 1) 65535 ∧
        (∀ c, Block.refPulser s.block (4 * (s.ownNo - 1) + chNo c) = stNo w.pulser → t.coup.records.get c =
          (judgeRecord (passLevel s (4 * (s.ownNo - 1) + chNo c)) (w.captures.get c) (s.coup.records.get c)).1) ∧
        (∀ c, Block.refPulser s.block (4 * (s.ownNo - 1) + chNo c) ≠ stNo w.pulser →
          t.coup.records.get c = s.coup.records.get c) ∧
        t.tracker = s.tracker ∧ t.evid = s.evid ∧ t.agree = s.agree ∧
        t = windowJudged w { s.withNow m.tag with
          channels := { s.channels with units := s.channels.units.map fun _ u => closeWindowUnit s.listening u }
          coup := { s.coup with window := some { w with stage := .judging } } }) ∧
    (judgeable s { w with stage := .judging } = true ↔ (∀ c tag, w.captures.get c ≠ .started tag) ∧
      (stNo w.pulser = s.ownNo → s.coup.slot = .none))) ∧
  (∀ (m : Moment) (s found : State) (w w' : PulseWindow) (ch : Channel) (u : ChannelUnit), Sound m s → s.atWork = true →
    s.coup.window = some w → w.stage = .judging → NoWaiting s →
    (∀ (v : Half) (h : OpenHit), (s.channels.units.get ch).state = .inHit → (s.channels.units.get ch).openHit = some h →
      h.kind = .capture → w.captures.get ch = .started h.arrival →
      (Block.hitCapMs s.block * 1000 ≤ elapsed m.tag h.arrival ∨
        (amplitude (envelope v) < h.threshold ∧ Block.hdt s.block ≤ elapsed m.tag h.lastCrossing)) →
      w' = { w with captures := w.captures.set ch (.peaked h.peak) } →
      u = { s.channels.units.get ch with
        watch := watchSample m.tag (s.channels.units.get ch).watch, state := .lockout, openHit := none
        lockout := some (m.tag + span (Block.hlt s.block)) } →
      found = { s.withNow m.tag with
        channels := { s.channels with units := s.channels.units.set ch u }, coup := { s.coup with window := some w' } } →
      exec (.sample m ch v) s = .next (if judgeable s w' = true then windowJudged w' found else found)) ∧
    (∀ (last : Tag) (h : OpenHit), (s.channels.units.get ch).state = .inHit → (s.channels.units.get ch).openHit = some h →
      h.kind = .capture → w.captures.get ch = .started h.arrival → (s.channels.units.get ch).watch = .watching last →
      8 ≤ elapsed m.tag last → w' = { w with captures := w.captures.set ch .withdrawn } →
      u = { ChannelUnit.reset with watch := .lost none, losses := min ((s.channels.units.get ch).losses + 1) 255 } →
      found = raise ⟨s.tracker.cycle, packSensor s.ownNo (chNo ch), .sampleLoss true⟩ { s.withNow m.tag with
        channels := { s.channels with units := s.channels.units.set ch u }, coup := { s.coup with window := some w' } } →
      exec (.sampleLoss m ch) s = .next (if judgeable s w' = true then windowJudged w' found else found)) ∧
    (∀ last : Tag, (s.channels.units.get ch).state = .pulsing ∨ (s.channels.units.get ch).state = .recover →
      (s.channels.units.get ch).openHit = none → s.coup.slot = .firing → (s.channels.units.get ch).watch = .watching last →
      8 ≤ elapsed m.tag last →
      u = { ChannelUnit.reset with watch := .lost none, losses := min ((s.channels.units.get ch).losses + 1) 255 } →
      found = raise ⟨s.tracker.cycle, packSensor s.ownNo (chNo ch), .sampleLoss true⟩ { s.withNow m.tag with
        channels := { s.channels with units := s.channels.units.set ch u }, coup := { s.coup with slot := .none } } →
      exec (.sampleLoss m ch) s = .next (if judgeable found w = true then windowJudged w found else found)) ∧
    (∀ (d : Tag) (back : ChannelUnit), (s.channels.units.get ch).state = .recover → (s.channels.units.get ch).openHit = none →
      s.coup.slot = .firing → (s.channels.units.get ch).pulseTimer = some d → reached m.tag d = true →
      back = { s.channels.units.get ch with
        role := .listen, state := if s.listening then .quiet else .hush, pulseTimer := none } →
      u = (if (s.coup.records.get ch).state = .dead then askedUnit s.listening .mute back else back) →
      found = { s.withNow m.tag with
        channels := { s.channels with units := s.channels.units.set ch u }, coup := { s.coup with slot := .none } } →
      exec (.recoveryEnd m ch) s = .next (if judgeable found w = true then windowJudged w found else found))) ∧
  (∀ (m : Moment) (s found : State) (w : PulseWindow) (ch : Channel) (tag : Tag) (u : ChannelUnit), Sound m s → s.atWork = true →
    s.coup.window = some w → w.stage = .judging → s.coup.slot = .waiting tag →
    later m.tag (tag + span (Block.pulseSpacingMs s.block * 500)) = false → pulseChannel s = some ch →
    12 ≤ s.link.queue.length → (s.coup.records.get ch).state ≠ .dead →
    found = { s.withNow m.tag with
      channels := { s.channels with units := s.channels.units.set ch u }
      coup := { s.coup with
        slot := .none, counts := { s.coup.counts with skipped := min (s.coup.counts.skipped + 1) 65535 } } } →
    (∀ d : Tag, (s.channels.units.get ch).state = .lockout → (s.channels.units.get ch).role = .listen →
      (s.channels.units.get ch).lockout = some d → reached m.tag d = true →
      u = { s.channels.units.get ch with
        state := if s.listening then .quiet else .hush, lockout := none, pulseTimer := none } →
      exec (.lockoutTimerExpiry m ch) s = .next (if judgeable found w = true then windowJudged w found else found)) ∧
    (∀ (start last : Tag) (back : State), (s.channels.units.get ch).watch = .lost (some (start, last)) →
      1000 ≤ elapsed m.tag start → elapsed m.tag last < 8 → (s.channels.units.get ch).openHit = none →
      u = { s.channels.units.get ch with
        state := if s.listening then .quiet else .hush, role := .listen, floorWindow := [], openHit := none
        lockout := none, pulseTimer := none, watch := .watching last } →
      back = raise ⟨s.tracker.cycle, packSensor s.ownNo (chNo ch), .sampleLoss false⟩ found →
      exec (.sampleRecovery m ch) s = .next (if judgeable back w = true then windowJudged w back else back))) ∧
  (∀ (pass : Nat) (r : CouplingRecord) (cap : Capture),
    (∀ p, pass ≤ p → (judgeRecord pass (.peaked p) r).1 = ⟨.good, some p, 0⟩) ∧
    (∀ p, p < pass → (judgeRecord pass (.peaked p) r).1 = ⟨.weak, some p, 0⟩) ∧
    (∀ p, (judgeRecord pass (.peaked p) r).2 = if r.state = .dead then .unmute else .none) ∧
    ((∀ p, cap ≠ .peaked p) → r.state = .dead → judgeRecord pass cap r = (r, .none)) ∧
    ((∀ p, cap ≠ .peaked p) → r.state ≠ .dead → r.misses = 0 →
      judgeRecord pass cap r = ({ r with misses := 1 }, .none)) ∧
    ((∀ p, cap ≠ .peaked p) → r.state ≠ .dead → 1 ≤ r.misses →
      judgeRecord pass cap r = ({ r with state := .dead, misses := 2 }, .mute)))

/-! ## Integrity, faults and logout -/

/-- R40, R63, R85, R98, R118, R132, R141, R161, R163, R164, R166: a scrub read of a sound word, or of the word set aside, moves the scrub on
through the three stores and changes nothing else, whatever other words have flipped; one that finds a flipped bit in a freezing store
freezes a station at work; so does the read of a faulty word by READ SEGMENT, by a fold, which is left part done, of N_SEG by a fold, of
which nothing is done, and by the taking of a snapshot after another close, of N_SEG, H or the snapshot by the making of a ROW, which is
not requested, and, of CW or GA, by the forming of the group as an own hit enters the Hit Window or a sample loss takes one out. That any
listed flip makes its word faulty, and what a word is, are the model's choices (log entries 5 and 6), and so are where in a step a word is
read and what the re-forming reads (log entries 7 and 46), and that READ SEGMENT's reply is fixed with the record as read before the fault
is acted on (log entry 35). -/
def Obligations.FaultyReadFreezesStation : Prop :=
  (∀ (m : Moment) (s : State) (w : StoreWord), m.upsets = [] → s.resetHeld = false → s.linkUp = true → w = s.fault.scrub →
    (∀ u ∈ s.fault.flipped, u.word ≠ w) ∨ s.fault.faultedWord = some w →
    ∃ w', exec (.scrubRead m) s = .next { s.withNow m.tag with fault := { s.fault with scrub := w' } } ∧
      (∀ i, w = .config i → i + 1 < 2048 → w' = .config (i + 1)) ∧
      (∀ i, w = .config i → 2048 ≤ i + 1 → s.evid.table ≠ [] → w' = .segment 1) ∧
      (∀ i, w = .config i → 2048 ≤ i + 1 → s.evid.table = [] → w' = .config 0) ∧
      (∀ n, w = .segment n → n < s.evid.table.length → w' = .segment (n + 1)) ∧
      (∀ n, w = .segment n → s.evid.table.length ≤ n → s.agree.snapshot ≠ none → w' = .snapshot 0) ∧
      (∀ n, w = .segment n → s.evid.table.length ≤ n → s.agree.snapshot = none → w' = .config 0) ∧
      (∀ n, w = .snapshot n → n < s.evid.table.length → w' = .snapshot (n + 1)) ∧
      (∀ n, w = .snapshot n → s.evid.table.length ≤ n → w' = .config 0)) ∧
  (∀ (m : Moment) (s : State) (w : StoreWord), m.upsets = [] → s.resetHeld = false → s.atWork = true →
    w = s.fault.scrub → (∃ u ∈ s.fault.flipped, u.word = w) → s.fault.faultedWord ≠ some w →
    w = .config 0x10 ∨ (∀ u ∈ s.fault.flipped, u.word ≠ .config 0x10) ∨
      (∃ c stamp, s.link.current = some c ∧ c.attempt = .transmitting stamp) →
    ∃ t, exec (.scrubRead m) s = .next t ∧ t.member = { s.member with station := .frozen } ∧
      t.fault.faultedWord = some w ∧ t.fault.logout = some .part1 ∧ t.fault.logoutTimer = some (m.tag + 100000) ∧
      t.fault.softFaults = s.fault.softFaults ∧
      t.fault.record = { kind := some .scrub, store := some (storeOf w), cycle := some s.tracker.cycle
                         phase := some s.tracker.phase, tag := some m.tag, partsSent := 0, doubleFault := false
                         restarts := s.fault.record.restarts } ∧
      t.tracker = s.tracker ∧ t.evid = s.evid ∧ t.agree = s.agree ∧ t.coup = s.coup ∧ t.port = s.port ∧
      t.coin = { s.coin with window := [], horizon := none, pendingGroups := [], ownerRefs := [] } ∧
      t.channels.queue = [] ∧
      (∀ c, t.channels.units.get c = { ChannelUnit.reset with losses := (s.channels.units.get c).losses }) ∧
      (s.link.current = none → ∃ d, t.link.queue = [d] ∧ d.kind = .logout ∧ d.ref = s.link.nextRef)) ∧
  (∀ (m : Moment) (s : State) (n : Byte) (w : StoreWord), w = .segment n.toNat → OnlyBad m s w → s.atWork = true →
    s.port.slot = none → s.port.checking = false → 1 ≤ n.toNat → n.toNat ≤ Block.nSeg s.block →
    ∃ t, exec (.readSegment m n) s = .next t ∧
      t.member = { s.member with station := .frozen } ∧ t.fault.faultedWord = some w ∧
      t.fault.logout = some .part1 ∧ t.fault.logoutTimer = some (m.tag + 100000) ∧
      t.fault.record = { kind := some .read, store := some .segmentTable, cycle := some s.tracker.cycle
                         phase := some s.tracker.phase, tag := some m.tag, partsSent := 0, doubleFault := false
                         restarts := s.fault.record.restarts } ∧
      t.port = { s.port with slot := some ⟨.readSegment, .done, segmentReply n.toNat s⟩ } ∧ t.tracker = s.tracker ∧
      t.evid = s.evid ∧ t.agree = s.agree ∧ t.coup = s.coup) ∧
  (∀ (m : Moment) (s : State) (d : Tag) (k : Nat) (w : StoreWord), w = .segment k → OnlyBad m s w → s.atWork = true →
    s.tracker.isOpen = true → s.tracker.settle = some d → reached m.tag d = true → s.tracker.disordered = false →
    s.tracker.abandoned = false → 1 ≤ k → k ≤ s.evid.table.length →
    ∃ t, exec (.settleTimerExpiry m) s = .next t ∧
      t.member = { s.member with station := .frozen } ∧ t.fault.faultedWord = some w ∧
      t.fault.logout = some .part1 ∧ t.fault.logoutTimer = some (m.tag + 100000) ∧
      t.fault.record = { kind := some .read, store := some .segmentTable, cycle := some s.tracker.cycle
                         phase := some s.tracker.phase, tag := some m.tag, partsSent := 0, doubleFault := false
                         restarts := s.fault.record.restarts } ∧
      t.evid = { s.evid with table := s.evid.table.mapIdx fun i r =>
        if i + 1 < k then foldRecord s.block s.tracker.cycle (entriesOn s.block s.evid.applied (i + 1)) r else r } ∧
      t.tracker = { s.tracker with
        isOpen := false, settle := none, lastClosed := s.tracker.cycle, lastDisordered := false
        lastAbandoned := false } ∧
      t.agree = s.agree ∧ t.coup = s.coup ∧ t.port = s.port) ∧
  (∀ (m : Moment) (s : State) (d : Tag) (w : StoreWord), w = .config 0x1A → OnlyBad m s w → s.atWork = true →
    s.tracker.isOpen = true → s.tracker.settle = some d → reached m.tag d = true →
    ∃ t, exec (.settleTimerExpiry m) s = .next t ∧
      t.member = { s.member with station := .frozen } ∧ t.fault.faultedWord = some w ∧
      t.fault.logout = some .part1 ∧ t.fault.logoutTimer = some (m.tag + 100000) ∧
      t.fault.record = { kind := some .read, store := some .configuration, cycle := some s.tracker.cycle
                         phase := some s.tracker.phase, tag := some m.tag, partsSent := 0, doubleFault := false
                         restarts := s.fault.record.restarts } ∧
      t.tracker = { s.tracker with
        isOpen := false, settle := none, lastClosed := s.tracker.cycle, lastDisordered := s.tracker.disordered
        lastAbandoned := s.tracker.abandoned } ∧
      t.coup = s.coup ∧
      (s.tracker.disordered = false → s.tracker.abandoned = false → t.evid = s.evid ∧ t.agree = s.agree ∧ t.port = s.port) ∧
      (s.tracker.disordered = true ∨ s.tracker.abandoned = true →
        t.evid = { s.evid with
          applied := []
          counts := { s.evid.counts with
            unfolded := min (s.evid.counts.unfolded + s.evid.applied.length) 65535 } } ∧
        t.agree = { s.agree with
          window := none, transfer := .idle, carry := [], carryOverflow := false
          counts := { s.agree.counts with
            cut := if s.agree.window = none then s.agree.counts.cut else min (s.agree.counts.cut + 1) 65535
            abandoned := match s.agree.transfer with
              | .awaiting .. => min (s.agree.counts.abandoned + 1) 65535
              | _ => s.agree.counts.abandoned } })) ∧
  (∀ (m : Moment) (s : State) (n : Nat) (d : Tag) (snap : Snapshot) (w : StoreWord), OnlyBad m s w →
    s.atWork = true → s.agree.transfer = .sending n (.lead d) → reached m.tag d = true → s.agree.snapshot = some snap →
    w = .config 0x1A ∨ w = .config 0x1B ∨
      (∃ k, w = .snapshot k ∧ (k = 0 ∨ (n ≤ k ∧ k < n + ((snap.records.drop (n - 1)).take 4).length))) →
    ∃ t, exec (.transferLeadExpiry m) s = .next t ∧
      t.member = { s.member with station := .frozen } ∧ t.fault.faultedWord = some w ∧
      t.fault.logout = some .part1 ∧ t.fault.logoutTimer = some (m.tag + 100000) ∧
      t.fault.record = { kind := some .read, store := some (storeOf w), cycle := some s.tracker.cycle
                         phase := some s.tracker.phase, tag := some m.tag, partsSent := 0, doubleFault := false
                         restarts := s.fault.record.restarts } ∧
      t.tracker = s.tracker ∧ t.evid = s.evid ∧ t.agree = s.agree ∧ t.coup = s.coup ∧ t.port = s.port) ∧
  (∀ (m : Moment) (s : State) (ch : Channel) (k : Nat) (w : StoreWord) (cmd : Instr), w = .config k →
    k = 0x16 ∨ k = 0x17 ∨ k = 0x18 → OnlyBad m s w → s.atWork = true →
    (∃ v, cmd = .sample m ch v ∧ s.member.station = .running ∧ s.tracker.isOpen = true ∧ s.windowOpen = false ∧
        (s.channels.units.get ch).state = .quiet ∧
        s.threshold (noteSample m.tag (envelope v) (s.channels.units.get ch)) ≤ amplitude (envelope v) ∧
        s.coin.window.length < 64) ∨
      (∃ h last, cmd = .sampleLoss m ch ∧ (s.channels.units.get ch).state = .inHit ∧
        (s.channels.units.get ch).openHit = some h ∧ h.kind = .own ∧
        (s.channels.units.get ch).watch = .watching last ∧ 8 ≤ elapsed m.tag last ∧
        (∃ e ∈ s.coin.window, e.id = ⟨s.ownNo, chNo ch, h.arrival⟩) ∧
        ∃ e ∈ s.coin.window, e.id ≠ ⟨s.ownNo, chNo ch, h.arrival⟩) →
    ∃ t, exec cmd s = .next t ∧
      t.member = { s.member with station := .frozen } ∧ t.fault.faultedWord = some w ∧
      t.fault.logout = some .part1 ∧ t.fault.logoutTimer = some (m.tag + 100000) ∧
      t.fault.record = { kind := some .read, store := some .configuration, cycle := some s.tracker.cycle
                         phase := some s.tracker.phase, tag := some m.tag, partsSent := 0, doubleFault := false
                         restarts := s.fault.record.restarts } ∧
      t.coin = { s.coin with window := [], horizon := none, pendingGroups := [], ownerRefs := [] } ∧
      t.tracker = s.tracker ∧ t.evid = s.evid ∧ t.agree = s.agree ∧ t.coup = s.coup ∧ t.port = s.port)

/-- R79, R80, R85, R95, R110, R161, R162: a faulty entry of the Hit Window is removed when an own hit is offered (before the window is found
full: log entry 39) and when the group is formed after a removal (log entry 46), one of the Applied Event List when an event is judged or
the cycle is folded; each is a soft fault, and the read goes on with what remains. A faulty word is log entry 5. -/
def Obligations.SoftFaultsDropEntries : Prop :=
  (∀ (m : Moment) (s : State) (ch : Channel) (v : Half) (e : HitEntry) (kept : List HitEntry), m.upsets = [] →
    s.resetHeld = false → s.fault.faultedWord = none → (∀ u ∈ s.fault.flipped, ∃ id, u.word = .window id) →
    s.fault.softFaults ≤ 65535 → s.member.station = .running → s.tracker.isOpen = true → s.windowOpen = false →
    (s.channels.units.get ch).state = .quiet →
    s.threshold (noteSample m.tag (envelope v) (s.channels.units.get ch)) ≤ amplitude (envelope v) →
    e = ⟨⟨s.ownNo, chNo ch, m.tag⟩, m.tag, s.tracker.phase, none, true⟩ →
    kept = s.coin.window.filter (fun x => !(s.fault.flipped.any fun u => u.word == .window x.id)) →
    ∃ t, exec (.sample m ch v) s = .next t ∧ t.fault.record = s.fault.record ∧ t.member = s.member ∧ t.port = s.port ∧
      t.fault.softFaults = min (s.fault.softFaults + (s.coin.window.length - kept.length)) 65535 ∧
      (kept.length < 64 → ∀ x, x ∈ t.coin.window ↔ x = e ∨ x ∈ kept) ∧
      (64 ≤ kept.length → t.coin.window = kept)) ∧
  (∀ (m : Moment) (s : State) (ch : Channel) (h : OpenHit) (last : Tag) (rest kept : List HitEntry), m.upsets = [] →
    s.resetHeld = false → s.fault.faultedWord = none → (∀ u ∈ s.fault.flipped, ∃ id, u.word = .window id) →
    s.fault.softFaults ≤ 65535 → s.atWork = true → (s.channels.units.get ch).state = .inHit →
    (s.channels.units.get ch).openHit = some h → h.kind = .own → (s.channels.units.get ch).watch = .watching last →
    8 ≤ elapsed m.tag last → (∃ e ∈ s.coin.window, e.id = ⟨s.ownNo, chNo ch, h.arrival⟩) →
    rest = s.coin.window.filter (fun x => x.id != ⟨s.ownNo, chNo ch, h.arrival⟩) →
    kept = rest.filter (fun x => !(s.fault.flipped.any fun u => u.word == .window x.id)) →
    NoJudging s →
    ∃ t, exec (.sampleLoss m ch) s = .next t ∧ t.coin = { s.coin with window := kept } ∧
      t.fault.softFaults = min (s.fault.softFaults + (rest.length - kept.length)) 65535 ∧
      t.fault.record = s.fault.record ∧ t.member = s.member) ∧
  (∀ (m : Moment) (s : State) (d : Tag) (kept : List AppliedEvent), m.upsets = [] → s.resetHeld = false →
    s.fault.faultedWord = none → (∀ u ∈ s.fault.flipped, ∃ key, u.word = .applied key) → s.atWork = true →
    s.tracker.isOpen = true → s.tracker.settle = some d → reached m.tag d = true → s.tracker.disordered = false →
    s.tracker.abandoned = false →
    kept = s.evid.applied.filter
      (fun x => !(s.fault.flipped.any fun u => u.word == .applied (x.event.ids.headD ⟨0, 0, 0⟩))) →
    ∃ t, exec (.settleTimerExpiry m) s = .next t ∧ t.fault.record = s.fault.record ∧ t.member = s.member ∧
      t.evid.table = (s.evid.table.mapIdx fun i r =>
        foldRecord s.block s.tracker.cycle (entriesOn s.block kept (i + 1)) r) ∧
      t.evid.applied = [] ∧ t.evid.counts = s.evid.counts ∧
      t.fault.softFaults = min (s.fault.softFaults + (s.evid.applied.length - kept.length)) 65535) ∧
  (∀ (s : State) (st : Station) (e : EventRecord) (kept : List AppliedEvent), s.fault.faultedWord = none →
    eventWellFormed (Block.nSeg s.block) e = true → s.tracker.isOpen = true → e.cycle = s.tracker.cycle →
    kept = s.evid.applied.filter
      (fun x => !(s.fault.flipped.any fun u => u.word == .applied (x.event.ids.headD ⟨0, 0, 0⟩))) →
    (judgeApplied st e s).evid.applied = (judgeEvent kept ⟨e, stNo st⟩).list ∧
    (judgeApplied st e s).fault.softFaults = min (s.fault.softFaults + (s.evid.applied.length - kept.length)) 65535)

/-- R164, R165, R166: at the outcome of a LOGOUT part, SENT or DROPPED, a FROZEN station asks for the next part; at that of part 3, at the logout
timer's expiry, and at a second fault, found by the scrub or by READ SEGMENT, it restarts itself: the configuration with the flipped bits of its
store, the load result and the fault record stay, the restart count is raised, and the blocks return to their reset values and to work; where
entry to JOINING meets one of those bits, the station freezes again at once. A FROZEN station keeps the flipped bits of the word set aside,
so the LOGOUT clause allows them; the others allow any. The model's choices: what a faulty word is (log entries 5 and 6), which words entry
to JOINING reads (log entry 7), the RESTARTED notice's unset cycle and own number as subject (log entry 24), the reply of READ SEGMENT (log
entry 35). A judged command keeps its place in the Board Port's slot (`slotAfterRestart`), which is read from the manual, not stated in it (log
entry 27). -/
def Obligations.FreezeEndsInRestart : Prop :=
  (∀ (m : Moment) (s : State) (c : CurrentFrame) (ref : Nat) (payload : List Byte) (tag : Tag) (cmd : Instr)
      (failure : Option FailCause) (record : FaultRecord), NoFaultToFind m s → s.member.station = .frozen →
    s.link.current = some c → c.kind = .logout → c.ref = some ref → c.unreported = false →
    s.link.queue = [⟨ref, .logout, payload, tag⟩] → EndsNow m s c cmd failure →
    record = { s.fault.record with
      partsSent := if failure = none then min (s.fault.record.partsSent + 1) 3 else s.fault.record.partsSent } →
    (∀ part, (s.fault.logout = some .part1 ∧ part = .part2) ∨ (s.fault.logout = some .part2 ∧ part = .part3) →
      ∃ t c', exec cmd s = .next t ∧ t.fault = { s.fault with logout := some part, record := record } ∧
        t.link.queue = [⟨s.link.nextRef, .logout, c'.payload, m.tag⟩] ∧ t.link.current = some c' ∧ c'.kind = .logout ∧
        c'.ref = some s.link.nextRef ∧ c'.attempt = .waiting (m.tag + span (Block.accessTimeoutMs s.block * 1000)) ∧
        (part = .part2 → c'.payload = [2, byte (2 ^ s.link.lastAccepted.length - 1)] ++
          slice (s.link.lastAccepted.flatMap fun e => [byte (frameKindCode e.1), byte (stNo e.2)]) 0 8) ∧
        (part = .part3 → c'.payload = [3] ++ be16 s.channels.detected ++ be16 s.coin.counts.published ++
          be16 t.link.dropped ++ be16 s.overrunSum ++ [0]) ∧
        t.member = s.member ∧ t.tracker = s.tracker ∧ t.evid = s.evid ∧ t.agree = s.agree ∧ t.coup = s.coup ∧
        t.coin = s.coin) ∧
    (s.fault.logout = some .part3 → exec cmd s = .next (afterRestart .fault { record with
      restarts := min (s.fault.record.restarts + 1) 255 } m.tag s))) ∧
  (∀ (m : Moment) (s : State) (d : Tag), m.upsets = [] → s.resetHeld = false → s.member.station = .frozen →
    s.fault.logoutTimer = some d → reached m.tag d = true → exec (.logoutTimerExpiry m) s =
      .next (afterRestart .fault { s.fault.record with restarts := min (s.fault.record.restarts + 1) 255 } m.tag s)) ∧
  (∀ (m : Moment) (s : State) (record : FaultRecord), m.upsets = [] → s.resetHeld = false → s.member.station = .frozen →
    record = { s.fault.record with doubleFault := true, restarts := min (s.fault.record.restarts + 1) 255 } →
    ((∃ u ∈ s.fault.flipped, u.word = s.fault.scrub) → s.fault.faultedWord ≠ some s.fault.scrub →
      exec (.scrubRead m) s = .next (afterRestart .double record m.tag s)) ∧
    (∀ n : Byte, s.port.slot = none → s.port.checking = false → 1 ≤ n.toNat → n.toNat ≤ Block.nSeg s.block →
      (∃ u ∈ s.fault.flipped, (u.word = .config 0x1A ∨ u.word = .config 0x1B ∨ u.word = .segment n.toNat) ∧
        s.fault.faultedWord ≠ some u.word) →
      exec (.readSegment m n) s = .next (afterRestart .double record m.tag { s with
        port := { s.port with slot := some ⟨.readSegment, .done, segmentReply n.toNat s⟩ } })))

/-! ## The Board Port -/

/-- R168, R169, 12.3: a command is judged by the first case that holds: unknown INVALID, checking BUSY, not taken in this station state
REFUSED, out of range INVALID, one outstanding BUSY, else DONE; it waits in the slot with its reply, and the port clocks out its status, its
reply and then zeros. Every reply stands byte by byte as its layout says (Safety.lean). The model's choices: a command is ignored while the
slot is taken (log entry 26), the flags of the open cycle between cycles (log entry 44), NEXT NOTICE with no notice (log entry 45), bits that a layout
leaves unnamed (log entry 49). -/
def Obligations.CommandsAreJudged : Prop :=
  (∀ (m : Moment) (s : State) (status : Bool → Bool → Status) (judged : PortCommand → Status → List Byte → State),
    NoFaultToFind m s → s.port.slot = none →
    (∀ allowed inRange, status allowed inRange =
      if s.port.checking then .busy else if allowed then (if inRange then .done else .invalid) else .refused) →
    (∀ c st reply, judged c st reply =
      { s.withNow m.tag with port := { s.port with slot := some ⟨c, st, if st = .done then reply else []⟩ } }) →
    (∀ block : List Byte, block.length = 2048 → exec (.load m block) s =
      .next (judged (.load block) (status (s.member.station == .unconfigured) true) [])) ∧
    exec (.start m) s = .next (judged .start (status (s.member.station == .configured) true) []) ∧
    exec (.restart m) s = .next (judged .restart (status (s.member.station != .frozen) true) []) ∧
    exec (.status m) s = .next (judged .status (status true true) (statusReply s)) ∧
    exec (.nextNotice m) s =
      .next (judged (.nextNotice (!s.port.notices.isEmpty)) (status true true) (noticeReply s)) ∧
    (∀ n, exec (.readSegment m n) s = .next (judged .readSegment
      (status (s.member.station != .unconfigured) (decide (1 ≤ n.toNat ∧ n.toNat ≤ Block.nSeg s.block)))
      (segmentReply n.toNat s))) ∧
    (∀ n, exec (.readPeer m n) s = .next (judged .readPeer
      (status true (decide (1 ≤ n.toNat ∧ n.toNat ≤ 8))) (peerReply n.toNat s))) ∧
    exec (.readCoupling m) s = .next (judged .readCoupling (status true true) (couplingReply s)) ∧
    exec (.readFault m) s = .next (judged .readFault (status true true) (faultRecordBytes s.fault.record)) ∧
    exec (.clearFault m) s = .next (judged .clearFault (status (s.member.station != .frozen) true) []) ∧
    (∀ kind group value mask, exec (.segmentControl m kind group value mask) s =
      .next (judged (.segmentControl (controlParameters kind group value mask))
        (if status (s.member.station == .running) (controlInRange kind group value mask s) = .done ∧
            s.port.control.isSome = true then .busy
          else status (s.member.station == .running) (controlInRange kind group value mask s)) [])) ∧
    (∀ b, b.toNat = 0 ∨ 11 < b.toNat → exec (.noCommandByte m b) s = .next (judged .unknown .invalid []))) ∧
  (∀ (m : Moment) (s : State) (c : Instr), NoFaultToFind m s → s.port.slot ≠ none →
    (∃ block, c = .load m block) ∨ c = .start m ∨ c = .restart m ∨ c = .status m ∨ c = .nextNotice m ∨
      (∃ n, c = .readSegment m n) ∨ (∃ n, c = .readPeer m n) ∨ c = .readCoupling m ∨ c = .readFault m ∨
      c = .clearFault m ∨ (∃ kind group value mask, c = .segmentControl m kind group value mask) ∨
      (∃ byte, c = .noCommandByte m byte) → exec c s = .next (s.withNow m.tag)) ∧
  (∀ (s : State) (i : Nat), s.dataOut i = s.port.slot.map fun j => j.dataOut i) ∧
  (∀ j : Judged, (j.status = .done → j.dataOut 0 = 0) ∧ (j.status = .busy → j.dataOut 0 = 1) ∧
    (j.status = .refused → j.dataOut 0 = 2) ∧ (j.status = .invalid → j.dataOut 0 = 3) ∧
    (∀ i v, j.reply[i]? = some v → j.dataOut (i + 1) = v) ∧ (∀ i, j.reply.length ≤ i → j.dataOut (i + 1) = 0)) ∧
  (∀ s : State, StatusLayout s (statusReply s) ∧ NoticeLayout s.port.notices (noticeReply s) ∧
    CouplingLayout s (couplingReply s) ∧ FaultLayout s.fault.record (faultRecordBytes s.fault.record) ∧
    (∀ st, PeerLayout (s.member.peers.get st) (peerReply (stNo st) s)) ∧
    ∀ n, (∀ u ∈ s.fault.flipped, u.word ≠ .segment n) → segmentReply n s =
      byte n :: segmentBytes (Block.histLen s.block) (s.evid.table.getD (n - 1) (.clean false)))

/-- R170, R171, R68, R71, R131: the end of a LOAD's checks: a failed one empties the configuration store, a passed one configures the
station. What each of the nineteen checks demands, in its order, and the index of a failure (its numbering: log entry 25). -/
def Obligations.LoadCheckEnds : Prop :=
  ∀ (m : Moment) (s : State) (b : List Byte), Sound m s → s.port.checking = true → s.port.config = some b →
    (∀ check index, loadVerdict b = some (check, index) → exec (.loadCheckComplete m) s = .next { s.withNow m.tag with
      port := { s.port with config := none, checking := false, loadResult := .failed check index } }) ∧
    (loadVerdict b = none → exec (.loadCheckComplete m) s = .next { s.withNow m.tag with
      member := { s.member with
        station := .configured, number := stOf (Block.stationNumber b), fingerprint := some (Block.fingerprint b) }
      evid := { s.evid with table := List.replicate (Block.nSeg b) (.clean false) }
      port := { s.port with checking := false, loadResult := .passed } }) ∧
    (∀ check index, loadVerdict b = some (check, index) → 1 ≤ check ∧ check ≤ 19 ∧ loadCheck b check = some index ∧
      ∀ k, 1 ≤ k → k < check → loadCheck b k = none) ∧
  (∀ b : List Byte, (loadCheck b 1 = none ↔ crc16 (b.take 2046) = Block.check b) ∧
    (loadCheck b 2 = none ↔ 1 ≤ Block.stationNumber b ∧ Block.stationNumber b ≤ 8) ∧
    (loadCheck b 3 = none ↔ Block.doubleFill b ≤ 1 ∧ 100 ≤ Block.closeDelayMs b ∧ Block.closeDelayMs b ≤ 5000 ∧
      20 ≤ Block.maxCycle100Ms b ∧ Block.maxCycle100Ms b ≤ 600) ∧
    (loadCheck b 5 = none ↔ 10 ≤ Block.pdt b ∧ Block.pdt b ≤ 1000 ∧ 50 ≤ Block.hdt b ∧ Block.hdt b ≤ 10000 ∧
      100 ≤ Block.hlt b ∧ Block.hlt b ≤ 20000 ∧ 1 ≤ Block.hitCapMs b ∧ Block.hitCapMs b ≤ 40 ∧
      1 ≤ Block.pulseWidth b ∧ Block.pulseWidth b ≤ 20 ∧ 1 ≤ Block.recoveryMs b ∧ Block.recoveryMs b ≤ 50) ∧
    (loadCheck b 6 = none ↔ Block.linkDelay b ≤ 10 ∧
      (Block.accessTimeoutMs b = 1 ∨ Block.accessTimeoutMs b = 3 ∨ Block.accessTimeoutMs b = 10 ∨
        Block.accessTimeoutMs b = 30) ∧
      Block.retryCount b ≤ 2 ∧ Block.firstRetryLane b ≤ 1 ∧ Block.secondRetryLane b ≤ 1) ∧
    (loadCheck b 7 = none ↔ 10 ≤ Block.joinWindow100Ms b ∧ Block.joinWindow100Ms b ≤ 200 ∧
      10 ≤ Block.presence10Ms b ∧ Block.presence10Ms b ≤ 200) ∧
    (loadCheck b 8 = none ↔ 50 ≤ Block.cw b ∧ Block.cw b ≤ 2000 ∧ 2 ≤ Block.gaMs b ∧ Block.gaMs b ≤ 50 ∧
      2 ≤ Block.publishMs b ∧ Block.publishMs b ≤ 50) ∧
    (loadCheck b 9 = none ↔ 1 ≤ Block.nSeg b ∧ Block.nSeg b ≤ 96 ∧ 4 ≤ Block.histLen b ∧ Block.histLen b ≤ 16 ∧
      1 ≤ Block.aMin b ∧ Block.aMin b ≤ 8 ∧ 1 ≤ Block.kS b ∧ Block.kS b ≤ 16 ∧ 1 ≤ Block.kC b ∧ Block.kC b ≤ 16 ∧
      1 ≤ Block.qW b ∧ 1 ≤ Block.qS b ∧ Block.stopCount b ≤ 8) ∧
    (loadCheck b 10 = none ↔ 5 ≤ Block.digestWindow10Ms b ∧ Block.digestWindow10Ms b ≤ 200 ∧ 1 ≤ Block.minAge b) ∧
    (loadCheck b 13 = none ↔ Block.hitCapMs b + 2 ≤ Block.gaMs b) ∧
    (loadCheck b 14 = none ↔
      Block.cw b + 1000 * Block.gaMs b + 8 * (1000 * Block.publishMs b) + 5000 ≤ 1000 * Block.closeDelayMs b) ∧
    (loadCheck b 15 = none ↔ Block.kS b ≤ Block.kC b ∧ Block.kC b ≤ Block.histLen b) ∧
    (loadCheck b 19 = none ↔ Block.closeDelayMs b < 100 * Block.maxCycle100Ms b) ∧
    (∀ k i, k ∉ [4, 11, 12, 16, 17, 18] → loadCheck b k = some i → i = 0)) ∧
  (∀ (b : List Byte) (check : Nat) (entries : List Nat) (ok : Nat → Prop),
    (check = 4 ∧ entries = List.range 8 ∧ ok = fun p => Block.listen b p ≤ 1 ∧ 20 ≤ Block.absolute b p ∧
      Block.absolute b p ≤ 90 ∧ Block.margin b p ≤ 40 ∧ Block.evidential b p ≤ 1 ∧ Block.mask b p ≤ 127) ∨
    (check = 16 ∧ entries = upTo (Block.zoneCount b) ∧ ok = fun i => validSensor (Block.zoneFirst b i) = true ∧
      (validSensor (Block.zoneSecond b i) = true ∨ Block.zoneSecond b i = 0) ∧ Block.zoneSegment b i ≤ Block.nSeg b) ∨
    (check = 17 ∧ entries = upTo 32 ∧ ok = fun p => Block.singleHit b p ≤ Block.nSeg b) ∨
    (check = 18 ∧ entries = upTo 32 ∧ ok = fun p => Block.refPulser b p = 0 ∨
      (Block.pulseChannel b (Block.refPulser b p) ≠ 0 ∧ ¬ (Block.refPulser b p = (p - 1) / 4 + 1 ∧
        Block.pulseChannel b (Block.refPulser b p) = (p - 1) % 4 + 1))) ∨
    (check = 11 ∧ entries = 0 :: upTo 8 ∧
      (ok = fun p => if p = 0 then 5 ≤ Block.pulseSpacingMs b ∧ Block.pulseSpacingMs b ≤ 100 ∧
        5 ≤ Block.pulseWindow100Us b ∧ Block.pulseWindow100Us b ≤ 50 else Block.pulseChannel b p ≤ 4) ∧
      ((∃ j ∈ entries, ¬ ok j) ∨ ∀ p ∈ upTo 32, Block.refPulser b p ≤ 8 ∧ Block.expected b p ≤ 90 ∧
        Block.couplingMargin b p ≤ 30)) ∨
    (check = 11 ∧ entries = upTo 32 ∧ 5 ≤ Block.pulseSpacingMs b ∧ Block.pulseSpacingMs b ≤ 100 ∧
      5 ≤ Block.pulseWindow100Us b ∧ Block.pulseWindow100Us b ≤ 50 ∧ (∀ st ∈ upTo 8, Block.pulseChannel b st ≤ 4) ∧
      ok = fun p => Block.refPulser b p ≤ 8 ∧ Block.expected b p ≤ 90 ∧ Block.couplingMargin b p ≤ 30) ∨
    (check = 12 ∧ entries = 0 :: upTo (Block.zoneCount b) ∧ ok = fun i => if i = 0 then Block.zoneCount b ≤ 256
      else Block.zoneLow b i ≤ 2000 ∧ Block.zoneHigh b i ≤ 2000) →
    (loadCheck b check = none ↔ ∀ i ∈ entries, ok i) ∧
    ∀ i, loadCheck b check = some i ↔ i ∈ entries ∧ ¬ ok i ∧ ∀ j ∈ entries, j < i → ok j)

/-- R168, R170, R172, R65: at deselect a DONE LOAD, START or RESTART takes effect, if its status byte was clocked out and the station
state still allows it; any other transaction is discarded, and so is one of these three in a station state that no longer allows it. A
RESTART ends FROZEN where entry to JOINING meets a flipped bit (R163). That START watches each channel from its own tag is log entry 23,
the RESTARTED notice's cycle and subject log entry 24, the scrub's place log entry 4, the words that entry to JOINING reads log entry 7. -/
def Obligations.DeselectStartsAndRestarts : Prop :=
  ∀ (m : Moment) (s : State) (n : Nat) (j : Judged), NoFaultToFind m s → s.port.slot = some j →
    (n = 0 ∨ j.status ≠ .done → exec (.selectRise m n) s =
      .next { s.withNow m.tag with port := { s.port with slot := none } }) ∧
    (∀ b, j.command = .load b → j.status = .done → 1 ≤ n → s.member.station = .unconfigured →
      exec (.selectRise m n) s = .next { s.withNow m.tag with
        port := { s.port with slot := none, config := some b, checking := true, loadResult := .none } }) ∧
    (j.command = .start → j.status = .done → 1 ≤ n → s.member.station = .configured →
      ∃ t, exec (.selectRise m n) s = .next t ∧
        t.member = { s.member with
          station := .joining
          peers := t.member.peers
          joinTimer := some (m.tag + span (Block.joinWindow100Ms s.block * 100000))
          presenceTimer := some (m.tag + span (Block.presence10Ms s.block * 10000)) } ∧
        (∀ st, s.member.number = some st → t.member.peers = s.member.peers.set st { PeerRecord.reset with
          state := .present, fingerprint := s.member.fingerprint }) ∧
        (∀ c, t.channels.units.get c = { s.channels.units.get c with
          role := .listen, watch := .watching m.tag, state := if s.listening then .quiet else .hush }) ∧
        (s.link.queue = [] → s.link.current = none → s.channels.queue = [] → ∃ c payload,
          payload = be32 (s.member.fingerprint.getD 0) ++ [byte (phaseCode s.tracker.phase)] ++ be16 s.evid.age ++
            [byte (standingCode s.agree.standing),
             byte (couplingCode s.coup.records.c1.state + 4 * couplingCode s.coup.records.c2.state +
               16 * couplingCode s.coup.records.c3.state + 64 * couplingCode s.coup.records.c4.state),
             byte (healthCode (healthOf s.link.lanes.x.run) + 4 * healthCode (healthOf s.link.lanes.y.run))] ∧
          c = { ref := some s.link.nextRef, kind := .presence, payload := payload, cycle := s.tracker.cycle
                lane := s.link.home, attempt := .waiting (m.tag + span (Block.accessTimeoutMs s.block * 1000)), retries := 0
                lastFailure := none, noRetry := false, unreported := false } ∧
          t.link = { s.link with
            queue := [⟨s.link.nextRef, .presence, payload, m.tag⟩], nextRef := s.link.nextRef + 1, current := some c
            lanes := ⟨{ s.link.lanes.x with idleFrom := t.clock }, { s.link.lanes.y with idleFrom := t.clock }⟩ }) ∧
        t.port = { s.port with slot := none } ∧ t.tracker = s.tracker ∧ t.evid = s.evid ∧ t.coin = s.coin ∧
        t.agree = s.agree ∧ t.coup = s.coup ∧ t.fault = { s.fault with scrub := .config 0 } ∧
        t.now = m.tag ∧ t.clock = (s.withNow m.tag).clock) ∧
    (j.command = .restart → j.status = .done → 1 ≤ n → s.member.station ≠ .frozen →
      (s.member.station ≠ .unconfigured → exec (.selectRise m n) s = .next
        (afterRestart .command s.fault.record m.tag { s with port := { s.port with slot := none } })) ∧
      (s.member.station = .unconfigured → exec (.selectRise m n) s = .next { s.withNow m.tag with
        tracker := .reset, channels := .reset, link := .reset, coin := .reset, evid := .reset 0, agree := .reset
        coup := .reset, fault := { FaultUnit.reset with record := s.fault.record, flipped := keptFlips s }
        member := { Membership.reset with number := s.member.number, fingerprint := s.member.fingerprint }
        port := { s.port with
          slot := none, control := none, notices := [⟨none, s.ownNo, .restarted .command⟩]
          stacked := List.replicate 12 0 } })) ∧
    ((j.command = .restart ∧ s.member.station = .frozen) ∨ (j.command = .start ∧ s.member.station ≠ .configured) ∨
        (∃ b, j.command = .load b ∧ s.member.station ≠ .unconfigured) →
      exec (.selectRise m n) s = .next { s.withNow m.tag with port := { s.port with slot := none } })

/-- R167, R168, R173, R174, R175: at deselect a DONE NEXT NOTICE, CLEAR FAULT or SEGMENT CONTROL takes effect; a reading command has
none, and a CLEAR FAULT that finds the station FROZEN has none. -/
def Obligations.DeselectServesTheProcessor : Prop :=
  ∀ (m : Moment) (s : State) (n : Nat) (j : Judged), NoFaultToFind m s → s.port.slot = some j → j.status = .done → 1 ≤ n →
    (j.command = .status ∨ j.command = .readPeer ∨ j.command = .readCoupling ∨ j.command = .readFault ∨
        j.command = .readSegment ∨ j.command = .nextNotice false →
      exec (.selectRise m n) s = .next { s.withNow m.tag with port := { s.port with slot := none } }) ∧
    (j.command = .nextNotice true → n < 17 → exec (.selectRise m n) s =
      .next { s.withNow m.tag with port := { s.port with slot := none } }) ∧
    (j.command = .nextNotice true → 17 ≤ n → (∀ k ∈ s.port.stacked, k = 0) → exec (.selectRise m n) s = .next { s.withNow m.tag with
      port := { s.port with slot := none, notices := s.port.notices.drop 1 } }) ∧
    (j.command = .nextNotice true → 17 ≤ n → (∃ k ∈ s.port.stacked, 0 < k) → exec (.selectRise m n) s = .next { s.withNow m.tag with
      port := { s.port with
        slot := none
        notices := s.port.notices.drop 1 ++ [⟨s.tracker.cycle, s.ownNo, .stacked s.port.stacked⟩]
        stacked := List.replicate 12 0 } }) ∧
    (j.command = .clearFault → s.member.station ≠ .frozen → exec (.selectRise m n) s = .next { s.withNow m.tag with
      fault := { s.fault with record := .reset }, port := { s.port with slot := none } }) ∧
    (j.command = .clearFault → s.member.station = .frozen →
      exec (.selectRise m n) s = .next { s.withNow m.tag with port := { s.port with slot := none } }) ∧
    (∀ c, j.command = .segmentControl c → s.member.station = .running → s.link.queue.length < 12 →
      (∀ d ∈ s.link.queue, d.kind ≠ .control) → ∃ t, exec (.selectRise m n) s = .next t ∧
        t.port = { s.port with slot := none, control := some (s.link.nextRef, c) } ∧
        t.link.queue = s.link.queue ++ [⟨s.link.nextRef, .control, controlBytes c, m.tag⟩]) ∧
    (∀ c, j.command = .segmentControl c →
      s.member.station ≠ .running ∨ 12 ≤ s.link.queue.length ∨ (∃ d ∈ s.link.queue, d.kind = .control) →
      exec (.selectRise m n) s =
        .next (raise ⟨s.tracker.cycle, lowestSelected c s, .controlResult false c none 0⟩
          { s.withNow m.tag with port := { s.port with slot := none } }))

/-! ## Invariants and layouts -/

/-- R3 to R18: the relations between the tracker's phase, cycle, flags and timers, and between the load check and the station state,
are kept by every step. -/
def Obligations.TrackerInvariantKept : Prop :=
  ∀ s t : State, TrackerInv s → step s = .next t → TrackerInv t

/-- R51, R54, R55: the relations between lane health, home lane, LOST and the attempt's lane are kept by every step. -/
def Obligations.LanesInvariantKept : Prop :=
  ∀ s t : State, LanesInv s → step s = .next t → LanesInv t

/-- R31, R46, R61, R78, R91, R110, R145, R174: no collection ever outgrows its capacity. -/
def Obligations.CapacitiesKept : Prop :=
  ∀ s t : State, CapacityInv s → step s = .next t → CapacityInv t

/-- R115: in every segment record, also one that an unfinished transfer has brought, suspect-since is present exactly in SUSPECT and CRACKED,
cracked-since exactly in CRACKED, and an excluded record is clean. Every step keeps this; a step that takes a ROW keeps it if the
donor's records have it. -/
def Obligations.SegmentRecordsKept : Prop :=
  ∀ s t : State, SegmentsInv s →
    (∀ m l f, s.pending.head? = some (.frameHandlerTake m) → heldFrame s.link = some (l, f) → frameKindOf f.kindByte = some .row →
      ∀ r ∈ (rowOf (Block.histLen s.block) f.payload).records, RecordOk r) →
    step s = .next t → SegmentsInv t

/-- The four invariants hold after reset. -/
def Obligations.InvariantsHoldAtReset : Prop :=
  TrackerInv State.reset ∧ LanesInv State.reset ∧ CapacityInv State.reset ∧ SegmentsInv State.reset

/-- 12.1, 12.2, R177: reading what is written gives it back: the HIT record, the CONTROL content and the segment record, with every
field at every value it can hold. The frame, the HIT record, the payloads of EVENT, CONTROL, PULSE, PRESENCE and ROW and the segment
record stand byte by byte as their layouts of 12.2 say (Safety.lean); the codes are those of 12.1. Bits that a layout neither names nor
marks 0 are sent as 0: the model's choice (log entry 49). -/
def Obligations.RecordsReadBackAsWritten : Prop :=
  (∀ h : HitRecord, 1 ≤ h.station → h.station ≤ 8 → 1 ≤ h.channel → h.channel ≤ 4 → h.features.peak < 256 →
    h.features.rise < 65536 → h.features.duration < 65536 → h.features.crossings < 4096 → h.features.energy < 65536 →
    hitOf (hitBytes h) = h) ∧
  (∀ c : Control, controlOf (controlBytes c) = some c) ∧
  (∀ (hLen : Nat) (r : SegmentRecord), hLen ≤ 16 → r.history.length ≤ hLen → r.quietRun < 65536 →
    (∀ e ∈ r.history, e.count < 256) → segmentOf hLen (segmentBytes hLen r) = r) ∧
  (∀ kind sender stamp cycle p, FrameLayout kind sender stamp cycle p (frameBytes kind sender stamp cycle p)) ∧
  (∀ (s : State) (c : CurrentFrame) (stamp : Tag), s.link.current = some c → c.attempt = .transmitting stamp →
    s.sendingFrame = some (frameBytes c.kind s.ownNo stamp c.cycle c.payload)) ∧
  (∀ h, HitLayout h (hitBytes h)) ∧ (∀ e, EventLayout e (eventBytes e)) ∧ (∀ s : State, PresenceLayout s s.presencePayload) ∧
  (∀ hLen row, RowLayout hLen row (rowBytes hLen row)) ∧ (∀ hLen g, SegmentLayout hLen g (segmentBytes hLen g)) ∧
  (∀ c : Control, controlBytes c = [byte (controlKindCode c.kind), c.group, c.value, c.mask]) ∧
  (∀ n, pulseBytes n = [byte n, 0x03, 0xE8]) ∧
  ([.logout, .control, .event, .hit, .pulse, .digest, .row, .presence].map frameKindCode = [1, 2, 3, 4, 5, 6, 7, 8] ∧
    [.idle, .feed, .fill1, .shake1, .fill2, .shake2, .strip, .ret].map phaseCode = [0, 1, 2, 3, 4, 5, 6, 7] ∧
    [.unconfigured, .configured, .joining, .running, .frozen].map stationStateCode = [0, 1, 2, 3, 4] ∧
    [.off, .muted, .hush, .quiet, .inHit, .lockout, .pulsing, .recover].map channelStateCode = [0, 1, 2, 3, 4, 5, 6, 7] ∧
    [.off, .listen, .pulse, .muted].map roleCode = [0, 1, 2, 3] ∧
    [.novice, .alone, .inStep, .outOfStep, .split].map standingCode = [0, 1, 2, 3, 4] ∧
    [.good, .failing, .faulty].map healthCode = [0, 1, 2] ∧ [.unchecked, .good, .weak, .dead].map couplingCode = [0, 1, 2, 3] ∧
    [.absent, .present, .missing, .loggedOut, .foreign].map peerStateCode = [0, 1, 2, 3, 4] ∧
    [.clear, .watch, .suspect, .cracked].map segStateCode = [0, 1, 2, 3] ∧
    [.excludeSet, .release].map controlKindCode = [1, 2] ∧ [.read, .scrub].map faultKindCode = [1, 2] ∧
    [.configuration, .segmentTable, .snapshot].map storeCode = [1, 2, 3] ∧ [.x, .y].map laneCode = [0, 1] ∧
    [.health .good, .health .failing, .health .faulty, .home, .lost, .restored].map laneEventCode = [0, 1, 2, 3, 4, 5] ∧
    [.fold, .exclude, .release, .transfer].map segCauseCode = [1, 2, 3, 4] ∧
    [none, some .clash, some .mute, some .starved].map failCauseCode = [0, 1, 2, 3] ∧
    [.settle, .cyc, .cycleTimer].map closeCauseCode = [1, 2, 3] ∧
    [.command, .fault, .double].map restartCauseCode = [1, 2, 3] ∧ methodNone = 0 ∧ methodSingle = 1 ∧ methodPair = 2)
end

