-- ==== Sys2Proof/Laws/State.lean ====
section
/-! SUPPORT. What each replacement of one part of the state does to each field: one lemma per field per update. -/

namespace Sys2Proof.Machine

variable (s : State)

/-- Two states that agree in every field are equal. -/
theorem state_ext {s t : State} (clock : s.clock = t.clock) (resetHeld : s.resetHeld = t.resetHeld) (tracker : s.tracker = t.tracker)
    (channels : s.channels = t.channels) (link : s.link = t.link) (member : s.member = t.member) (coin : s.coin = t.coin)
    (evid : s.evid = t.evid) (agree : s.agree = t.agree) (coup : s.coup = t.coup) (fault : s.fault = t.fault)
    (port : s.port = t.port) (freeCount : s.freeCount = t.freeCount) (pending : s.pending = t.pending) : s = t := by
  cases s
  cases t
  simp only at *
  subst_vars
  rfl

/-! `withClock` -/
@[simp] theorem withClock_clock (v : Nat) : (s.withClock v).clock = v := rfl
@[simp] theorem withClock_resetHeld (v : Nat) : (s.withClock v).resetHeld = s.resetHeld := rfl
@[simp] theorem withClock_tracker (v : Nat) : (s.withClock v).tracker = s.tracker := rfl
@[simp] theorem withClock_channels (v : Nat) : (s.withClock v).channels = s.channels := rfl
@[simp] theorem withClock_link (v : Nat) : (s.withClock v).link = s.link := rfl
@[simp] theorem withClock_member (v : Nat) : (s.withClock v).member = s.member := rfl
@[simp] theorem withClock_coin (v : Nat) : (s.withClock v).coin = s.coin := rfl
@[simp] theorem withClock_evid (v : Nat) : (s.withClock v).evid = s.evid := rfl
@[simp] theorem withClock_agree (v : Nat) : (s.withClock v).agree = s.agree := rfl
@[simp] theorem withClock_coup (v : Nat) : (s.withClock v).coup = s.coup := rfl
@[simp] theorem withClock_fault (v : Nat) : (s.withClock v).fault = s.fault := rfl
@[simp] theorem withClock_port (v : Nat) : (s.withClock v).port = s.port := rfl
@[simp] theorem withClock_freeCount (v : Nat) : (s.withClock v).freeCount = s.freeCount := rfl
@[simp] theorem withClock_pending (v : Nat) : (s.withClock v).pending = s.pending := rfl

/-! `withTracker` -/
@[simp] theorem withTracker_clock (v : Tracker) : (s.withTracker v).clock = s.clock := rfl
@[simp] theorem withTracker_resetHeld (v : Tracker) : (s.withTracker v).resetHeld = s.resetHeld := rfl
@[simp] theorem withTracker_tracker (v : Tracker) : (s.withTracker v).tracker = v := rfl
@[simp] theorem withTracker_channels (v : Tracker) : (s.withTracker v).channels = s.channels := rfl
@[simp] theorem withTracker_link (v : Tracker) : (s.withTracker v).link = s.link := rfl
@[simp] theorem withTracker_member (v : Tracker) : (s.withTracker v).member = s.member := rfl
@[simp] theorem withTracker_coin (v : Tracker) : (s.withTracker v).coin = s.coin := rfl
@[simp] theorem withTracker_evid (v : Tracker) : (s.withTracker v).evid = s.evid := rfl
@[simp] theorem withTracker_agree (v : Tracker) : (s.withTracker v).agree = s.agree := rfl
@[simp] theorem withTracker_coup (v : Tracker) : (s.withTracker v).coup = s.coup := rfl
@[simp] theorem withTracker_fault (v : Tracker) : (s.withTracker v).fault = s.fault := rfl
@[simp] theorem withTracker_port (v : Tracker) : (s.withTracker v).port = s.port := rfl
@[simp] theorem withTracker_freeCount (v : Tracker) : (s.withTracker v).freeCount = s.freeCount := rfl
@[simp] theorem withTracker_pending (v : Tracker) : (s.withTracker v).pending = s.pending := rfl
@[simp] theorem withTracker_now (v : Tracker) : (s.withTracker v).now = s.now := rfl

/-! `withChannels` -/
@[simp] theorem withChannels_clock (v : Channels) : (s.withChannels v).clock = s.clock := rfl
@[simp] theorem withChannels_resetHeld (v : Channels) : (s.withChannels v).resetHeld = s.resetHeld := rfl
@[simp] theorem withChannels_tracker (v : Channels) : (s.withChannels v).tracker = s.tracker := rfl
@[simp] theorem withChannels_channels (v : Channels) : (s.withChannels v).channels = v := rfl
@[simp] theorem withChannels_link (v : Channels) : (s.withChannels v).link = s.link := rfl
@[simp] theorem withChannels_member (v : Channels) : (s.withChannels v).member = s.member := rfl
@[simp] theorem withChannels_coin (v : Channels) : (s.withChannels v).coin = s.coin := rfl
@[simp] theorem withChannels_evid (v : Channels) : (s.withChannels v).evid = s.evid := rfl
@[simp] theorem withChannels_agree (v : Channels) : (s.withChannels v).agree = s.agree := rfl
@[simp] theorem withChannels_coup (v : Channels) : (s.withChannels v).coup = s.coup := rfl
@[simp] theorem withChannels_fault (v : Channels) : (s.withChannels v).fault = s.fault := rfl
@[simp] theorem withChannels_port (v : Channels) : (s.withChannels v).port = s.port := rfl
@[simp] theorem withChannels_freeCount (v : Channels) : (s.withChannels v).freeCount = s.freeCount := rfl
@[simp] theorem withChannels_pending (v : Channels) : (s.withChannels v).pending = s.pending := rfl
@[simp] theorem withChannels_now (v : Channels) : (s.withChannels v).now = s.now := rfl

/-! `withLink` -/
@[simp] theorem withLink_clock (v : Link) : (s.withLink v).clock = s.clock := rfl
@[simp] theorem withLink_resetHeld (v : Link) : (s.withLink v).resetHeld = s.resetHeld := rfl
@[simp] theorem withLink_tracker (v : Link) : (s.withLink v).tracker = s.tracker := rfl
@[simp] theorem withLink_channels (v : Link) : (s.withLink v).channels = s.channels := rfl
@[simp] theorem withLink_link (v : Link) : (s.withLink v).link = v := rfl
@[simp] theorem withLink_member (v : Link) : (s.withLink v).member = s.member := rfl
@[simp] theorem withLink_coin (v : Link) : (s.withLink v).coin = s.coin := rfl
@[simp] theorem withLink_evid (v : Link) : (s.withLink v).evid = s.evid := rfl
@[simp] theorem withLink_agree (v : Link) : (s.withLink v).agree = s.agree := rfl
@[simp] theorem withLink_coup (v : Link) : (s.withLink v).coup = s.coup := rfl
@[simp] theorem withLink_fault (v : Link) : (s.withLink v).fault = s.fault := rfl
@[simp] theorem withLink_port (v : Link) : (s.withLink v).port = s.port := rfl
@[simp] theorem withLink_freeCount (v : Link) : (s.withLink v).freeCount = s.freeCount := rfl
@[simp] theorem withLink_pending (v : Link) : (s.withLink v).pending = s.pending := rfl
@[simp] theorem withLink_now (v : Link) : (s.withLink v).now = s.now := rfl

/-! `withMember` -/
@[simp] theorem withMember_clock (v : Membership) : (s.withMember v).clock = s.clock := rfl
@[simp] theorem withMember_resetHeld (v : Membership) : (s.withMember v).resetHeld = s.resetHeld := rfl
@[simp] theorem withMember_tracker (v : Membership) : (s.withMember v).tracker = s.tracker := rfl
@[simp] theorem withMember_channels (v : Membership) : (s.withMember v).channels = s.channels := rfl
@[simp] theorem withMember_link (v : Membership) : (s.withMember v).link = s.link := rfl
@[simp] theorem withMember_member (v : Membership) : (s.withMember v).member = v := rfl
@[simp] theorem withMember_coin (v : Membership) : (s.withMember v).coin = s.coin := rfl
@[simp] theorem withMember_evid (v : Membership) : (s.withMember v).evid = s.evid := rfl
@[simp] theorem withMember_agree (v : Membership) : (s.withMember v).agree = s.agree := rfl
@[simp] theorem withMember_coup (v : Membership) : (s.withMember v).coup = s.coup := rfl
@[simp] theorem withMember_fault (v : Membership) : (s.withMember v).fault = s.fault := rfl
@[simp] theorem withMember_port (v : Membership) : (s.withMember v).port = s.port := rfl
@[simp] theorem withMember_freeCount (v : Membership) : (s.withMember v).freeCount = s.freeCount := rfl
@[simp] theorem withMember_pending (v : Membership) : (s.withMember v).pending = s.pending := rfl
@[simp] theorem withMember_now (v : Membership) : (s.withMember v).now = s.now := rfl

/-! `withCoin` -/
@[simp] theorem withCoin_clock (v : Coincidence) : (s.withCoin v).clock = s.clock := rfl
@[simp] theorem withCoin_resetHeld (v : Coincidence) : (s.withCoin v).resetHeld = s.resetHeld := rfl
@[simp] theorem withCoin_tracker (v : Coincidence) : (s.withCoin v).tracker = s.tracker := rfl
@[simp] theorem withCoin_channels (v : Coincidence) : (s.withCoin v).channels = s.channels := rfl
@[simp] theorem withCoin_link (v : Coincidence) : (s.withCoin v).link = s.link := rfl
@[simp] theorem withCoin_member (v : Coincidence) : (s.withCoin v).member = s.member := rfl
@[simp] theorem withCoin_coin (v : Coincidence) : (s.withCoin v).coin = v := rfl
@[simp] theorem withCoin_evid (v : Coincidence) : (s.withCoin v).evid = s.evid := rfl
@[simp] theorem withCoin_agree (v : Coincidence) : (s.withCoin v).agree = s.agree := rfl
@[simp] theorem withCoin_coup (v : Coincidence) : (s.withCoin v).coup = s.coup := rfl
@[simp] theorem withCoin_fault (v : Coincidence) : (s.withCoin v).fault = s.fault := rfl
@[simp] theorem withCoin_port (v : Coincidence) : (s.withCoin v).port = s.port := rfl
@[simp] theorem withCoin_freeCount (v : Coincidence) : (s.withCoin v).freeCount = s.freeCount := rfl
@[simp] theorem withCoin_pending (v : Coincidence) : (s.withCoin v).pending = s.pending := rfl
@[simp] theorem withCoin_now (v : Coincidence) : (s.withCoin v).now = s.now := rfl

/-! `withEvid` -/
@[simp] theorem withEvid_clock (v : Evidence) : (s.withEvid v).clock = s.clock := rfl
@[simp] theorem withEvid_resetHeld (v : Evidence) : (s.withEvid v).resetHeld = s.resetHeld := rfl
@[simp] theorem withEvid_tracker (v : Evidence) : (s.withEvid v).tracker = s.tracker := rfl
@[simp] theorem withEvid_channels (v : Evidence) : (s.withEvid v).channels = s.channels := rfl
@[simp] theorem withEvid_link (v : Evidence) : (s.withEvid v).link = s.link := rfl
@[simp] theorem withEvid_member (v : Evidence) : (s.withEvid v).member = s.member := rfl
@[simp] theorem withEvid_coin (v : Evidence) : (s.withEvid v).coin = s.coin := rfl
@[simp] theorem withEvid_evid (v : Evidence) : (s.withEvid v).evid = v := rfl
@[simp] theorem withEvid_agree (v : Evidence) : (s.withEvid v).agree = s.agree := rfl
@[simp] theorem withEvid_coup (v : Evidence) : (s.withEvid v).coup = s.coup := rfl
@[simp] theorem withEvid_fault (v : Evidence) : (s.withEvid v).fault = s.fault := rfl
@[simp] theorem withEvid_port (v : Evidence) : (s.withEvid v).port = s.port := rfl
@[simp] theorem withEvid_freeCount (v : Evidence) : (s.withEvid v).freeCount = s.freeCount := rfl
@[simp] theorem withEvid_pending (v : Evidence) : (s.withEvid v).pending = s.pending := rfl
@[simp] theorem withEvid_now (v : Evidence) : (s.withEvid v).now = s.now := rfl

/-! `withAgree` -/
@[simp] theorem withAgree_clock (v : Agreement) : (s.withAgree v).clock = s.clock := rfl
@[simp] theorem withAgree_resetHeld (v : Agreement) : (s.withAgree v).resetHeld = s.resetHeld := rfl
@[simp] theorem withAgree_tracker (v : Agreement) : (s.withAgree v).tracker = s.tracker := rfl
@[simp] theorem withAgree_channels (v : Agreement) : (s.withAgree v).channels = s.channels := rfl
@[simp] theorem withAgree_link (v : Agreement) : (s.withAgree v).link = s.link := rfl
@[simp] theorem withAgree_member (v : Agreement) : (s.withAgree v).member = s.member := rfl
@[simp] theorem withAgree_coin (v : Agreement) : (s.withAgree v).coin = s.coin := rfl
@[simp] theorem withAgree_evid (v : Agreement) : (s.withAgree v).evid = s.evid := rfl
@[simp] theorem withAgree_agree (v : Agreement) : (s.withAgree v).agree = v := rfl
@[simp] theorem withAgree_coup (v : Agreement) : (s.withAgree v).coup = s.coup := rfl
@[simp] theorem withAgree_fault (v : Agreement) : (s.withAgree v).fault = s.fault := rfl
@[simp] theorem withAgree_port (v : Agreement) : (s.withAgree v).port = s.port := rfl
@[simp] theorem withAgree_freeCount (v : Agreement) : (s.withAgree v).freeCount = s.freeCount := rfl
@[simp] theorem withAgree_pending (v : Agreement) : (s.withAgree v).pending = s.pending := rfl
@[simp] theorem withAgree_now (v : Agreement) : (s.withAgree v).now = s.now := rfl

/-! `withCoup` -/
@[simp] theorem withCoup_clock (v : CouplingUnit) : (s.withCoup v).clock = s.clock := rfl
@[simp] theorem withCoup_resetHeld (v : CouplingUnit) : (s.withCoup v).resetHeld = s.resetHeld := rfl
@[simp] theorem withCoup_tracker (v : CouplingUnit) : (s.withCoup v).tracker = s.tracker := rfl
@[simp] theorem withCoup_channels (v : CouplingUnit) : (s.withCoup v).channels = s.channels := rfl
@[simp] theorem withCoup_link (v : CouplingUnit) : (s.withCoup v).link = s.link := rfl
@[simp] theorem withCoup_member (v : CouplingUnit) : (s.withCoup v).member = s.member := rfl
@[simp] theorem withCoup_coin (v : CouplingUnit) : (s.withCoup v).coin = s.coin := rfl
@[simp] theorem withCoup_evid (v : CouplingUnit) : (s.withCoup v).evid = s.evid := rfl
@[simp] theorem withCoup_agree (v : CouplingUnit) : (s.withCoup v).agree = s.agree := rfl
@[simp] theorem withCoup_coup (v : CouplingUnit) : (s.withCoup v).coup = v := rfl
@[simp] theorem withCoup_fault (v : CouplingUnit) : (s.withCoup v).fault = s.fault := rfl
@[simp] theorem withCoup_port (v : CouplingUnit) : (s.withCoup v).port = s.port := rfl
@[simp] theorem withCoup_freeCount (v : CouplingUnit) : (s.withCoup v).freeCount = s.freeCount := rfl
@[simp] theorem withCoup_pending (v : CouplingUnit) : (s.withCoup v).pending = s.pending := rfl
@[simp] theorem withCoup_now (v : CouplingUnit) : (s.withCoup v).now = s.now := rfl

/-! `withFault` -/
@[simp] theorem withFault_clock (v : FaultUnit) : (s.withFault v).clock = s.clock := rfl
@[simp] theorem withFault_resetHeld (v : FaultUnit) : (s.withFault v).resetHeld = s.resetHeld := rfl
@[simp] theorem withFault_tracker (v : FaultUnit) : (s.withFault v).tracker = s.tracker := rfl
@[simp] theorem withFault_channels (v : FaultUnit) : (s.withFault v).channels = s.channels := rfl
@[simp] theorem withFault_link (v : FaultUnit) : (s.withFault v).link = s.link := rfl
@[simp] theorem withFault_member (v : FaultUnit) : (s.withFault v).member = s.member := rfl
@[simp] theorem withFault_coin (v : FaultUnit) : (s.withFault v).coin = s.coin := rfl
@[simp] theorem withFault_evid (v : FaultUnit) : (s.withFault v).evid = s.evid := rfl
@[simp] theorem withFault_agree (v : FaultUnit) : (s.withFault v).agree = s.agree := rfl
@[simp] theorem withFault_coup (v : FaultUnit) : (s.withFault v).coup = s.coup := rfl
@[simp] theorem withFault_fault (v : FaultUnit) : (s.withFault v).fault = v := rfl
@[simp] theorem withFault_port (v : FaultUnit) : (s.withFault v).port = s.port := rfl
@[simp] theorem withFault_freeCount (v : FaultUnit) : (s.withFault v).freeCount = s.freeCount := rfl
@[simp] theorem withFault_pending (v : FaultUnit) : (s.withFault v).pending = s.pending := rfl
@[simp] theorem withFault_now (v : FaultUnit) : (s.withFault v).now = s.now := rfl

/-! `withPort` -/
@[simp] theorem withPort_clock (v : BoardPort) : (s.withPort v).clock = s.clock := rfl
@[simp] theorem withPort_resetHeld (v : BoardPort) : (s.withPort v).resetHeld = s.resetHeld := rfl
@[simp] theorem withPort_tracker (v : BoardPort) : (s.withPort v).tracker = s.tracker := rfl
@[simp] theorem withPort_channels (v : BoardPort) : (s.withPort v).channels = s.channels := rfl
@[simp] theorem withPort_link (v : BoardPort) : (s.withPort v).link = s.link := rfl
@[simp] theorem withPort_member (v : BoardPort) : (s.withPort v).member = s.member := rfl
@[simp] theorem withPort_coin (v : BoardPort) : (s.withPort v).coin = s.coin := rfl
@[simp] theorem withPort_evid (v : BoardPort) : (s.withPort v).evid = s.evid := rfl
@[simp] theorem withPort_agree (v : BoardPort) : (s.withPort v).agree = s.agree := rfl
@[simp] theorem withPort_coup (v : BoardPort) : (s.withPort v).coup = s.coup := rfl
@[simp] theorem withPort_fault (v : BoardPort) : (s.withPort v).fault = s.fault := rfl
@[simp] theorem withPort_port (v : BoardPort) : (s.withPort v).port = v := rfl
@[simp] theorem withPort_freeCount (v : BoardPort) : (s.withPort v).freeCount = s.freeCount := rfl
@[simp] theorem withPort_pending (v : BoardPort) : (s.withPort v).pending = s.pending := rfl
@[simp] theorem withPort_now (v : BoardPort) : (s.withPort v).now = s.now := rfl

/-! `withFreeCount` -/
@[simp] theorem withFreeCount_clock (v : Nat) : (s.withFreeCount v).clock = s.clock := rfl
@[simp] theorem withFreeCount_resetHeld (v : Nat) : (s.withFreeCount v).resetHeld = s.resetHeld := rfl
@[simp] theorem withFreeCount_tracker (v : Nat) : (s.withFreeCount v).tracker = s.tracker := rfl
@[simp] theorem withFreeCount_channels (v : Nat) : (s.withFreeCount v).channels = s.channels := rfl
@[simp] theorem withFreeCount_link (v : Nat) : (s.withFreeCount v).link = s.link := rfl
@[simp] theorem withFreeCount_member (v : Nat) : (s.withFreeCount v).member = s.member := rfl
@[simp] theorem withFreeCount_coin (v : Nat) : (s.withFreeCount v).coin = s.coin := rfl
@[simp] theorem withFreeCount_evid (v : Nat) : (s.withFreeCount v).evid = s.evid := rfl
@[simp] theorem withFreeCount_agree (v : Nat) : (s.withFreeCount v).agree = s.agree := rfl
@[simp] theorem withFreeCount_coup (v : Nat) : (s.withFreeCount v).coup = s.coup := rfl
@[simp] theorem withFreeCount_fault (v : Nat) : (s.withFreeCount v).fault = s.fault := rfl
@[simp] theorem withFreeCount_port (v : Nat) : (s.withFreeCount v).port = s.port := rfl
@[simp] theorem withFreeCount_freeCount (v : Nat) : (s.withFreeCount v).freeCount = v := rfl
@[simp] theorem withFreeCount_pending (v : Nat) : (s.withFreeCount v).pending = s.pending := rfl
@[simp] theorem withFreeCount_now (v : Nat) : (s.withFreeCount v).now = s.now := rfl

/-! `withPending` -/
@[simp] theorem withPending_clock (v : List Instr) : (s.withPending v).clock = s.clock := rfl
@[simp] theorem withPending_resetHeld (v : List Instr) : (s.withPending v).resetHeld = s.resetHeld := rfl
@[simp] theorem withPending_tracker (v : List Instr) : (s.withPending v).tracker = s.tracker := rfl
@[simp] theorem withPending_channels (v : List Instr) : (s.withPending v).channels = s.channels := rfl
@[simp] theorem withPending_link (v : List Instr) : (s.withPending v).link = s.link := rfl
@[simp] theorem withPending_member (v : List Instr) : (s.withPending v).member = s.member := rfl
@[simp] theorem withPending_coin (v : List Instr) : (s.withPending v).coin = s.coin := rfl
@[simp] theorem withPending_evid (v : List Instr) : (s.withPending v).evid = s.evid := rfl
@[simp] theorem withPending_agree (v : List Instr) : (s.withPending v).agree = s.agree := rfl
@[simp] theorem withPending_coup (v : List Instr) : (s.withPending v).coup = s.coup := rfl
@[simp] theorem withPending_fault (v : List Instr) : (s.withPending v).fault = s.fault := rfl
@[simp] theorem withPending_port (v : List Instr) : (s.withPending v).port = s.port := rfl
@[simp] theorem withPending_freeCount (v : List Instr) : (s.withPending v).freeCount = s.freeCount := rfl
@[simp] theorem withPending_pending (v : List Instr) : (s.withPending v).pending = v := rfl
@[simp] theorem withPending_now (v : List Instr) : (s.withPending v).now = s.now := rfl

/-! `withNow` -/
@[simp] theorem withNow_now (v : Tag) : (s.withNow v).now = v := by
  show BitVec.ofNat 32 (s.clock + (v - s.now).toNat) = v
  rw [BitVec.ofNat_add, BitVec.ofNat_toNat, BitVec.setWidth_eq]
  show s.now + (v - s.now) = v
  rw [BitVec.add_comm, BitVec.sub_add_cancel]
theorem withNow_clock (v : Tag) : (s.withNow v).clock = s.clock + elapsed v s.now := rfl
@[simp] theorem withNow_resetHeld (v : Tag) : (s.withNow v).resetHeld = s.resetHeld := rfl
@[simp] theorem withNow_tracker (v : Tag) : (s.withNow v).tracker = s.tracker := rfl
@[simp] theorem withNow_channels (v : Tag) : (s.withNow v).channels = s.channels := rfl
@[simp] theorem withNow_link (v : Tag) : (s.withNow v).link = s.link := rfl
@[simp] theorem withNow_member (v : Tag) : (s.withNow v).member = s.member := rfl
@[simp] theorem withNow_coin (v : Tag) : (s.withNow v).coin = s.coin := rfl
@[simp] theorem withNow_evid (v : Tag) : (s.withNow v).evid = s.evid := rfl
@[simp] theorem withNow_agree (v : Tag) : (s.withNow v).agree = s.agree := rfl
@[simp] theorem withNow_coup (v : Tag) : (s.withNow v).coup = s.coup := rfl
@[simp] theorem withNow_fault (v : Tag) : (s.withNow v).fault = s.fault := rfl
@[simp] theorem withNow_port (v : Tag) : (s.withNow v).port = s.port := rfl
@[simp] theorem withNow_freeCount (v : Tag) : (s.withNow v).freeCount = s.freeCount := rfl
@[simp] theorem withNow_pending (v : Tag) : (s.withNow v).pending = s.pending := rfl
/-- A command at the present tag finds the station where it is. -/
theorem withNow_same : s.withNow s.now = s := by
  unfold State.withNow State.withClock
  simp [elapsed]

/-! `setUnit` -/
@[simp] theorem setUnit_clock (c : Channel) (u : ChannelUnit) : (s.setUnit c u).clock = s.clock := rfl
@[simp] theorem setUnit_resetHeld (c : Channel) (u : ChannelUnit) : (s.setUnit c u).resetHeld = s.resetHeld := rfl
@[simp] theorem setUnit_tracker (c : Channel) (u : ChannelUnit) : (s.setUnit c u).tracker = s.tracker := rfl
@[simp] theorem setUnit_channels (c : Channel) (u : ChannelUnit) :
    (s.setUnit c u).channels = { s.channels with units := s.channels.units.set c u } := rfl
@[simp] theorem setUnit_link (c : Channel) (u : ChannelUnit) : (s.setUnit c u).link = s.link := rfl
@[simp] theorem setUnit_member (c : Channel) (u : ChannelUnit) : (s.setUnit c u).member = s.member := rfl
@[simp] theorem setUnit_coin (c : Channel) (u : ChannelUnit) : (s.setUnit c u).coin = s.coin := rfl
@[simp] theorem setUnit_evid (c : Channel) (u : ChannelUnit) : (s.setUnit c u).evid = s.evid := rfl
@[simp] theorem setUnit_agree (c : Channel) (u : ChannelUnit) : (s.setUnit c u).agree = s.agree := rfl
@[simp] theorem setUnit_coup (c : Channel) (u : ChannelUnit) : (s.setUnit c u).coup = s.coup := rfl
@[simp] theorem setUnit_fault (c : Channel) (u : ChannelUnit) : (s.setUnit c u).fault = s.fault := rfl
@[simp] theorem setUnit_port (c : Channel) (u : ChannelUnit) : (s.setUnit c u).port = s.port := rfl
@[simp] theorem setUnit_freeCount (c : Channel) (u : ChannelUnit) : (s.setUnit c u).freeCount = s.freeCount := rfl
@[simp] theorem setUnit_pending (c : Channel) (u : ChannelUnit) : (s.setUnit c u).pending = s.pending := rfl
@[simp] theorem setUnit_now (c : Channel) (u : ChannelUnit) : (s.setUnit c u).now = s.now := rfl

/-! `setLane` -/
@[simp] theorem setLane_clock (l : Lane) (u : LaneUnit) : (s.setLane l u).clock = s.clock := rfl
@[simp] theorem setLane_resetHeld (l : Lane) (u : LaneUnit) : (s.setLane l u).resetHeld = s.resetHeld := rfl
@[simp] theorem setLane_tracker (l : Lane) (u : LaneUnit) : (s.setLane l u).tracker = s.tracker := rfl
@[simp] theorem setLane_channels (l : Lane) (u : LaneUnit) : (s.setLane l u).channels = s.channels := rfl
@[simp] theorem setLane_link (l : Lane) (u : LaneUnit) :
    (s.setLane l u).link = { s.link with lanes := s.link.lanes.set l u } := rfl
@[simp] theorem setLane_member (l : Lane) (u : LaneUnit) : (s.setLane l u).member = s.member := rfl
@[simp] theorem setLane_coin (l : Lane) (u : LaneUnit) : (s.setLane l u).coin = s.coin := rfl
@[simp] theorem setLane_evid (l : Lane) (u : LaneUnit) : (s.setLane l u).evid = s.evid := rfl
@[simp] theorem setLane_agree (l : Lane) (u : LaneUnit) : (s.setLane l u).agree = s.agree := rfl
@[simp] theorem setLane_coup (l : Lane) (u : LaneUnit) : (s.setLane l u).coup = s.coup := rfl
@[simp] theorem setLane_fault (l : Lane) (u : LaneUnit) : (s.setLane l u).fault = s.fault := rfl
@[simp] theorem setLane_port (l : Lane) (u : LaneUnit) : (s.setLane l u).port = s.port := rfl
@[simp] theorem setLane_freeCount (l : Lane) (u : LaneUnit) : (s.setLane l u).freeCount = s.freeCount := rfl
@[simp] theorem setLane_pending (l : Lane) (u : LaneUnit) : (s.setLane l u).pending = s.pending := rfl
@[simp] theorem setLane_now (l : Lane) (u : LaneUnit) : (s.setLane l u).now = s.now := rfl

/-! `setPeer` -/
@[simp] theorem setPeer_clock (st : Station) (r : PeerRecord) : (s.setPeer st r).clock = s.clock := rfl
@[simp] theorem setPeer_resetHeld (st : Station) (r : PeerRecord) : (s.setPeer st r).resetHeld = s.resetHeld := rfl
@[simp] theorem setPeer_tracker (st : Station) (r : PeerRecord) : (s.setPeer st r).tracker = s.tracker := rfl
@[simp] theorem setPeer_channels (st : Station) (r : PeerRecord) : (s.setPeer st r).channels = s.channels := rfl
@[simp] theorem setPeer_link (st : Station) (r : PeerRecord) : (s.setPeer st r).link = s.link := rfl
@[simp] theorem setPeer_member (st : Station) (r : PeerRecord) :
    (s.setPeer st r).member = { s.member with peers := s.member.peers.set st r } := rfl
@[simp] theorem setPeer_coin (st : Station) (r : PeerRecord) : (s.setPeer st r).coin = s.coin := rfl
@[simp] theorem setPeer_evid (st : Station) (r : PeerRecord) : (s.setPeer st r).evid = s.evid := rfl
@[simp] theorem setPeer_agree (st : Station) (r : PeerRecord) : (s.setPeer st r).agree = s.agree := rfl
@[simp] theorem setPeer_coup (st : Station) (r : PeerRecord) : (s.setPeer st r).coup = s.coup := rfl
@[simp] theorem setPeer_fault (st : Station) (r : PeerRecord) : (s.setPeer st r).fault = s.fault := rfl
@[simp] theorem setPeer_port (st : Station) (r : PeerRecord) : (s.setPeer st r).port = s.port := rfl
@[simp] theorem setPeer_freeCount (st : Station) (r : PeerRecord) : (s.setPeer st r).freeCount = s.freeCount := rfl
@[simp] theorem setPeer_pending (st : Station) (r : PeerRecord) : (s.setPeer st r).pending = s.pending := rfl
@[simp] theorem setPeer_now (st : Station) (r : PeerRecord) : (s.setPeer st r).now = s.now := rfl

@[simp] theorem Four.get_set {α : Type} (f : Four α) (i : Channel) (a : α) : (f.set i a).get i = a := by cases i <;> rfl
theorem Four.get_set_ne {α : Type} (f : Four α) {i j : Channel} (a : α) (h : j ≠ i) : (f.set i a).get j = f.get j := by
  cases i <;> cases j <;> first | rfl | exact absurd rfl h

@[simp] theorem PerLane.get_set {α : Type} (f : PerLane α) (i : Lane) (a : α) : (f.set i a).get i = a := by cases i <;> rfl
theorem PerLane.get_set_ne {α : Type} (f : PerLane α) {i j : Lane} (a : α) (h : j ≠ i) : (f.set i a).get j = f.get j := by
  cases i <;> cases j <;> first | rfl | exact absurd rfl h

@[simp] theorem Eight.get_set {α : Type} (f : Eight α) (i : Station) (a : α) : (f.set i a).get i = a := by cases i <;> rfl
theorem Eight.get_set_ne {α : Type} (f : Eight α) {i j : Station} (a : α) (h : j ≠ i) : (f.set i a).get j = f.get j := by
  cases i <;> cases j <;> first | rfl | exact absurd rfl h

@[simp] theorem Four.get_map {α β : Type} (g : Channel → α → β) (f : Four α) (i : Channel) :
    (f.map g).get i = g i (f.get i) := by cases i <;> rfl

end Sys2Proof.Machine
end

