-- ==== Sys2Proof/Laws/Sound.lean ====
section
/-! SUPPORT. Where no read can find a fault (`_quiet`: nothing has flipped but the word set aside; `_sound`: nothing has flipped): what
every parity check, and every operation that makes one, comes to then. -/

namespace Sys2Proof.Machine

/-- No stored bit has flipped. -/
def NoFlips (s : State) : Prop := s.fault.flipped = []

/-- No read finds a parity fault. -/
def NoBadWord (s : State) : Prop := ∀ w, badParity s w = false

theorem Sound.noFlips {m : Moment} {s : State} (h : Sound m s) : NoFlips s := h.2.1

/-- The word set aside is not taken as a fault again (R163). -/
theorem noBadWord_of_aside {s : State} (h : ∀ u ∈ s.fault.flipped, s.fault.faultedWord = some u.word) : NoBadWord s := by
  intro w
  unfold badParity
  rw [Bool.and_eq_false_iff]
  by_cases hw : s.fault.faultedWord = some w
  · exact Or.inr (by simp [hw])
  · refine Or.inl (List.any_eq_false.mpr fun u hu he => hw ?_)
    rw [h u hu, eq_of_beq he]

theorem NoFlips.noBadWord {s : State} (h : NoFlips s) : NoBadWord s :=
  noBadWord_of_aside fun u hu => by rw [show s.fault.flipped = [] from h] at hu; cases hu

theorem NoFaultToFind.noBadWord {m : Moment} {s : State} (h : NoFaultToFind m s) : NoBadWord s := noBadWord_of_aside h.2.2

theorem Sound.noFaultToFind {m : Moment} {s : State} (h : Sound m s) : NoFaultToFind m s :=
  ⟨h.1, h.2.2, fun u hu => by rw [h.2.1] at hu; cases hu⟩

/-- A command that brings no upset only moves the time tag on as it arrives. -/
theorem arrive_noUpsets {m : Moment} (h : m.upsets = []) (s : State) : arrive m s = s.withNow m.tag := by
  unfold arrive
  rw [h]
  simp only [List.filter_nil, List.append_nil]
  rfl

/-- No read finds a parity fault. -/
theorem badParity_sound {s : State} (h : NoFlips s) (w : StoreWord) : badParity s w = false := h.noBadWord w

/-- Where the access timeout was sound, the end of a step looks at nothing again. -/
theorem lookAgain_quiet {s : State} (h : NoBadWord s) (t : State) : lookAgain s t = t := by
  unfold lookAgain
  rw [h, Bool.and_false, Bool.false_and, Bool.false_and, Bool.false_and]
  rfl

/-- A step that does not freeze a station at work ends as it is. -/
theorem lookAgain_live {s t : State} (h : s.atWork = false ∨ t.member.station ≠ .frozen) : lookAgain s t = t := by
  unfold lookAgain
  rcases h with h | h
  · rw [h]; rfl
  · rw [beq_eq_false_iff_ne.mpr h, Bool.and_false, Bool.false_and, Bool.false_and]; rfl

/-- A command that freezes no station at work has its effect, at its moment. -/
theorem atMoment_live {m : Moment} {s : State} (hu : m.upsets = []) (hr : s.resetHeld = false) (f : State → State)
    (h : s.atWork = false ∨ (f (s.withNow m.tag)).member.station ≠ .frozen) :
    atMoment m s f = .next (f (s.withNow m.tag)) := by
  unfold atMoment
  rw [arrive_noUpsets hu, lookAgain_live (s := s.withNow m.tag) h, hr]
  rfl

/-- A command whose step can find no fault has its effect, at its moment. -/
theorem atMoment_quiet {m : Moment} {s : State} (h : NoFaultToFind m s) (f : State → State) :
    atMoment m s f = .next (f (s.withNow m.tag)) := by
  unfold atMoment
  rw [arrive_noUpsets h.1, lookAgain_quiet (s := s.withNow m.tag) h.noBadWord, h.2.1]
  rfl

/-- No word of the configuration store is bad. -/
theorem badConfig_quiet {s : State} (h : NoBadWord s) (offsets : List Nat) : badConfig offsets s = none := by
  simp [badConfig, List.find?_eq_none, h _]

/-- Work that reads words of the configuration store is just done. -/
theorem readingConfig_quiet {s : State} (h : NoBadWord s) (offsets : List Nat) (stop f : State → State) :
    readingConfig offsets stop f s = f s := by
  unfold readingConfig
  rw [badConfig_quiet h]
theorem readingConfig_sound {s : State} (h : NoFlips s) (offsets : List Nat) (stop f : State → State) :
    readingConfig offsets stop f s = f s := readingConfig_quiet h.noBadWord offsets stop f

/-- Work that uses words of the configuration store is just done. -/
theorem usingConfig_quiet {s : State} (h : NoBadWord s) (offsets : List Nat) (f : State → State) :
    usingConfig offsets f s = f s := readingConfig_quiet h offsets id f
theorem usingConfig_sound {s : State} (h : NoFlips s) (offsets : List Nat) (f : State → State) :
    usingConfig offsets f s = f s := usingConfig_quiet h.noBadWord offsets f

theorem findBad_quiet {s : State} (h : NoBadWord s) (words : List StoreWord) : (words.find? fun w => badParity s w) = none := by
  simp [List.find?_eq_none, h _]

/-- Work that reads words of the table or the snapshot is just done. -/
theorem usingWords_quiet {s : State} (h : NoBadWord s) (words : List StoreWord) (f : State → State) :
    usingWords words f s = f s := by
  unfold usingWords
  rw [findBad_quiet h]
theorem usingWords_sound {s : State} (h : NoFlips s) (words : List StoreWord) (f : State → State) :
    usingWords words f s = f s := usingWords_quiet h.noBadWord words f

/-- The Board Port's reads are just done. -/
theorem boardReads_quiet {s : State} (h : NoBadWord s) (words : List StoreWord) (f : State → State) :
    boardReads words f s = f s := by
  unfold boardReads
  rw [findBad_quiet h]
theorem boardReads_sound {s : State} (h : NoFlips s) (words : List StoreWord) (f : State → State) :
    boardReads words f s = f s := boardReads_quiet h.noBadWord words f

/-- The next frame is just selected. -/
theorem selectNext_quiet {s : State} (h : NoBadWord s) : selectNext s = selectFrame s := by
  unfold selectNext
  split
  · rename_i hc
    unfold selectFrame
    split
    · rfl
    · rename_i hn
      have he : candidates s = [] := by simpa [hn] using hc
      rw [he]
      rfl
  · exact usingConfig_quiet h _ _
theorem selectNext_sound {s : State} (h : NoFlips s) : selectNext s = selectFrame s := selectNext_quiet h.noBadWord

/-- A request is taken or refused, and the next frame selected (R46, R48). -/
theorem request_quiet {s : State} (kind : FrameKind) (payload : List Byte) (taken : Nat → State → State) (refused : State → State)
    (h : NoBadWord (taken s.link.nextRef (enqueue kind payload s))) :
    request kind payload taken refused s =
      if canRequest kind s then selectFrame (taken s.link.nextRef (enqueue kind payload s)) else refused s := by
  unfold request
  rw [selectNext_quiet h]
theorem request_sound {s : State} (kind : FrameKind) (payload : List Byte) (taken : Nat → State → State) (refused : State → State)
    (h : NoFlips (taken s.link.nextRef (enqueue kind payload s))) :
    request kind payload taken refused s =
      if canRequest kind s then selectFrame (taken s.link.nextRef (enqueue kind payload s)) else refused s :=
  request_quiet kind payload taken refused h.noBadWord

/-- What follows goes on where the station is not FROZEN. -/
theorem unlessFrozen_live {s : State} (h : s.member.station ≠ .frozen) (f : State → State) : s.unlessFrozen f = f s := by
  unfold State.unlessFrozen
  rw [if_neg h]

/-- No entry of the Hit Window is removed. -/
theorem checkWindow_sound {s : State} (h : NoFlips s) : checkWindow s = s := by
  have hn : (s.coin.window.filter fun e => badParity s (.window e.id)) = [] := by
    simp [badParity_sound h]
  unfold checkWindow
  rw [hn]
  rfl

/-- The group's re-forming finds nothing. -/
theorem formGroup_sound {s : State} (h : NoFlips s) : formGroup s = s := by
  unfold formGroup
  rw [checkWindow_sound h]
  dsimp only
  rw [usingConfig_sound h]
  split <;> rfl

/-- A read of the Hit Window finds nothing. -/
theorem readWindow_sound {s : State} (h : NoFlips s) : readWindow s = s := by
  unfold readWindow
  rw [formGroup_sound h]
  split <;> rfl

/-- Words written anew had matching parity before. -/
theorem rewrite_sound {s : State} (h : NoFlips s) (p : StoreWord → Bool) : rewrite p s = s := by
  unfold rewrite
  rw [show s.fault.flipped = [] from h, List.filter_nil, ← show s.fault.flipped = [] from h]
  rfl

/-- A hit's entry leaves only the hit behind. -/
theorem hitEntered_sound {s : State} (h : NoFlips s) (id : HitId) : hitEntered id s = s := by
  unfold hitEntered
  rw [rewrite_sound h, formGroup_sound h]

/-- A removal request takes the hit's entry out and does nothing else (R80). -/
theorem requestRemoval_sound {s : State} (h : NoFlips s) (id : HitId) :
    requestRemoval id s = s.withCoin { s.coin with window := s.coin.window.filter fun e => e.id != id } := by
  have hr : removeHit id s = s.withCoin { s.coin with window := s.coin.window.filter fun e => e.id != id } :=
    rewrite_sound (s := s.withCoin { s.coin with window := s.coin.window.filter fun e => e.id != id }) h _
  unfold requestRemoval
  split
  · rw [hr]
    exact formGroup_sound (s := s.withCoin { s.coin with window := s.coin.window.filter fun e => e.id != id }) h
  · rename_i hn
    have hf : (s.coin.window.filter fun e => e.id != id) = s.coin.window := by
      rw [List.filter_eq_self]
      intro e he
      have : ¬ e.id = id := fun hi => hn (List.any_eq_true.mpr ⟨e, he, by simp [hi]⟩)
      simp [this]
    rw [hf]
    rfl

/-- A record of a HIT frame never touches the stores' parity or the station. -/
theorem peerHit_keeps (sender : Station) (offset : Tag) (h : HitRecord) (s : State) :
    (peerHit sender offset s h).fault = s.fault ∧ (peerHit sender offset s h).member = s.member := by
  unfold peerHit
  dsimp only
  repeat' split
  all_goals exact ⟨rfl, rfl⟩

/-- The records of a HIT frame are judged one after the other (R81 to R83). -/
theorem takePeerHits_sound (sender : Station) (offset : Tag) (hs : List HitRecord) {s : State} (h : NoFlips s)
    (hw : s.member.station ≠ .frozen) : takePeerHits sender offset hs s = hs.foldl (peerHit sender offset) s := by
  induction hs generalizing s with
  | nil => rfl
  | cons r rs ih =>
    have hk := peerHit_keeps sender offset r s
    have h1 : NoFlips (peerHit sender offset s r) := by unfold NoFlips; rw [hk.1]; exact h
    have h2 : takePeerHit sender offset r s = peerHit sender offset s r := by
      unfold takePeerHit
      dsimp only
      rw [hitEntered_sound h1]
      split <;> rfl
    unfold takePeerHits
    rw [h2, unlessFrozen_live (by rw [hk.2]; exact hw), ih h1 (by rw [hk.2]; exact hw)]
    rfl

/-- No entry of the Applied Event List is removed. -/
theorem checkApplied_applied {s : State} (h : NoFlips s) : (checkApplied s).evid = s.evid := by
  have hf : (s.evid.applied.filter fun a => !badParity s (appliedWord a)) = s.evid.applied := by
    simp [badParity_sound h]
  unfold checkApplied
  simp [rewrite, hf]

/-- The fold goes through every segment (R116). -/
theorem foldSegments_sound (closed : Option CycleNo) (ns : List Nat) {s : State} (h : NoFlips s) (hs : s.member.station ≠ .frozen) :
    foldSegments closed ns s = s.withEvid { s.evid with
      table := ns.foldl (fun t n => t.modify (n - 1) (foldRecord s.block closed (entriesOn s.block s.evid.applied n))) s.evid.table } := by
  induction ns generalizing s with
  | nil => rfl
  | cons n ns ih =>
    have h1 : foldSegment closed n s = foldOne closed n s := by
      unfold foldSegment
      rw [usingWords_sound h, usingConfig_sound h]
    unfold foldSegments
    rw [h1, unlessFrozen_live (by exact hs), ih (by exact h) (by exact hs)]
    rfl

/-- A CONTROL goes through every segment it selects (R122). -/
theorem controlSegments_sound (c : Control) (ns : List Nat) {s : State} (h : NoFlips s) (hs : s.member.station ≠ .frozen) :
    controlSegments c ns s = s.withEvid { s.evid with
      table := ns.foldl (fun t n => t.modify (n - 1) (controlRecord c n)) s.evid.table } := by
  induction ns generalizing s with
  | nil => rfl
  | cons n ns ih =>
    unfold controlSegments
    rw [usingWords_sound h, unlessFrozen_live (by exact hs), ih (by exact h) (by exact hs)]
    rfl

end Sys2Proof.Machine
end

