-- ==== Sys2Proof/Laws/Calm.lean ====
section
/-! SUPPORT. With sound stores no operation but those that write the tracker or the station's state touches them: one lemma for each
operation. -/

namespace Sys2Proof.Machine

/-- What the operations of a command with sound stores leave alone: no bit flips, and the tracker, the station's state, number and
fingerprint, the configuration store, the clock and the RESET pin are those of `r`, whose notices are still in the queue. -/
def Calm (r s : State) : Prop :=
  s.fault.flipped = [] ∧ s.tracker = r.tracker ∧ s.member.station = r.member.station ∧ s.member.number = r.member.number ∧
  s.member.fingerprint = r.member.fingerprint ∧ s.port.config = r.port.config ∧ s.clock = r.clock ∧ s.resetHeld = r.resetHeld ∧
  r.port.notices <+: s.port.notices
theorem Calm.refl {s : State} (h : NoFlips s) : Calm s s := ⟨h, rfl, rfl, rfl, rfl, rfl, rfl, rfl, List.prefix_rfl⟩
@[simp] theorem Calm.noFlips {r s : State} (h : Calm r s) : NoFlips s := h.1
theorem Calm.now {r s : State} (h : Calm r s) : s.now = r.now := congrArg (BitVec.ofNat 32) h.2.2.2.2.2.2.1
theorem Calm.block {r s : State} (h : Calm r s) : s.block = r.block := by
  unfold State.block; rw [h.2.2.2.2.2.1]
@[simp] theorem withTracker_calm (r s : State) (v) (h : Calm r s) : Calm (r.withTracker v) (s.withTracker v) := ⟨h.1, rfl, h.2.2⟩
@[simp] theorem withMember_calm (r s : State) (v) (h : Calm r s) (h1 : v.station = s.member.station) (h2 : v.number = s.member.number) (h3 : v.fingerprint = s.member.fingerprint) : Calm r (s.withMember v) :=
  ⟨h.1, h.2.1, h1.trans h.2.2.1, h2.trans h.2.2.2.1, h3.trans h.2.2.2.2.1, h.2.2.2.2.2⟩
@[simp] theorem withPort_calm (r s : State) (v) (h : Calm r s) (h1 : v.config = s.port.config) (h2 : s.port.notices <+: v.notices) : Calm r (s.withPort v) :=
  ⟨h.1, h.2.1, h.2.2.1, h.2.2.2.1, h.2.2.2.2.1, h1.trans h.2.2.2.2.2.1, h.2.2.2.2.2.2.1, h.2.2.2.2.2.2.2.1,
    h.2.2.2.2.2.2.2.2.trans h2⟩
@[simp] theorem withFault_calm (r s : State) (v) (h : Calm r s) (h1 : v.flipped = s.fault.flipped) : Calm r (s.withFault v) :=
  ⟨h1.trans h.1, h.2⟩
@[simp] theorem setUnit_calm (r s : State) (c v) : Calm r (s.setUnit c v) ↔ Calm r s := ⟨id, id⟩
@[simp] theorem setLane_calm (r s : State) (c v) : Calm r (s.setLane c v) ↔ Calm r s := ⟨id, id⟩
@[simp] theorem setPeer_calm (r s : State) (c v) : Calm r (s.setPeer c v) ↔ Calm r s := ⟨id, id⟩
variable {r : State}
@[simp] theorem foldl_calm {α : Type} (f : State → α → State) (h : ∀ t a, Calm r t → Calm r (f t a)) (l : List α) (s : State) (hs : Calm r s) : Calm r (l.foldl f s) := by
  induction l generalizing s with
  | nil => exact hs
  | cons a l ih => exact ih _ (h _ _ hs)
@[simp] theorem rewrite_calm (r : State) (p : StoreWord → Bool) (s : State) (h : Calm r s) : Calm r (rewrite p s) :=
  ⟨by show s.fault.flipped.filter _ = []; rw [h.1]; rfl, h.2⟩
@[simp] theorem readingConfig_calm (r : State) (offsets : List Nat) (stop f : State → State) (s : State) (hf : ∀ t, Calm r t → Calm r (f t)) (h : Calm r s) : Calm r (readingConfig offsets stop f s) := by
  rw [readingConfig_sound h.noFlips]; exact hf _ h
@[simp] theorem boardReads_calm (r : State) (words : List StoreWord) (f : State → State) (s : State) (hf : ∀ t, Calm r t → Calm r (f t)) (h : Calm r s) : Calm r (boardReads words f s) := by
  rw [boardReads_sound h.noFlips]; exact hf _ h
@[simp] theorem usingConfig_calm (r : State) (offsets : List Nat) (f : State → State) (s : State) (hf : ∀ t, Calm r t → Calm r (f t)) (h : Calm r s) : Calm r (usingConfig offsets f s) := by
  rw [usingConfig_sound h.noFlips]; exact hf _ h
@[simp] theorem usingWords_calm (r : State) (words : List StoreWord) (f : State → State) (s : State) (hf : ∀ t, Calm r t → Calm r (f t)) (h : Calm r s) : Calm r (usingWords words f s) := by
  rw [usingWords_sound h.noFlips]; exact hf _ h
@[simp] theorem withChannels_calm (r s : State) (v) : Calm r (s.withChannels v) ↔ Calm r s := ⟨id, id⟩
@[simp] theorem withLink_calm (r s : State) (v) : Calm r (s.withLink v) ↔ Calm r s := ⟨id, id⟩
@[simp] theorem withCoin_calm (r s : State) (v) : Calm r (s.withCoin v) ↔ Calm r s := ⟨id, id⟩
@[simp] theorem withEvid_calm (r s : State) (v) : Calm r (s.withEvid v) ↔ Calm r s := ⟨id, id⟩
@[simp] theorem withAgree_calm (r s : State) (v) : Calm r (s.withAgree v) ↔ Calm r s := ⟨id, id⟩
@[simp] theorem withCoup_calm (r s : State) (v) : Calm r (s.withCoup v) ↔ Calm r s := ⟨id, id⟩
@[simp] theorem withFreeCount_calm (r s : State) (v) : Calm r (s.withFreeCount v) ↔ Calm r s := ⟨id, id⟩
@[simp] theorem withPending_calm (r s : State) (v) : Calm r (s.withPending v) ↔ Calm r s := ⟨id, id⟩

@[simp] theorem unlessFrozen_calm (s : State) (f : State → State) (hf : ∀  t, Calm r t → Calm r (f t)) (hs : Calm r s) : Calm r (State.unlessFrozen s f) := by
  unfold State.unlessFrozen; (try dsimp only) <;> (try (repeat' split) <;> first | exact hs | (simp (maxDischargeDepth := 40) [*]; done) | (simp +contextual (maxDischargeDepth := 40) [*]; done))
@[simp] theorem raise_calm (n : Notice) (s : State) (hs : Calm r s) : Calm r (raise n s) := by
  unfold raise; (try dsimp only) <;> (try (repeat' split) <;> first | exact hs | (simp (maxDischargeDepth := 40) [*]; done) | (simp +contextual (maxDischargeDepth := 40) [*]; done))
@[simp] theorem raiseNow_calm (subject : Nat) (d : NoticeDetail) (s : State) (hs : Calm r s) : Calm r (raiseNow subject d s) := by
  unfold raiseNow; (try dsimp only) <;> (try (repeat' split) <;> first | exact hs | (simp (maxDischargeDepth := 40) [*]; done) | (simp +contextual (maxDischargeDepth := 40) [*]; done))
@[simp] theorem offerStacked_calm (s : State) (hs : Calm r s) : Calm r (offerStacked s) := by
  unfold offerStacked; (try dsimp only) <;> (try (repeat' split) <;> first | exact hs | (simp (maxDischargeDepth := 40) [*]; done) | (simp +contextual (maxDischargeDepth := 40) [*]; done))
@[simp] theorem beginFrame_calm (ref : Option Nat) (kind : FrameKind) (payload : List Byte) (s : State) (hs : Calm r s) : Calm r (beginFrame ref kind payload s) := by
  unfold beginFrame; (try dsimp only) <;> (try (repeat' split) <;> first | exact hs | (simp (maxDischargeDepth := 40) [*]; done) | (simp +contextual (maxDischargeDepth := 40) [*]; done))
@[simp] theorem selectEntry_calm (c : Candidate) (s : State) (hs : Calm r s) : Calm r (selectEntry c s) := by
  unfold selectEntry; (try dsimp only) <;> (try (repeat' split) <;> first | exact hs | (simp (maxDischargeDepth := 40) [*]; done) | (simp +contextual (maxDischargeDepth := 40) [*]; done))
@[simp] theorem selectFrame_calm (s : State) (hs : Calm r s) : Calm r (selectFrame s) := by
  unfold selectFrame; (try dsimp only) <;> (try (repeat' split) <;> first | exact hs | (simp (maxDischargeDepth := 40) [*]; done) | (simp +contextual (maxDischargeDepth := 40) [*]; done))
@[simp] theorem enqueue_calm (kind : FrameKind) (payload : List Byte) (s : State) (hs : Calm r s) : Calm r (enqueue kind payload s) := by
  unfold enqueue; (try dsimp only) <;> (try (repeat' split) <;> first | exact hs | (simp (maxDischargeDepth := 40) [*]; done) | (simp +contextual (maxDischargeDepth := 40) [*]; done))
@[simp] theorem requestUnchecked_calm (kind : FrameKind) (payload : List Byte) (s : State) (hs : Calm r s) : Calm r (requestUnchecked kind payload s) := by
  unfold requestUnchecked; (try dsimp only) <;> (try (repeat' split) <;> first | exact hs | (simp (maxDischargeDepth := 40) [*]; done) | (simp +contextual (maxDischargeDepth := 40) [*]; done))
@[simp] theorem withdraw_calm (ref : Nat) (s : State) (hs : Calm r s) : Calm r (withdraw ref s) := by
  unfold withdraw; (try dsimp only) <;> (try (repeat' split) <;> first | exact hs | (simp (maxDischargeDepth := 40) [*]; done) | (simp +contextual (maxDischargeDepth := 40) [*]; done))
@[simp] theorem removeHit_calm (id : HitId) (s : State) (hs : Calm r s) : Calm r (removeHit id s) := by
  unfold removeHit; (try dsimp only) <;> (try (repeat' split) <;> first | exact hs | (simp (maxDischargeDepth := 40) [*]; done) | (simp +contextual (maxDischargeDepth := 40) [*]; done))
@[simp] theorem settleCapture_calm (c : Channel) (arrival : Tag) (new : Capture) (s : State) (hs : Calm r s) : Calm r (settleCapture c arrival new s) := by
  unfold settleCapture; (try dsimp only) <;> (try (repeat' split) <;> first | exact hs | (simp (maxDischargeDepth := 40) [*]; done) | (simp +contextual (maxDischargeDepth := 40) [*]; done))
@[simp] theorem offerPolicy_calm (s : State) (hs : Calm r s) : Calm r (offerPolicy s) := by
  unfold offerPolicy; (try dsimp only) <;> (try (repeat' split) <;> first | exact hs | (simp (maxDischargeDepth := 40) [*]; done) | (simp +contextual (maxDischargeDepth := 40) [*]; done))
@[simp] theorem channelsWindowOpened_calm (s : State) (hs : Calm r s) : Calm r (channelsWindowOpened s) := by
  unfold channelsWindowOpened; (try dsimp only) <;> (try (repeat' split) <;> first | exact hs | (simp (maxDischargeDepth := 40) [*]; done) | (simp +contextual (maxDischargeDepth := 40) [*]; done))
@[simp] theorem selectNext_calm (s : State) (hs : Calm r s) : Calm r (selectNext s) := by
  unfold selectNext; (try dsimp only) <;> (try (repeat' split) <;> first | exact hs | (simp (maxDischargeDepth := 40) [*]; done) | (simp +contextual (maxDischargeDepth := 40) [*]; done))
@[simp] theorem request_calm (kind : FrameKind) (payload : List Byte) (taken : Nat → State → State) (refused : State → State) (s : State) (htaken : ∀ a t, Calm r t → Calm r (taken a t)) (hrefused : ∀  t, Calm r t → Calm r (refused t)) (hs : Calm r s) : Calm r (request kind payload taken refused s) := by
  unfold request; (try dsimp only) <;> (try (repeat' split) <;> first | exact hs | (simp (maxDischargeDepth := 40) [*]; done) | (simp +contextual (maxDischargeDepth := 40) [*]; done))
@[simp] theorem keepNoRef_calm (_ref : Nat) (s : State) (hs : Calm r s) : Calm r (keepNoRef _ref s) := by
  unfold keepNoRef; (try dsimp only) <;> (try (repeat' split) <;> first | exact hs | (simp (maxDischargeDepth := 40) [*]; done) | (simp +contextual (maxDischargeDepth := 40) [*]; done))
@[simp] theorem softFault_calm (s : State) (hs : Calm r s) : Calm r (softFault s) := by
  unfold softFault; (try dsimp only) <;> (try (repeat' split) <;> first | exact hs | (simp (maxDischargeDepth := 40) [*]; done) | (simp +contextual (maxDischargeDepth := 40) [*]; done))
@[simp] theorem checkWindow_calm (s : State) (hs : Calm r s) : Calm r (checkWindow s) := by
  rw [checkWindow_sound hs.noFlips]; exact hs
@[simp] theorem formGroup_calm (s : State) (hs : Calm r s) : Calm r (formGroup s) := by
  unfold formGroup; (try dsimp only) <;> (try (repeat' split) <;> first | exact hs | (simp (maxDischargeDepth := 40) [*]; done) | (simp +contextual (maxDischargeDepth := 40) [*]; done))
@[simp] theorem readWindow_calm (s : State) (hs : Calm r s) : Calm r (readWindow s) := by
  unfold readWindow; (try dsimp only) <;> (try (repeat' split) <;> first | exact hs | (simp (maxDischargeDepth := 40) [*]; done) | (simp +contextual (maxDischargeDepth := 40) [*]; done))
@[simp] theorem hitEntered_calm (id : HitId) (s : State) (hs : Calm r s) : Calm r (hitEntered id s) := by
  unfold hitEntered; (try dsimp only) <;> (try (repeat' split) <;> first | exact hs | (simp (maxDischargeDepth := 40) [*]; done) | (simp +contextual (maxDischargeDepth := 40) [*]; done))
@[simp] theorem requestRemoval_calm (id : HitId) (s : State) (hs : Calm r s) : Calm r (requestRemoval id s) := by
  unfold requestRemoval; (try dsimp only) <;> (try (repeat' split) <;> first | exact hs | (simp (maxDischargeDepth := 40) [*]; done) | (simp +contextual (maxDischargeDepth := 40) [*]; done))
@[simp] theorem discardHit_calm (c : Channel) (hit : Option OpenHit) (s : State) (hs : Calm r s) : Calm r (discardHit c hit s) := by
  unfold discardHit; (try dsimp only) <;> (try (repeat' split) <;> first | exact hs | (simp (maxDischargeDepth := 40) [*]; done) | (simp +contextual (maxDischargeDepth := 40) [*]; done))
@[simp] theorem disableInto_calm (c : Channel) (u : ChannelUnit) (s : State) (hs : Calm r s) : Calm r (disableInto c u s) := by
  unfold disableInto; (try dsimp only) <;> (try (repeat' split) <;> first | exact hs | (simp (maxDischargeDepth := 40) [*]; done) | (simp +contextual (maxDischargeDepth := 40) [*]; done))
@[simp] theorem disableChannel_calm (c : Channel) (state : ChannelState) (role : Role) (s : State) (hs : Calm r s) : Calm r (disableChannel c state role s) := by
  unfold disableChannel; (try dsimp only) <;> (try (repeat' split) <;> first | exact hs | (simp (maxDischargeDepth := 40) [*]; done) | (simp +contextual (maxDischargeDepth := 40) [*]; done))
@[simp] theorem checkApplied_calm (s : State) (hs : Calm r s) : Calm r (checkApplied s) := by
  unfold checkApplied
  exact rewrite_calm _ _ _ ⟨hs.1, hs.2⟩

@[simp] theorem muteChannel_calm (c : Channel) (s : State) (hs : Calm r s) : Calm r (muteChannel c s) := by
  unfold muteChannel; (try dsimp only) <;> (try (repeat' split) <;> first | exact hs | (simp (maxDischargeDepth := 40) [*]; done) | (simp +contextual (maxDischargeDepth := 40) [*]; done))
@[simp] theorem listenAgain_calm (c : Channel) (s : State) (hs : Calm r s) : Calm r (listenAgain c s) := by
  unfold listenAgain; (try dsimp only) <;> (try (repeat' split) <;> first | exact hs | (simp (maxDischargeDepth := 40) [*]; done) | (simp +contextual (maxDischargeDepth := 40) [*]; done))
@[simp] theorem unmuteChannel_calm (c : Channel) (s : State) (hs : Calm r s) : Calm r (unmuteChannel c s) := by
  unfold unmuteChannel; (try dsimp only) <;> (try (repeat' split) <;> first | exact hs | (simp (maxDischargeDepth := 40) [*]; done) | (simp +contextual (maxDischargeDepth := 40) [*]; done))
@[simp] theorem remute_calm (c : Channel) (s : State) (hs : Calm r s) : Calm r (remute c s) := by
  unfold remute; (try dsimp only) <;> (try (repeat' split) <;> first | exact hs | (simp (maxDischargeDepth := 40) [*]; done) | (simp +contextual (maxDischargeDepth := 40) [*]; done))
@[simp] theorem listenAfterPulse_calm (c : Channel) (s : State) (hs : Calm r s) : Calm r (listenAfterPulse c s) := by
  unfold listenAfterPulse; (try dsimp only) <;> (try (repeat' split) <;> first | exact hs | (simp (maxDischargeDepth := 40) [*]; done) | (simp +contextual (maxDischargeDepth := 40) [*]; done))
@[simp] theorem returnToListen_calm (c : Channel) (s : State) (hs : Calm r s) : Calm r (returnToListen c s) := by
  unfold returnToListen; (try dsimp only) <;> (try (repeat' split) <;> first | exact hs | (simp (maxDischargeDepth := 40) [*]; done) | (simp +contextual (maxDischargeDepth := 40) [*]; done))
@[simp] theorem releaseChannel_calm (c : Channel) (s : State) (hs : Calm r s) : Calm r (releaseChannel c s) := by
  unfold releaseChannel; (try dsimp only) <;> (try (repeat' split) <;> first | exact hs | (simp (maxDischargeDepth := 40) [*]; done) | (simp +contextual (maxDischargeDepth := 40) [*]; done))
@[simp] theorem setSlot_calm (v : Slot) (s : State) (hs : Calm r s) : Calm r (setSlot v s) := by
  unfold setSlot; (try dsimp only) <;> (try (repeat' split) <;> first | exact hs | (simp (maxDischargeDepth := 40) [*]; done) | (simp +contextual (maxDischargeDepth := 40) [*]; done))
@[simp] theorem skipSlot_calm (s : State) (hs : Calm r s) : Calm r (skipSlot s) := by
  unfold skipSlot; (try dsimp only) <;> (try (repeat' split) <;> first | exact hs | (simp (maxDischargeDepth := 40) [*]; done) | (simp +contextual (maxDischargeDepth := 40) [*]; done))
@[simp] theorem slotQueued_calm (ref : Nat) (s : State) (hs : Calm r s) : Calm r (slotQueued ref s) := by
  unfold slotQueued; (try dsimp only) <;> (try (repeat' split) <;> first | exact hs | (simp (maxDischargeDepth := 40) [*]; done) | (simp +contextual (maxDischargeDepth := 40) [*]; done))
@[simp] theorem pulseRefused_calm (c : Channel) (s : State) (hs : Calm r s) : Calm r (pulseRefused c s) := by
  unfold pulseRefused; (try dsimp only) <;> (try (repeat' split) <;> first | exact hs | (simp (maxDischargeDepth := 40) [*]; done) | (simp +contextual (maxDischargeDepth := 40) [*]; done))
@[simp] theorem armChannel_calm (c : Channel) (s : State) (hs : Calm r s) : Calm r (armChannel c s) := by
  unfold armChannel; (try dsimp only) <;> (try (repeat' split) <;> first | exact hs | (simp (maxDischargeDepth := 40) [*]; done) | (simp +contextual (maxDischargeDepth := 40) [*]; done))
@[simp] theorem offerPulse_calm (s : State) (hs : Calm r s) : Calm r (offerPulse s) := by
  unfold offerPulse; (try dsimp only) <;> (try (repeat' split) <;> first | exact hs | (simp (maxDischargeDepth := 40) [*]; done) | (simp +contextual (maxDischargeDepth := 40) [*]; done))
@[simp] theorem offerInTime_calm (tag : Tag) (s : State) (hs : Calm r s) : Calm r (offerInTime tag s) := by
  unfold offerInTime; (try dsimp only) <;> (try (repeat' split) <;> first | exact hs | (simp (maxDischargeDepth := 40) [*]; done) | (simp +contextual (maxDischargeDepth := 40) [*]; done))
@[simp] theorem reofferPulse_calm (s : State) (hs : Calm r s) : Calm r (reofferPulse s) := by
  unfold reofferPulse; (try dsimp only) <;> (try (repeat' split) <;> first | exact hs | (simp (maxDischargeDepth := 40) [*]; done) | (simp +contextual (maxDischargeDepth := 40) [*]; done))
@[simp] theorem releaseNamed_calm (s : State) (hs : Calm r s) : Calm r (releaseNamed s) := by
  unfold releaseNamed; (try dsimp only) <;> (try (repeat' split) <;> first | exact hs | (simp (maxDischargeDepth := 40) [*]; done) | (simp +contextual (maxDischargeDepth := 40) [*]; done))
@[simp] theorem releasePulse_calm (s : State) (hs : Calm r s) : Calm r (releasePulse s) := by
  unfold releasePulse; (try dsimp only) <;> (try (repeat' split) <;> first | exact hs | (simp (maxDischargeDepth := 40) [*]; done) | (simp +contextual (maxDischargeDepth := 40) [*]; done))
@[simp] theorem askChannel_calm (c : Channel) (ask : MuteRequest) (s : State) (hs : Calm r s) : Calm r (askChannel c ask s) := by
  unfold askChannel; (try dsimp only) <;> (try (repeat' split) <;> first | exact hs | (simp (maxDischargeDepth := 40) [*]; done) | (simp +contextual (maxDischargeDepth := 40) [*]; done))
@[simp] theorem judgeRecordOf_calm (w : PulseWindow) (c : Channel) (s : State) (hs : Calm r s) : Calm r (judgeRecordOf w c s) := by
  unfold judgeRecordOf; (try dsimp only) <;> (try (repeat' split) <;> first | exact hs | (simp (maxDischargeDepth := 40) [*]; done) | (simp +contextual (maxDischargeDepth := 40) [*]; done))
@[simp] theorem judgeIfReferred_calm (w : PulseWindow) (c : Channel) (s : State) (hs : Calm r s) : Calm r (judgeIfReferred w c s) := by
  unfold judgeIfReferred; (try dsimp only) <;> (try (repeat' split) <;> first | exact hs | (simp (maxDischargeDepth := 40) [*]; done) | (simp +contextual (maxDischargeDepth := 40) [*]; done))
@[simp] theorem judgeSensor_calm (w : PulseWindow) (c : Channel) (s : State) (hs : Calm r s) : Calm r (judgeSensor w c s) := by
  unfold judgeSensor; (try dsimp only) <;> (try (repeat' split) <;> first | exact hs | (simp (maxDischargeDepth := 40) [*]; done) | (simp +contextual (maxDischargeDepth := 40) [*]; done))
@[simp] theorem judgeSensors_calm (w : PulseWindow) (l : List Channel) (s : State) (hs : Calm r s) : Calm r (judgeSensors w l s) := by
  induction l generalizing s with
  | nil => exact hs
  | cons a l ih => unfold judgeSensors; simp +contextual (maxDischargeDepth := 40) [*]
@[simp] theorem judgeWindow_calm (w : PulseWindow) (s : State) (hs : Calm r s) : Calm r (judgeWindow w s) := by
  unfold judgeWindow; (try dsimp only) <;> (try (repeat' split) <;> first | exact hs | (simp (maxDischargeDepth := 40) [*]; done) | (simp +contextual (maxDischargeDepth := 40) [*]; done))
@[simp] theorem judgeIfReady_calm (s : State) (hs : Calm r s) : Calm r (judgeIfReady s) := by
  unfold judgeIfReady; (try dsimp only) <;> (try (repeat' split) <;> first | exact hs | (simp (maxDischargeDepth := 40) [*]; done) | (simp +contextual (maxDischargeDepth := 40) [*]; done))
@[simp] theorem reofferThenJudge_calm (s : State) (hs : Calm r s) : Calm r (reofferThenJudge s) := by
  unfold reofferThenJudge; (try dsimp only) <;> (try (repeat' split) <;> first | exact hs | (simp (maxDischargeDepth := 40) [*]; done) | (simp +contextual (maxDischargeDepth := 40) [*]; done))
@[simp] theorem closeWindowUnits_calm (s : State) (hs : Calm r s) : Calm r (closeWindowUnits s) := by
  unfold closeWindowUnits; (try dsimp only) <;> (try (repeat' split) <;> first | exact hs | (simp (maxDischargeDepth := 40) [*]; done) | (simp +contextual (maxDischargeDepth := 40) [*]; done))
@[simp] theorem channelsWindowClosed_calm (s : State) (hs : Calm r s) : Calm r (channelsWindowClosed s) := by
  unfold channelsWindowClosed; (try dsimp only) <;> (try (repeat' split) <;> first | exact hs | (simp (maxDischargeDepth := 40) [*]; done) | (simp +contextual (maxDischargeDepth := 40) [*]; done))
@[simp] theorem abandonWindow_calm (s : State) (hs : Calm r s) : Calm r (abandonWindow s) := by
  unfold abandonWindow; (try dsimp only) <;> (try (repeat' split) <;> first | exact hs | (simp (maxDischargeDepth := 40) [*]; done) | (simp +contextual (maxDischargeDepth := 40) [*]; done))
@[simp] theorem openWindow_calm (s : State) (hs : Calm r s) : Calm r (openWindow s) := by
  unfold openWindow; (try dsimp only) <;> (try (repeat' split) <;> first | exact hs | (simp (maxDischargeDepth := 40) [*]; done) | (simp +contextual (maxDischargeDepth := 40) [*]; done))
@[simp] theorem ignoreWindow_calm (s : State) (hs : Calm r s) : Calm r (ignoreWindow s) := by
  unfold ignoreWindow; (try dsimp only) <;> (try (repeat' split) <;> first | exact hs | (simp (maxDischargeDepth := 40) [*]; done) | (simp +contextual (maxDischargeDepth := 40) [*]; done))
@[simp] theorem placeWindow_calm (pulser : Station) (fire finish : Tag) (s : State) (hs : Calm r s) : Calm r (placeWindow pulser fire finish s) := by
  unfold placeWindow; (try dsimp only) <;> (try (repeat' split) <;> first | exact hs | (simp (maxDischargeDepth := 40) [*]; done) | (simp +contextual (maxDischargeDepth := 40) [*]; done))
@[simp] theorem takePulse_calm (pulser : Station) (stamp : Tag) (s : State) (hs : Calm r s) : Calm r (takePulse pulser stamp s) := by
  unfold takePulse; (try dsimp only) <;> (try (repeat' split) <;> first | exact hs | (simp (maxDischargeDepth := 40) [*]; done) | (simp +contextual (maxDischargeDepth := 40) [*]; done))
@[simp] theorem pulseFrame_calm (pulser : Station) (cycle : Option CycleNo) (stamp : Tag) (s : State) (hs : Calm r s) : Calm r (pulseFrame pulser cycle stamp s) := by
  unfold pulseFrame; (try dsimp only) <;> (try (repeat' split) <;> first | exact hs | (simp (maxDischargeDepth := 40) [*]; done) | (simp +contextual (maxDischargeDepth := 40) [*]; done))
@[simp] theorem pulseReported_calm (s : State) (hs : Calm r s) : Calm r (pulseReported s) := by
  unfold pulseReported; (try dsimp only) <;> (try (repeat' split) <;> first | exact hs | (simp (maxDischargeDepth := 40) [*]; done) | (simp +contextual (maxDischargeDepth := 40) [*]; done))
@[simp] theorem armedChannelLost_calm (s : State) (hs : Calm r s) : Calm r (armedChannelLost s) := by
  unfold armedChannelLost; (try dsimp only) <;> (try (repeat' split) <;> first | exact hs | (simp (maxDischargeDepth := 40) [*]; done) | (simp +contextual (maxDischargeDepth := 40) [*]; done))
@[simp] theorem endSlotAtCyc_calm (s : State) (hs : Calm r s) : Calm r (endSlotAtCyc s) := by
  unfold endSlotAtCyc; (try dsimp only) <;> (try (repeat' split) <;> first | exact hs | (simp (maxDischargeDepth := 40) [*]; done) | (simp +contextual (maxDischargeDepth := 40) [*]; done))
@[simp] theorem couplingCyc_calm (s : State) (hs : Calm r s) : Calm r (couplingCyc s) := by
  unfold couplingCyc; (try dsimp only) <;> (try (repeat' split) <;> first | exact hs | (simp (maxDischargeDepth := 40) [*]; done) | (simp +contextual (maxDischargeDepth := 40) [*]; done))
@[simp] theorem placeInReturn_calm (s : State) (hs : Calm r s) : Calm r (placeInReturn s) := by
  unfold placeInReturn; (try dsimp only) <;> (try (repeat' split) <;> first | exact hs | (simp (maxDischargeDepth := 40) [*]; done) | (simp +contextual (maxDischargeDepth := 40) [*]; done))
@[simp] theorem placeIfDue_calm (s : State) (hs : Calm r s) : Calm r (placeIfDue s) := by
  unfold placeIfDue; (try dsimp only) <;> (try (repeat' split) <;> first | exact hs | (simp (maxDischargeDepth := 40) [*]; done) | (simp +contextual (maxDischargeDepth := 40) [*]; done))
@[simp] theorem placeSlot_calm (s : State) (hs : Calm r s) : Calm r (placeSlot s) := by
  unfold placeSlot; (try dsimp only) <;> (try (repeat' split) <;> first | exact hs | (simp (maxDischargeDepth := 40) [*]; done) | (simp +contextual (maxDischargeDepth := 40) [*]; done))
@[simp] theorem coinCounts_calm (f : CoincidenceCounts → CoincidenceCounts) (s : State) (hs : Calm r s) : Calm r (coinCounts f s) := by
  unfold coinCounts; (try dsimp only) <;> (try (repeat' split) <;> first | exact hs | (simp (maxDischargeDepth := 40) [*]; done) | (simp +contextual (maxDischargeDepth := 40) [*]; done))
@[simp] theorem enterWindow_calm (e : HitEntry) (s : State) (hs : Calm r s) : Calm r (enterWindow e s) := by
  unfold enterWindow; (try dsimp only) <;> (try (repeat' split) <;> first | exact hs | (simp (maxDischargeDepth := 40) [*]; done) | (simp +contextual (maxDischargeDepth := 40) [*]; done))
@[simp] theorem offerOwnHit_calm (c : Channel) (arrival : Tag) (phase : Phase) (s : State) (hs : Calm r s) : Calm r (offerOwnHit c arrival phase s) := by
  unfold offerOwnHit; (try dsimp only) <;> (try (repeat' split) <;> first | exact hs | (simp (maxDischargeDepth := 40) [*]; done) | (simp +contextual (maxDischargeDepth := 40) [*]; done))
@[simp] theorem enterOwnHit_calm (c : Channel) (arrival : Tag) (phase : Phase) (s : State) (hs : Calm r s) : Calm r (enterOwnHit c arrival phase s) := by
  unfold enterOwnHit; (try dsimp only) <;> (try (repeat' split) <;> first | exact hs | (simp (maxDischargeDepth := 40) [*]; done) | (simp +contextual (maxDischargeDepth := 40) [*]; done))
@[simp] theorem fillFeatures_calm (id : HitId) (f : Features) (s : State) (hs : Calm r s) : Calm r (fillFeatures id f s) := by
  unfold fillFeatures; (try dsimp only) <;> (try (repeat' split) <;> first | exact hs | (simp (maxDischargeDepth := 40) [*]; done) | (simp +contextual (maxDischargeDepth := 40) [*]; done))
@[simp] theorem eventDropped_calm (s : State) (hs : Calm r s) : Calm r (eventDropped s) := by
  unfold eventDropped; (try dsimp only) <;> (try (repeat' split) <;> first | exact hs | (simp (maxDischargeDepth := 40) [*]; done) | (simp +contextual (maxDischargeDepth := 40) [*]; done))
@[simp] theorem ownerTaken_calm (ref : Nat) (s : State) (hs : Calm r s) : Calm r (ownerTaken ref s) := by
  unfold ownerTaken; (try dsimp only) <;> (try (repeat' split) <;> first | exact hs | (simp (maxDischargeDepth := 40) [*]; done) | (simp +contextual (maxDischargeDepth := 40) [*]; done))
@[simp] theorem requestAsOwner_calm (members : List HitEntry) (crowded : Bool) (s : State) (hs : Calm r s) : Calm r (requestAsOwner members crowded s) := by
  unfold requestAsOwner; (try dsimp only) <;> (try (repeat' split) <;> first | exact hs | (simp (maxDischargeDepth := 40) [*]; done) | (simp +contextual (maxDischargeDepth := 40) [*]; done))
@[simp] theorem publishAsOwner_calm (members : List HitEntry) (crowded : Bool) (s : State) (hs : Calm r s) : Calm r (publishAsOwner members crowded s) := by
  unfold publishAsOwner; (try dsimp only) <;> (try (repeat' split) <;> first | exact hs | (simp (maxDischargeDepth := 40) [*]; done) | (simp +contextual (maxDischargeDepth := 40) [*]; done))
@[simp] theorem addPending_calm (members : List HitEntry) (crowded : Bool) (rank : Nat) (s : State) (hs : Calm r s) : Calm r (addPending members crowded rank s) := by
  unfold addPending; (try dsimp only) <;> (try (repeat' split) <;> first | exact hs | (simp (maxDischargeDepth := 40) [*]; done) | (simp +contextual (maxDischargeDepth := 40) [*]; done))
@[simp] theorem pendGroup_calm (members : List HitEntry) (crowded : Bool) (rank : Nat) (s : State) (hs : Calm r s) : Calm r (pendGroup members crowded rank s) := by
  unfold pendGroup; (try dsimp only) <;> (try (repeat' split) <;> first | exact hs | (simp (maxDischargeDepth := 40) [*]; done) | (simp +contextual (maxDischargeDepth := 40) [*]; done))
@[simp] theorem closeGroup_calm (g : OpenGroup) (s : State) (hs : Calm r s) : Calm r (closeGroup g s) := by
  unfold closeGroup; (try dsimp only) <;> (try (repeat' split) <;> first | exact hs | (simp (maxDischargeDepth := 40) [*]; done) | (simp +contextual (maxDischargeDepth := 40) [*]; done))
@[simp] theorem closeDueGroups_calm (n : Nat) (s : State) (hs : Calm r s) : Calm r (closeDueGroups n s) := by
  induction n generalizing s with
  | zero => exact hs
  | succ n ih => unfold closeDueGroups; (repeat' split) <;> first | assumption | simp +contextual (maxDischargeDepth := 40) [*]
@[simp] theorem standInTaken_calm (p : PendingGroup) (ref : Nat) (s : State) (hs : Calm r s) : Calm r (standInTaken p ref s) := by
  unfold standInTaken; (try dsimp only) <;> (try (repeat' split) <;> first | exact hs | (simp (maxDischargeDepth := 40) [*]; done) | (simp +contextual (maxDischargeDepth := 40) [*]; done))
@[simp] theorem standInRefused_calm (p : PendingGroup) (s : State) (hs : Calm r s) : Calm r (standInRefused p s) := by
  unfold standInRefused; (try dsimp only) <;> (try (repeat' split) <;> first | exact hs | (simp (maxDischargeDepth := 40) [*]; done) | (simp +contextual (maxDischargeDepth := 40) [*]; done))
@[simp] theorem requestAsStandIn_calm (p : PendingGroup) (s : State) (hs : Calm r s) : Calm r (requestAsStandIn p s) := by
  unfold requestAsStandIn; (try dsimp only) <;> (try (repeat' split) <;> first | exact hs | (simp (maxDischargeDepth := 40) [*]; done) | (simp +contextual (maxDischargeDepth := 40) [*]; done))
@[simp] theorem publishAsStandIn_calm (p : PendingGroup) (s : State) (hs : Calm r s) : Calm r (publishAsStandIn p s) := by
  unfold publishAsStandIn; (try dsimp only) <;> (try (repeat' split) <;> first | exact hs | (simp (maxDischargeDepth := 40) [*]; done) | (simp +contextual (maxDischargeDepth := 40) [*]; done))
@[simp] theorem eventOutcome_calm (ref : Nat) (wasSent : Bool) (s : State) (hs : Calm r s) : Calm r (eventOutcome ref wasSent s) := by
  unfold eventOutcome; (try dsimp only) <;> (try (repeat' split) <;> first | exact hs | (simp (maxDischargeDepth := 40) [*]; done) | (simp +contextual (maxDischargeDepth := 40) [*]; done))
@[simp] theorem peerHit_calm (sender : Station) (offset : Tag) (s : State) (h : HitRecord) (hs : Calm r s) : Calm r (peerHit sender offset s h) := by
  unfold peerHit; (try dsimp only) <;> (try (repeat' split) <;> first | exact hs | (simp (maxDischargeDepth := 40) [*]; done) | (simp +contextual (maxDischargeDepth := 40) [*]; done))
@[simp] theorem takePeerHit_calm (sender : Station) (offset : Tag) (h : HitRecord) (s : State) (hs : Calm r s) : Calm r (takePeerHit sender offset h s) := by
  unfold takePeerHit; (try dsimp only) <;> (try (repeat' split) <;> first | exact hs | (simp (maxDischargeDepth := 40) [*]; done) | (simp +contextual (maxDischargeDepth := 40) [*]; done))
@[simp] theorem takePeerHits_calm (sender : Station) (offset : Tag) (l : List HitRecord) (s : State) (hs : Calm r s) : Calm r (takePeerHits sender offset l s) := by
  induction l generalizing s with
  | nil => exact hs
  | cons h t ih => unfold takePeerHits; exact unlessFrozen_calm _ _ (fun t ht => ih t ht) (takePeerHit_calm sender offset h s hs)
@[simp] theorem closeIfMoved_calm (old : Option Tag) (s : State) (hs : Calm r s) : Calm r (closeIfMoved old s) := by
  unfold closeIfMoved; (try dsimp only) <;> (try (repeat' split) <;> first | exact hs | (simp (maxDischargeDepth := 40) [*]; done) | (simp +contextual (maxDischargeDepth := 40) [*]; done))
@[simp] theorem takeHits_calm (sender : Station) (f : RxFrame) (s : State) (hs : Calm r s) : Calm r (takeHits sender f s) := by
  unfold takeHits; (try dsimp only) <;> (try (repeat' split) <;> first | exact hs | (simp (maxDischargeDepth := 40) [*]; done) | (simp +contextual (maxDischargeDepth := 40) [*]; done))
@[simp] theorem readForHits_calm (sender : Station) (f : RxFrame) (s : State) (hs : Calm r s) : Calm r (readForHits sender f s) := by
  unfold readForHits; (try dsimp only) <;> (try (repeat' split) <;> first | exact hs | (simp (maxDischargeDepth := 40) [*]; done) | (simp +contextual (maxDischargeDepth := 40) [*]; done))
@[simp] theorem hitFrame_calm (sender : Station) (f : RxFrame) (s : State) (hs : Calm r s) : Calm r (hitFrame sender f s) := by
  unfold hitFrame; (try dsimp only) <;> (try (repeat' split) <;> first | exact hs | (simp (maxDischargeDepth := 40) [*]; done) | (simp +contextual (maxDischargeDepth := 40) [*]; done))
@[simp] theorem withdrawPending_calm (p : PendingGroup) (s : State) (hs : Calm r s) : Calm r (withdrawPending p s) := by
  unfold withdrawPending; (try dsimp only) <;> (try (repeat' split) <;> first | exact hs | (simp (maxDischargeDepth := 40) [*]; done) | (simp +contextual (maxDischargeDepth := 40) [*]; done))
@[simp] theorem eventReceipt_calm (e : EventRecord) (s : State) (hs : Calm r s) : Calm r (eventReceipt e s) := by
  unfold eventReceipt; (try dsimp only) <;> (try (repeat' split) <;> first | exact hs | (simp (maxDischargeDepth := 40) [*]; done) | (simp +contextual (maxDischargeDepth := 40) [*]; done))
@[simp] theorem discardCoincidence_calm (s : State) (hs : Calm r s) : Calm r (discardCoincidence s) := by
  unfold discardCoincidence; (try dsimp only) <;> (try (repeat' split) <;> first | exact hs | (simp (maxDischargeDepth := 40) [*]; done) | (simp +contextual (maxDischargeDepth := 40) [*]; done))
@[simp] theorem evidCounts_calm (f : EvidenceCounts → EvidenceCounts) (s : State) (hs : Calm r s) : Calm r (evidCounts f s) := by
  unfold evidCounts; (try dsimp only) <;> (try (repeat' split) <;> first | exact hs | (simp (maxDischargeDepth := 40) [*]; done) | (simp +contextual (maxDischargeDepth := 40) [*]; done))
@[simp] theorem judgeApplied_calm (sender : Station) (e : EventRecord) (s : State) (hs : Calm r s) : Calm r (judgeApplied sender e s) := by
  unfold judgeApplied
  split
  · exact evidCounts_calm _ _ hs
  · split
    · exact evidCounts_calm _ _ hs
    · exact evidCounts_calm _ _ (checkApplied_calm _ hs)
@[simp] theorem applyEvent_calm (sender : Station) (e : EventRecord) (s : State) (hs : Calm r s) : Calm r (applyEvent sender e s) := by
  unfold applyEvent; (try dsimp only) <;> (try (repeat' split) <;> first | exact hs | (simp (maxDischargeDepth := 40) [*]; done) | (simp +contextual (maxDischargeDepth := 40) [*]; done))
@[simp] theorem foldOne_calm (closed : Option CycleNo) (n : Nat) (s : State) (hs : Calm r s) : Calm r (foldOne closed n s) := by
  unfold foldOne; (try dsimp only) <;> (try (repeat' split) <;> first | exact hs | (simp (maxDischargeDepth := 40) [*]; done) | (simp +contextual (maxDischargeDepth := 40) [*]; done))
@[simp] theorem foldSegment_calm (closed : Option CycleNo) (n : Nat) (s : State) (hs : Calm r s) : Calm r (foldSegment closed n s) := by
  unfold foldSegment; (try dsimp only) <;> (try (repeat' split) <;> first | exact hs | (simp (maxDischargeDepth := 40) [*]; done) | (simp +contextual (maxDischargeDepth := 40) [*]; done))
@[simp] theorem foldSegments_calm (cl : Option CycleNo) (l : List Nat) (s : State) (hs : Calm r s) : Calm r (foldSegments cl l s) := by
  induction l generalizing s with
  | nil => exact hs
  | cons a l ih => unfold foldSegments; simp +contextual (maxDischargeDepth := 40) [*]
@[simp] theorem noticeChange_calm (cycle : Option CycleNo) (cause : SegCause) (n : Nat) (old new : SegmentRecord) (s : State) (hs : Calm r s) : Calm r (noticeChange cycle cause n old new s) := by
  unfold noticeChange; (try dsimp only) <;> (try (repeat' split) <;> first | exact hs | (simp (maxDischargeDepth := 40) [*]; done) | (simp +contextual (maxDischargeDepth := 40) [*]; done))
@[simp] theorem raiseChanges_calm (cycle : Option CycleNo) (cause : SegCause) (old new : List SegmentRecord) (s : State) (hs : Calm r s) : Calm r (raiseChanges cycle cause old new s) := by
  unfold raiseChanges; (try dsimp only) <;> (try (repeat' split) <;> first | exact hs | (simp (maxDischargeDepth := 40) [*]; done) | (simp +contextual (maxDischargeDepth := 40) [*]; done))
@[simp] theorem setOutputs_calm (s : State) (hs : Calm r s) : Calm r (setOutputs s) := by
  unfold setOutputs; (try dsimp only) <;> (try (repeat' split) <;> first | exact hs | (simp (maxDischargeDepth := 40) [*]; done) | (simp +contextual (maxDischargeDepth := 40) [*]; done))
@[simp] theorem deriveOutputs_calm (s : State) (hs : Calm r s) : Calm r (deriveOutputs s) := by
  unfold deriveOutputs; (try dsimp only) <;> (try (repeat' split) <;> first | exact hs | (simp (maxDischargeDepth := 40) [*]; done) | (simp +contextual (maxDischargeDepth := 40) [*]; done))
@[simp] theorem deriveUnlessHeld_calm (s : State) (hs : Calm r s) : Calm r (deriveUnlessHeld s) := by
  unfold deriveUnlessHeld; (try dsimp only) <;> (try (repeat' split) <;> first | exact hs | (simp (maxDischargeDepth := 40) [*]; done) | (simp +contextual (maxDischargeDepth := 40) [*]; done))
@[simp] theorem standingChanged_calm (s : State) (hs : Calm r s) : Calm r (standingChanged s) := by
  unfold standingChanged; (try dsimp only) <;> (try (repeat' split) <;> first | exact hs | (simp (maxDischargeDepth := 40) [*]; done) | (simp +contextual (maxDischargeDepth := 40) [*]; done))
@[simp] theorem emptyApplied_calm (s : State) (hs : Calm r s) : Calm r (emptyApplied s) := by
  unfold emptyApplied; (try dsimp only) <;> (try (repeat' split) <;> first | exact hs | (simp (maxDischargeDepth := 40) [*]; done) | (simp +contextual (maxDischargeDepth := 40) [*]; done))
@[simp] theorem raiseAge_calm (s : State) (hs : Calm r s) : Calm r (raiseAge s) := by
  unfold raiseAge; (try dsimp only) <;> (try (repeat' split) <;> first | exact hs | (simp (maxDischargeDepth := 40) [*]; done) | (simp +contextual (maxDischargeDepth := 40) [*]; done))
@[simp] theorem afterFold_calm (closed : Option CycleNo) (old : List SegmentRecord) (s : State) (hs : Calm r s) : Calm r (afterFold closed old s) := by
  unfold afterFold; (try dsimp only) <;> (try (repeat' split) <;> first | exact hs | (simp (maxDischargeDepth := 40) [*]; done) | (simp +contextual (maxDischargeDepth := 40) [*]; done))
@[simp] theorem foldTable_calm (closed : Option CycleNo) (s : State) (hs : Calm r s) : Calm r (foldTable closed s) := by
  unfold foldTable; (try dsimp only) <;> (try (repeat' split) <;> first | exact hs | (simp (maxDischargeDepth := 40) [*]; done) | (simp +contextual (maxDischargeDepth := 40) [*]; done))
@[simp] theorem evidenceClose_calm (closed : Option CycleNo) (kind : CloseKind) (s : State) (hs : Calm r s) : Calm r (evidenceClose closed kind s) := by
  unfold evidenceClose; (try dsimp only) <;> (try (repeat' split) <;> first | exact hs | (simp (maxDischargeDepth := 40) [*]; done) | (simp +contextual (maxDischargeDepth := 40) [*]; done))
@[simp] theorem controlOne_calm (c : Control) (n : Nat) (s : State) (hs : Calm r s) : Calm r (controlOne c n s) := by
  unfold controlOne; (try dsimp only) <;> (try (repeat' split) <;> first | exact hs | (simp (maxDischargeDepth := 40) [*]; done) | (simp +contextual (maxDischargeDepth := 40) [*]; done))
@[simp] theorem controlSegments_calm (c : Control) (l : List Nat) (s : State) (hs : Calm r s) : Calm r (controlSegments c l s) := by
  induction l generalizing s with
  | nil => exact hs
  | cons a l ih => unfold controlSegments; simp +contextual (maxDischargeDepth := 40) [*]
@[simp] theorem afterControl_calm (cause : SegCause) (old : List SegmentRecord) (s : State) (hs : Calm r s) : Calm r (afterControl cause old s) := by
  unfold afterControl; (try dsimp only) <;> (try (repeat' split) <;> first | exact hs | (simp (maxDischargeDepth := 40) [*]; done) | (simp +contextual (maxDischargeDepth := 40) [*]; done))
@[simp] theorem applyControl_calm (c : Control) (s : State) (hs : Calm r s) : Calm r (applyControl c s) := by
  unfold applyControl; (try dsimp only) <;> (try (repeat' split) <;> first | exact hs | (simp (maxDischargeDepth := 40) [*]; done) | (simp +contextual (maxDischargeDepth := 40) [*]; done))
@[simp] theorem agreeCounts_calm (f : AgreementCounts → AgreementCounts) (s : State) (hs : Calm r s) : Calm r (agreeCounts f s) := by
  unfold agreeCounts; (try dsimp only) <;> (try (repeat' split) <;> first | exact hs | (simp (maxDischargeDepth := 40) [*]; done) | (simp +contextual (maxDischargeDepth := 40) [*]; done))
@[simp] theorem setTransfer_calm (t : Transfer) (s : State) (hs : Calm r s) : Calm r (setTransfer t s) := by
  unfold setTransfer; (try dsimp only) <;> (try (repeat' split) <;> first | exact hs | (simp (maxDischargeDepth := 40) [*]; done) | (simp +contextual (maxDischargeDepth := 40) [*]; done))
@[simp] theorem abandonTransfer_calm (cause : AbandonCause) (s : State) (hs : Calm r s) : Calm r (abandonTransfer cause s) := by
  unfold abandonTransfer; (try dsimp only) <;> (try (repeat' split) <;> first | exact hs | (simp (maxDischargeDepth := 40) [*]; done) | (simp +contextual (maxDischargeDepth := 40) [*]; done))
@[simp] theorem donorGone_calm (st : Station) (s : State) (hs : Calm r s) : Calm r (donorGone st s) := by
  unfold donorGone; (try dsimp only) <;> (try (repeat' split) <;> first | exact hs | (simp (maxDischargeDepth := 40) [*]; done) | (simp +contextual (maxDischargeDepth := 40) [*]; done))
@[simp] theorem abortTransfer_calm (s : State) (hs : Calm r s) : Calm r (abortTransfer s) := by
  unfold abortTransfer; (try dsimp only) <;> (try (repeat' split) <;> first | exact hs | (simp (maxDischargeDepth := 40) [*]; done) | (simp +contextual (maxDischargeDepth := 40) [*]; done))
@[simp] theorem rowTaken_calm (row : RowFrame) (ref : Nat) (s : State) (hs : Calm r s) : Calm r (rowTaken row ref s) := by
  unfold rowTaken; (try dsimp only) <;> (try (repeat' split) <;> first | exact hs | (simp (maxDischargeDepth := 40) [*]; done) | (simp +contextual (maxDischargeDepth := 40) [*]; done))
@[simp] theorem requestRow_calm (row : RowFrame) (s : State) (hs : Calm r s) : Calm r (requestRow row s) := by
  unfold requestRow; (try dsimp only) <;> (try (repeat' split) <;> first | exact hs | (simp (maxDischargeDepth := 40) [*]; done) | (simp +contextual (maxDischargeDepth := 40) [*]; done))
@[simp] theorem makeRow_calm (row : RowFrame) (s : State) (hs : Calm r s) : Calm r (makeRow row s) := by
  unfold makeRow; (try dsimp only) <;> (try (repeat' split) <;> first | exact hs | (simp (maxDischargeDepth := 40) [*]; done) | (simp +contextual (maxDischargeDepth := 40) [*]; done))
@[simp] theorem sendRow_calm (first : Nat) (s : State) (hs : Calm r s) : Calm r (sendRow first s) := by
  unfold sendRow; (try dsimp only) <;> (try (repeat' split) <;> first | exact hs | (simp (maxDischargeDepth := 40) [*]; done) | (simp +contextual (maxDischargeDepth := 40) [*]; done))
@[simp] theorem rowOutcome_calm (ref : Nat) (wasSent : Bool) (s : State) (hs : Calm r s) : Calm r (rowOutcome ref wasSent s) := by
  unfold rowOutcome; (try dsimp only) <;> (try (repeat' split) <;> first | exact hs | (simp (maxDischargeDepth := 40) [*]; done) | (simp +contextual (maxDischargeDepth := 40) [*]; done))
@[simp] theorem digestNotSent_calm (s : State) (hs : Calm r s) : Calm r (digestNotSent s) := by
  unfold digestNotSent; (try dsimp only) <;> (try (repeat' split) <;> first | exact hs | (simp (maxDischargeDepth := 40) [*]; done) | (simp +contextual (maxDischargeDepth := 40) [*]; done))
@[simp] theorem stopSending_calm (s : State) (hs : Calm r s) : Calm r (stopSending s) := by
  unfold stopSending; (try dsimp only) <;> (try (repeat' split) <;> first | exact hs | (simp (maxDischargeDepth := 40) [*]; done) | (simp +contextual (maxDischargeDepth := 40) [*]; done))
@[simp] theorem storeSnapshot_calm (closed : Option CycleNo) (s : State) (hs : Calm r s) : Calm r (storeSnapshot closed s) := by
  unfold storeSnapshot; (try dsimp only) <;> (try (repeat' split) <;> first | exact hs | (simp (maxDischargeDepth := 40) [*]; done) | (simp +contextual (maxDischargeDepth := 40) [*]; done))
@[simp] theorem requestDigest_calm (snap : Snapshot) (digest : BitVec 32) (s : State) (hs : Calm r s) : Calm r (requestDigest snap digest s) := by
  unfold requestDigest; (try dsimp only) <;> (try (repeat' split) <;> first | exact hs | (simp (maxDischargeDepth := 40) [*]; done) | (simp +contextual (maxDischargeDepth := 40) [*]; done))
@[simp] theorem digestSnapshot_calm (snap : Snapshot) (s : State) (hs : Calm r s) : Calm r (digestSnapshot snap s) := by
  unfold digestSnapshot; (try dsimp only) <;> (try (repeat' split) <;> first | exact hs | (simp (maxDischargeDepth := 40) [*]; done) | (simp +contextual (maxDischargeDepth := 40) [*]; done))
@[simp] theorem startDigestWindow_calm (s : State) (hs : Calm r s) : Calm r (startDigestWindow s) := by
  unfold startDigestWindow; (try dsimp only) <;> (try (repeat' split) <;> first | exact hs | (simp (maxDischargeDepth := 40) [*]; done) | (simp +contextual (maxDischargeDepth := 40) [*]; done))
@[simp] theorem takeSnapshot_calm (closed : Option CycleNo) (s : State) (hs : Calm r s) : Calm r (takeSnapshot closed s) := by
  unfold takeSnapshot; (try dsimp only) <;> (try (repeat' split) <;> first | exact hs | (simp (maxDischargeDepth := 40) [*]; done) | (simp +contextual (maxDischargeDepth := 40) [*]; done))
@[simp] theorem copyTable_calm (closed : Option CycleNo) (s : State) (hs : Calm r s) : Calm r (copyTable closed s) := by
  unfold copyTable; (try dsimp only) <;> (try (repeat' split) <;> first | exact hs | (simp (maxDischargeDepth := 40) [*]; done) | (simp +contextual (maxDischargeDepth := 40) [*]; done))
@[simp] theorem agreementClose_calm (closed : Option CycleNo) (s : State) (hs : Calm r s) : Calm r (agreementClose closed s) := by
  unfold agreementClose; (try dsimp only) <;> (try (repeat' split) <;> first | exact hs | (simp (maxDischargeDepth := 40) [*]; done) | (simp +contextual (maxDischargeDepth := 40) [*]; done))
@[simp] theorem setStanding_calm (v : Standing) (s : State) (hs : Calm r s) : Calm r (setStanding v s) := by
  unfold setStanding; (try dsimp only) <;> (try (repeat' split) <;> first | exact hs | (simp (maxDischargeDepth := 40) [*]; done) | (simp +contextual (maxDischargeDepth := 40) [*]; done))
@[simp] theorem decideAs_calm (v : Standing) (s : State) (hs : Calm r s) : Calm r (decideAs v s) :=
  setStanding_calm v _ hs
@[simp] theorem enterAwaiting_calm (donor : Station) (cycle : Option CycleNo) (v : BitVec 32) (s : State) (hs : Calm r s) : Calm r (enterAwaiting donor cycle v s) := by
  unfold enterAwaiting; (try dsimp only) <;> (try (repeat' split) <;> first | exact hs | (simp (maxDischargeDepth := 40) [*]; done) | (simp +contextual (maxDischargeDepth := 40) [*]; done))
@[simp] theorem actOnStanding_calm (own : Station) (standing : Standing) (cycle : Option CycleNo) (verdict : Option (BitVec 32 × Station)) (senders : List DigestSender) (s : State) (hs : Calm r s) : Calm r (actOnStanding own standing cycle verdict senders s) := by
  unfold actOnStanding; (try dsimp only) <;> (try (repeat' split) <;> first | exact hs | (simp (maxDischargeDepth := 40) [*]; done) | (simp +contextual (maxDischargeDepth := 40) [*]; done))
@[simp] theorem decideStanding_calm (own : Station) (snap : Snapshot) (digest : BitVec 32) (senders : List DigestSender) (s : State) (hs : Calm r s) : Calm r (decideStanding own snap digest senders s) := by
  unfold decideStanding; (try dsimp only) <;> (try (repeat' split) <;> first | exact hs | (simp (maxDischargeDepth := 40) [*]; done) | (simp +contextual (maxDischargeDepth := 40) [*]; done))
@[simp] theorem carryControl_calm (c : Control) (s : State) (hs : Calm r s) : Calm r (carryControl c s) := by
  unfold carryControl; (try dsimp only) <;> (try (repeat' split) <;> first | exact hs | (simp (maxDischargeDepth := 40) [*]; done) | (simp +contextual (maxDischargeDepth := 40) [*]; done))
@[simp] theorem malformedControl_calm (s : State) (hs : Calm r s) : Calm r (malformedControl s) := by
  unfold malformedControl; (try dsimp only) <;> (try (repeat' split) <;> first | exact hs | (simp (maxDischargeDepth := 40) [*]; done) | (simp +contextual (maxDischargeDepth := 40) [*]; done))
@[simp] theorem takeControl_calm (c : Control) (s : State) (hs : Calm r s) : Calm r (takeControl c s) := by
  unfold takeControl; (try dsimp only) <;> (try (repeat' split) <;> first | exact hs | (simp (maxDischargeDepth := 40) [*]; done) | (simp +contextual (maxDischargeDepth := 40) [*]; done))
@[simp] theorem controlFrame_calm (sender : Station) (p : List Byte) (s : State) (hs : Calm r s) : Calm r (controlFrame sender p s) := by
  unfold controlFrame; (try dsimp only) <;> (try (repeat' split) <;> first | exact hs | (simp (maxDischargeDepth := 40) [*]; done) | (simp +contextual (maxDischargeDepth := 40) [*]; done))
@[simp] theorem reapplyControls_calm (l : List Control) (s : State) (hs : Calm r s) : Calm r (reapplyControls l s) := by
  induction l generalizing s with
  | nil => exact hs
  | cons a l ih => unfold reapplyControls; simp +contextual (maxDischargeDepth := 40) [*]
@[simp] theorem replaceTable_calm (records : List SegmentRecord) (age : Nat) (s : State) (hs : Calm r s) : Calm r (replaceTable records age s) := by
  unfold replaceTable; (try dsimp only) <;> (try (repeat' split) <;> first | exact hs | (simp (maxDischargeDepth := 40) [*]; done) | (simp +contextual (maxDischargeDepth := 40) [*]; done))
@[simp] theorem endTransfer_calm (donor : Station) (s : State) (hs : Calm r s) : Calm r (endTransfer donor s) := by
  unfold endTransfer; (try dsimp only) <;> (try (repeat' split) <;> first | exact hs | (simp (maxDischargeDepth := 40) [*]; done) | (simp +contextual (maxDischargeDepth := 40) [*]; done))
@[simp] theorem completeTransfer_calm (donor : Station) (row : RowFrame) (buffer : List SegmentRecord) (s : State) (hs : Calm r s) : Calm r (completeTransfer donor row buffer s) := by
  unfold completeTransfer; (try dsimp only) <;> (try (repeat' split) <;> first | exact hs | (simp (maxDischargeDepth := 40) [*]; done) | (simp +contextual (maxDischargeDepth := 40) [*]; done))
@[simp] theorem ignoreRow_calm (s : State) (hs : Calm r s) : Calm r (ignoreRow s) := by
  unfold ignoreRow; (try dsimp only) <;> (try (repeat' split) <;> first | exact hs | (simp (maxDischargeDepth := 40) [*]; done) | (simp +contextual (maxDischargeDepth := 40) [*]; done))
@[simp] theorem takeRow_calm (donor : Station) (cycle : Option CycleNo) (digest : BitVec 32) (nextFirst : Nat) (buffer : List SegmentRecord) (row : RowFrame) (s : State) (hs : Calm r s) : Calm r (takeRow donor cycle digest nextFirst buffer row s) := by
  unfold takeRow; (try dsimp only) <;> (try (repeat' split) <;> first | exact hs | (simp (maxDischargeDepth := 40) [*]; done) | (simp +contextual (maxDischargeDepth := 40) [*]; done))
@[simp] theorem rowFrame_calm (sender : Station) (own : Bool) (p : List Byte) (s : State) (hs : Calm r s) : Calm r (rowFrame sender own p s) := by
  unfold rowFrame; (try dsimp only) <;> (try (repeat' split) <;> first | exact hs | (simp (maxDischargeDepth := 40) [*]; done) | (simp +contextual (maxDischargeDepth := 40) [*]; done))
@[simp] theorem laneNotice_calm (l : Lane) (e : LaneEvent) (s : State) (hs : Calm r s) : Calm r (laneNotice l e s) := by
  unfold laneNotice; (try dsimp only) <;> (try (repeat' split) <;> first | exact hs | (simp (maxDischargeDepth := 40) [*]; done) | (simp +contextual (maxDischargeDepth := 40) [*]; done))
@[simp] theorem setRun_calm (l : Lane) (run : Nat) (s : State) (hs : Calm r s) : Calm r (setRun l run s) := by
  unfold setRun; (try dsimp only) <;> (try (repeat' split) <;> first | exact hs | (simp (maxDischargeDepth := 40) [*]; done) | (simp +contextual (maxDischargeDepth := 40) [*]; done))
@[simp] theorem laneFailed_calm (l : Lane) (s : State) (hs : Calm r s) : Calm r (laneFailed l s) := by
  unfold laneFailed; (try dsimp only) <;> (try (repeat' split) <;> first | exact hs | (simp (maxDischargeDepth := 40) [*]; done) | (simp +contextual (maxDischargeDepth := 40) [*]; done))
@[simp] theorem laneSent_calm (l : Lane) (s : State) (hs : Calm r s) : Calm r (laneSent l s) := by
  unfold laneSent; (try dsimp only) <;> (try (repeat' split) <;> first | exact hs | (simp (maxDischargeDepth := 40) [*]; done) | (simp +contextual (maxDischargeDepth := 40) [*]; done))
@[simp] theorem raiseResult_calm (delivered : Bool) (c : Control) (cause : Option FailCause) (retries : Nat) (s : State) (hs : Calm r s) : Calm r (raiseResult delivered c cause retries s) := by
  unfold raiseResult; (try dsimp only) <;> (try (repeat' split) <;> first | exact hs | (simp (maxDischargeDepth := 40) [*]; done) | (simp +contextual (maxDischargeDepth := 40) [*]; done))
@[simp] theorem controlResult_calm (delivered : Bool) (c : Control) (cause : Option FailCause) (retries : Nat) (s : State) (hs : Calm r s) : Calm r (controlResult delivered c cause retries s) := by
  unfold controlResult; (try dsimp only) <;> (try (repeat' split) <;> first | exact hs | (simp (maxDischargeDepth := 40) [*]; done) | (simp +contextual (maxDischargeDepth := 40) [*]; done))
@[simp] theorem controlOutcome_calm (ref : Nat) (wasSent : Bool) (cause : Option FailCause) (retries : Nat) (s : State) (hs : Calm r s) : Calm r (controlOutcome ref wasSent cause retries s) := by
  unfold controlOutcome; (try dsimp only) <;> (try (repeat' split) <;> first | exact hs | (simp (maxDischargeDepth := 40) [*]; done) | (simp +contextual (maxDischargeDepth := 40) [*]; done))
@[simp] theorem pulseOutcome_calm (ref : Nat) (wasSent : Bool) (stamp : Tag) (s : State) (hs : Calm r s) : Calm r (pulseOutcome ref wasSent stamp s) := by
  unfold pulseOutcome; (try dsimp only) <;> (try (repeat' split) <;> first | exact hs | (simp (maxDischargeDepth := 40) [*]; done) | (simp +contextual (maxDischargeDepth := 40) [*]; done))
@[simp] theorem digestOutcome_calm (wasSent : Bool) (s : State) (hs : Calm r s) : Calm r (digestOutcome wasSent s) := by
  unfold digestOutcome; (try dsimp only) <;> (try (repeat' split) <;> first | exact hs | (simp (maxDischargeDepth := 40) [*]; done) | (simp +contextual (maxDischargeDepth := 40) [*]; done))
@[simp] theorem restartPresence_calm (s : State) (hs : Calm r s) : Calm r (restartPresence s) := by
  unfold restartPresence; (try dsimp only) <;> (try (repeat' split) <;> first | exact hs | (simp (maxDischargeDepth := 40) [*]; done) | (simp +contextual (maxDischargeDepth := 40) [*]; done))
@[simp] theorem removeCurrent_calm (c : CurrentFrame) (wasSent : Bool) (s : State) (hs : Calm r s) : Calm r (removeCurrent c wasSent s) := by
  unfold removeCurrent; (try dsimp only) <;> (try (repeat' split) <;> first | exact hs | (simp (maxDischargeDepth := 40) [*]; done) | (simp +contextual (maxDischargeDepth := 40) [*]; done))
@[simp] theorem beginRetry_calm (c : CurrentFrame) (cause : FailCause) (s : State) (hs : Calm r s) : Calm r (beginRetry c cause s) := by
  unfold beginRetry; (try dsimp only) <;> (try (repeat' split) <;> first | exact hs | (simp (maxDischargeDepth := 40) [*]; done) | (simp +contextual (maxDischargeDepth := 40) [*]; done))
@[simp] theorem breakFrame_calm (l : Lane) (idleFrom : Nat) (s : State) (hs : Calm r s) : Calm r (breakFrame l idleFrom s) := by
  unfold breakFrame; (try dsimp only) <;> (try (repeat' split) <;> first | exact hs | (simp (maxDischargeDepth := 40) [*]; done) | (simp +contextual (maxDischargeDepth := 40) [*]; done))
@[simp] theorem startFrame_calm (l : Lane) (s : State) (hs : Calm r s) : Calm r (startFrame l s) := by
  unfold startFrame; (try dsimp only) <;> (try (repeat' split) <;> first | exact hs | (simp (maxDischargeDepth := 40) [*]; done) | (simp +contextual (maxDischargeDepth := 40) [*]; done))
@[simp] theorem completeFrame_calm (l : Lane) (f : RxFrame) (s : State) (hs : Calm r s) : Calm r (completeFrame l f s) := by
  unfold completeFrame; (try dsimp only) <;> (try (repeat' split) <;> first | exact hs | (simp (maxDischargeDepth := 40) [*]; done) | (simp +contextual (maxDischargeDepth := 40) [*]; done))
@[simp] theorem unmarkEcho_calm (l : Lane) (s : State) (hs : Calm r s) : Calm r (unmarkEcho l s) := by
  unfold unmarkEcho; (try dsimp only) <;> (try (repeat' split) <;> first | exact hs | (simp (maxDischargeDepth := 40) [*]; done) | (simp +contextual (maxDischargeDepth := 40) [*]; done))
@[simp] theorem hearBytes_calm (rest : RestingLane) (s : State) (hs : Calm r s) : Calm r (hearBytes rest s) := by
  unfold hearBytes; (try dsimp only) <;> (try (repeat' split) <;> first | exact hs | (simp (maxDischargeDepth := 40) [*]; done) | (simp +contextual (maxDischargeDepth := 40) [*]; done))
@[simp] theorem beginTransmit_calm (c : CurrentFrame) (s : State) (hs : Calm r s) : Calm r (beginTransmit c s) := by
  unfold beginTransmit; (try dsimp only) <;> (try (repeat' split) <;> first | exact hs | (simp (maxDischargeDepth := 40) [*]; done) | (simp +contextual (maxDischargeDepth := 40) [*]; done))
@[simp] theorem beginCycle_calm (s : State) (hs : Calm r s) : Calm r (beginCycle s) := by
  unfold beginCycle; (try dsimp only) <;> (try (repeat' split) <;> first | exact hs | (simp (maxDischargeDepth := 40) [*]; done) | (simp +contextual (maxDischargeDepth := 40) [*]; done))
@[simp] theorem cutHitFrame_calm (s : State) (hs : Calm r s) : Calm r (cutHitFrame s) := by
  unfold cutHitFrame; (try dsimp only) <;> (try (repeat' split) <;> first | exact hs | (simp (maxDischargeDepth := 40) [*]; done) | (simp +contextual (maxDischargeDepth := 40) [*]; done))
@[simp] theorem cycleFlagNotice_calm (t : Tracker) (cause : CloseCause) (s : State) (hs : Calm r s) : Calm r (cycleFlagNotice t cause s) := by
  unfold cycleFlagNotice; (try dsimp only) <;> (try (repeat' split) <;> first | exact hs | (simp (maxDischargeDepth := 40) [*]; done) | (simp +contextual (maxDischargeDepth := 40) [*]; done))
@[simp] theorem closeHits_calm (s : State) (hs : Calm r s) : Calm r (closeHits s) := by
  unfold closeHits; (try dsimp only) <;> (try (repeat' split) <;> first | exact hs | (simp (maxDischargeDepth := 40) [*]; done) | (simp +contextual (maxDischargeDepth := 40) [*]; done))
@[simp] theorem closeTables_calm (closed : Option CycleNo) (kind : CloseKind) (s : State) (hs : Calm r s) : Calm r (closeTables closed kind s) := by
  unfold closeTables; (try dsimp only) <;> (try (repeat' split) <;> first | exact hs | (simp (maxDischargeDepth := 40) [*]; done) | (simp +contextual (maxDischargeDepth := 40) [*]; done))
@[simp] theorem holdBack_calm (st : Station) (s : State) (hs : Calm r s) : Calm r (holdBack st s) := by
  unfold holdBack; (try dsimp only) <;> (try (repeat' split) <;> first | exact hs | (simp (maxDischargeDepth := 40) [*]; done) | (simp +contextual (maxDischargeDepth := 40) [*]; done))
@[simp] theorem setSilence_calm (st : Station) (s : State) (hs : Calm r s) : Calm r (setSilence st s) := by
  unfold setSilence; (try dsimp only) <;> (try (repeat' split) <;> first | exact hs | (simp (maxDischargeDepth := 40) [*]; done) | (simp +contextual (maxDischargeDepth := 40) [*]; done))
@[simp] theorem restartSilence_calm (st : Station) (s : State) (hs : Calm r s) : Calm r (restartSilence st s) := by
  unfold restartSilence; (try dsimp only) <;> (try (repeat' split) <;> first | exact hs | (simp (maxDischargeDepth := 40) [*]; done) | (simp +contextual (maxDischargeDepth := 40) [*]; done))
@[simp] theorem recordChanged_calm (st : Station) (old new : PeerState) (s : State) (hs : Calm r s) : Calm r (recordChanged st old new s) := by
  unfold recordChanged; (try dsimp only) <;> (try (repeat' split) <;> first | exact hs | (simp (maxDischargeDepth := 40) [*]; done) | (simp +contextual (maxDischargeDepth := 40) [*]; done))
@[simp] theorem storeTaken_calm (k : FrameKind) (st : Station) (f : RxFrame) (s : State) (hs : Calm r s) : Calm r (storeTaken k st f s) := by
  unfold storeTaken; (try dsimp only) <;> (try (repeat' split) <;> first | exact hs | (simp (maxDischargeDepth := 40) [*]; done) | (simp +contextual (maxDischargeDepth := 40) [*]; done))
@[simp] theorem enterRecord_calm (k : FrameKind) (st : Station) (f : RxFrame) (s : State) (hs : Calm r s) : Calm r (enterRecord k st f s) := by
  unfold enterRecord; (try dsimp only) <;> (try (repeat' split) <;> first | exact hs | (simp (maxDischargeDepth := 40) [*]; done) | (simp +contextual (maxDischargeDepth := 40) [*]; done))
@[simp] theorem takeRecord_calm (k : FrameKind) (st : Station) (f : RxFrame) (s : State) (hs : Calm r s) : Calm r (takeRecord k st f s) := by
  unfold takeRecord; (try dsimp only) <;> (try (repeat' split) <;> first | exact hs | (simp (maxDischargeDepth := 40) [*]; done) | (simp +contextual (maxDischargeDepth := 40) [*]; done))
@[simp] theorem handToBlocks_calm (k : FrameKind) (st : Station) (f : RxFrame) (s : State) (hs : Calm r s) : Calm r (handToBlocks k st f s) := by
  unfold handToBlocks; (try dsimp only) <;> (try (repeat' split) <;> first | exact hs | (simp (maxDischargeDepth := 40) [*]; done) | (simp +contextual (maxDischargeDepth := 40) [*]; done))
@[simp] theorem handOn_calm (k : FrameKind) (st : Station) (f : RxFrame) (s : State) (hs : Calm r s) : Calm r (handOn k st f s) := by
  unfold handOn; (try dsimp only) <;> (try (repeat' split) <;> first | exact hs | (simp (maxDischargeDepth := 40) [*]; done) | (simp +contextual (maxDischargeDepth := 40) [*]; done))
@[simp] theorem rejectFrame_calm (l : Lane) (s : State) (hs : Calm r s) : Calm r (rejectFrame l s) := by
  unfold rejectFrame; (try dsimp only) <;> (try (repeat' split) <;> first | exact hs | (simp (maxDischargeDepth := 40) [*]; done) | (simp +contextual (maxDischargeDepth := 40) [*]; done))
@[simp] theorem countAccepted_calm (l : Lane) (k : FrameKind) (st : Station) (s : State) (hs : Calm r s) : Calm r (countAccepted l k st s) := by
  unfold countAccepted; (try dsimp only) <;> (try (repeat' split) <;> first | exact hs | (simp (maxDischargeDepth := 40) [*]; done) | (simp +contextual (maxDischargeDepth := 40) [*]; done))
@[simp] theorem beginHandling_calm (l : Lane) (f : RxFrame) (s : State) (hs : Calm r s) : Calm r (beginHandling l f s) := by
  unfold beginHandling; (try dsimp only) <;> (try (repeat' split) <;> first | exact hs | (simp (maxDischargeDepth := 40) [*]; done) | (simp +contextual (maxDischargeDepth := 40) [*]; done))
@[simp] theorem endHandling_calm (s : State) (hs : Calm r s) : Calm r (endHandling s) := by
  unfold endHandling; (try dsimp only) <;> (try (repeat' split) <;> first | exact hs | (simp (maxDischargeDepth := 40) [*]; done) | (simp +contextual (maxDischargeDepth := 40) [*]; done))
@[simp] theorem judgeCommand_calm (c : PortCommand) (inRange : Bool) (reply : List Byte) (s : State) (hs : Calm r s) : Calm r (judgeCommand c inRange reply s) := by
  unfold judgeCommand; (try dsimp only) <;> (try (repeat' split) <;> first | exact hs | (simp (maxDischargeDepth := 40) [*]; done) | (simp +contextual (maxDischargeDepth := 40) [*]; done))
@[simp] theorem controlTaken_calm (c : Control) (ref : Nat) (s : State) (hs : Calm r s) : Calm r (controlTaken c ref s) := by
  unfold controlTaken; (try dsimp only) <;> (try (repeat' split) <;> first | exact hs | (simp (maxDischargeDepth := 40) [*]; done) | (simp +contextual (maxDischargeDepth := 40) [*]; done))
@[simp] theorem requestControl_calm (c : Control) (s : State) (hs : Calm r s) : Calm r (requestControl c s) := by
  unfold requestControl; (try dsimp only) <;> (try (repeat' split) <;> first | exact hs | (simp (maxDischargeDepth := 40) [*]; done) | (simp +contextual (maxDischargeDepth := 40) [*]; done))
@[simp] theorem clearRecord_calm (s : State) (hs : Calm r s) : Calm r (clearRecord s) := by
  unfold clearRecord; (try dsimp only) <;> (try (repeat' split) <;> first | exact hs | (simp (maxDischargeDepth := 40) [*]; done) | (simp +contextual (maxDischargeDepth := 40) [*]; done))
@[simp] theorem lateCommand_calm (c : PortCommand) (s : State) (hs : Calm r s) : Calm r (lateCommand c s) := by
  unfold lateCommand; (try dsimp only) <;> (try (repeat' split) <;> first | exact hs | (simp (maxDischargeDepth := 40) [*]; done) | (simp +contextual (maxDischargeDepth := 40) [*]; done))
@[simp] theorem keepCapture_calm (c : Channel) (s : State) (hs : Calm r s) : Calm r (keepCapture c s) := by
  unfold keepCapture; (try dsimp only) <;> (try (repeat' split) <;> first | exact hs | (simp (maxDischargeDepth := 40) [*]; done) | (simp +contextual (maxDischargeDepth := 40) [*]; done))
@[simp] theorem countDetected_calm (s : State) (hs : Calm r s) : Calm r (countDetected s) := by
  unfold countDetected; (try dsimp only) <;> (try (repeat' split) <;> first | exact hs | (simp (maxDischargeDepth := 40) [*]; done) | (simp +contextual (maxDischargeDepth := 40) [*]; done))
@[simp] theorem startHit_calm (c : Channel) (h : OpenHit) (s : State) (hs : Calm r s) : Calm r (startHit c h s) := by
  unfold startHit; (try dsimp only) <;> (try (repeat' split) <;> first | exact hs | (simp (maxDischargeDepth := 40) [*]; done) | (simp +contextual (maxDischargeDepth := 40) [*]; done))
@[simp] theorem appendOwnHit_calm (c : Channel) (h : OpenHit) (f : Features) (s : State) (hs : Calm r s) : Calm r (appendOwnHit c h f s) := by
  unfold appendOwnHit; (try dsimp only) <;> (try (repeat' split) <;> first | exact hs | (simp (maxDischargeDepth := 40) [*]; done) | (simp +contextual (maxDischargeDepth := 40) [*]; done))
@[simp] theorem completeHit_calm (c : Channel) (h : OpenHit) (f : Features) (s : State) (hs : Calm r s) : Calm r (completeHit c h f s) := by
  unfold completeHit; (try dsimp only) <;> (try (repeat' split) <;> first | exact hs | (simp (maxDischargeDepth := 40) [*]; done) | (simp +contextual (maxDischargeDepth := 40) [*]; done))
@[simp] theorem endHit_calm (c : Channel) (long : Bool) (h : OpenHit) (s : State) (hs : Calm r s) : Calm r (endHit c long h s) := by
  unfold endHit; (try dsimp only) <;> (try (repeat' split) <;> first | exact hs | (simp (maxDischargeDepth := 40) [*]; done) | (simp +contextual (maxDischargeDepth := 40) [*]; done))
@[simp] theorem hitSample_calm (c : Channel) (env : Nat) (h : OpenHit) (s : State) (hs : Calm r s) : Calm r (hitSample c env h s) := by
  unfold hitSample; (try dsimp only) <;> (try (repeat' split) <;> first | exact hs | (simp (maxDischargeDepth := 40) [*]; done) | (simp +contextual (maxDischargeDepth := 40) [*]; done))
@[simp] theorem quietSample_calm (c : Channel) (env : Nat) (s : State) (hs : Calm r s) : Calm r (quietSample c env s) := by
  unfold quietSample; (try dsimp only) <;> (try (repeat' split) <;> first | exact hs | (simp (maxDischargeDepth := 40) [*]; done) | (simp +contextual (maxDischargeDepth := 40) [*]; done))
@[simp] theorem sampleStep_calm (c : Channel) (env : Nat) (s : State) (hs : Calm r s) : Calm r (sampleStep c env s) := by
  unfold sampleStep; (try dsimp only) <;> (try (repeat' split) <;> first | exact hs | (simp (maxDischargeDepth := 40) [*]; done) | (simp +contextual (maxDischargeDepth := 40) [*]; done))
@[simp] theorem takeSample_calm (c : Channel) (value : Half) (s : State) (hs : Calm r s) : Calm r (takeSample c value s) := by
  unfold takeSample; (try dsimp only) <;> (try (repeat' split) <;> first | exact hs | (simp (maxDischargeDepth := 40) [*]; done) | (simp +contextual (maxDischargeDepth := 40) [*]; done))
@[simp] theorem endLockout_calm (c : Channel) (s : State) (hs : Calm r s) : Calm r (endLockout c s) := by
  unfold endLockout; (try dsimp only) <;> (try (repeat' split) <;> first | exact hs | (simp (maxDischargeDepth := 40) [*]; done) | (simp +contextual (maxDischargeDepth := 40) [*]; done))
@[simp] theorem tellLoss_calm (u : ChannelUnit) (s : State) (hs : Calm r s) : Calm r (tellLoss u s) := by
  unfold tellLoss; (try dsimp only) <;> (try (repeat' split) <;> first | exact hs | (simp (maxDischargeDepth := 40) [*]; done) | (simp +contextual (maxDischargeDepth := 40) [*]; done))
@[simp] theorem loseChannel_calm (c : Channel) (s : State) (hs : Calm r s) : Calm r (loseChannel c s) := by
  unfold loseChannel; (try dsimp only) <;> (try (repeat' split) <;> first | exact hs | (simp (maxDischargeDepth := 40) [*]; done) | (simp +contextual (maxDischargeDepth := 40) [*]; done))
@[simp] theorem afterLoss_calm (c : Channel) (u : ChannelUnit) (s : State) (hs : Calm r s) : Calm r (afterLoss c u s) := by
  unfold afterLoss; (try dsimp only) <;> (try (repeat' split) <;> first | exact hs | (simp (maxDischargeDepth := 40) [*]; done) | (simp +contextual (maxDischargeDepth := 40) [*]; done))
@[simp] theorem sampleLost_calm (c : Channel) (s : State) (hs : Calm r s) : Calm r (sampleLost c s) := by
  unfold sampleLost; (try dsimp only) <;> (try (repeat' split) <;> first | exact hs | (simp (maxDischargeDepth := 40) [*]; done) | (simp +contextual (maxDischargeDepth := 40) [*]; done))
@[simp] theorem recoverChannel_calm (c : Channel) (last : Tag) (s : State) (hs : Calm r s) : Calm r (recoverChannel c last s) := by
  unfold recoverChannel; (try dsimp only) <;> (try (repeat' split) <;> first | exact hs | (simp (maxDischargeDepth := 40) [*]; done) | (simp +contextual (maxDischargeDepth := 40) [*]; done))
@[simp] theorem afterRecovery_calm (c : Channel) (s : State) (hs : Calm r s) : Calm r (afterRecovery c s) := by
  unfold afterRecovery; (try dsimp only) <;> (try (repeat' split) <;> first | exact hs | (simp (maxDischargeDepth := 40) [*]; done) | (simp +contextual (maxDischargeDepth := 40) [*]; done))
@[simp] theorem sampleRecovered_calm (c : Channel) (last : Tag) (s : State) (hs : Calm r s) : Calm r (sampleRecovered c last s) := by
  unfold sampleRecovered; (try dsimp only) <;> (try (repeat' split) <;> first | exact hs | (simp (maxDischargeDepth := 40) [*]; done) | (simp +contextual (maxDischargeDepth := 40) [*]; done))
@[simp] theorem endPulseWidth_calm (c : Channel) (s : State) (hs : Calm r s) : Calm r (endPulseWidth c s) := by
  unfold endPulseWidth; (try dsimp only) <;> (try (repeat' split) <;> first | exact hs | (simp (maxDischargeDepth := 40) [*]; done) | (simp +contextual (maxDischargeDepth := 40) [*]; done))
@[simp] theorem endRecovery_calm (c : Channel) (s : State) (hs : Calm r s) : Calm r (endRecovery c s) := by
  unfold endRecovery; (try dsimp only) <;> (try (repeat' split) <;> first | exact hs | (simp (maxDischargeDepth := 40) [*]; done) | (simp +contextual (maxDischargeDepth := 40) [*]; done))
@[simp] theorem takeGap_calm (lane : Lane) (c : CurrentFrame) (s : State) (hs : Calm r s) : Calm r (takeGap lane c s) := by
  unfold takeGap; (try dsimp only) <;> (try (repeat' split) <;> first | exact hs | (simp (maxDischargeDepth := 40) [*]; done) | (simp +contextual (maxDischargeDepth := 40) [*]; done))
@[simp] theorem closeExpired_calm (s : State) (hs : Calm r s) : Calm r (closeExpired s) := by
  unfold closeExpired; (try dsimp only) <;> (try (repeat' split) <;> first | exact hs | (simp (maxDischargeDepth := 40) [*]; done) | (simp +contextual (maxDischargeDepth := 40) [*]; done))
@[simp] theorem takeCloseExpiry_calm (s : State) (hs : Calm r s) : Calm r (takeCloseExpiry s) := by
  unfold takeCloseExpiry; (try dsimp only) <;> (try (repeat' split) <;> first | exact hs | (simp (maxDischargeDepth := 40) [*]; done) | (simp +contextual (maxDischargeDepth := 40) [*]; done))
@[simp] theorem takeSlot_calm (tag : Tag) (s : State) (hs : Calm r s) : Calm r (takeSlot tag s) := by
  unfold takeSlot; (try dsimp only) <;> (try (repeat' split) <;> first | exact hs | (simp (maxDischargeDepth := 40) [*]; done) | (simp +contextual (maxDischargeDepth := 40) [*]; done))
@[simp] theorem endWait_calm (s : State) (hs : Calm r s) : Calm r (endWait s) := by
  unfold endWait; (try dsimp only) <;> (try (repeat' split) <;> first | exact hs | (simp (maxDischargeDepth := 40) [*]; done) | (simp +contextual (maxDischargeDepth := 40) [*]; done))
@[simp] theorem fireChannel_calm (c : Channel) (s : State) (hs : Calm r s) : Calm r (fireChannel c s) := by
  unfold fireChannel; (try dsimp only) <;> (try (repeat' split) <;> first | exact hs | (simp (maxDischargeDepth := 40) [*]; done) | (simp +contextual (maxDischargeDepth := 40) [*]; done))
@[simp] theorem notFired_calm (s : State) (hs : Calm r s) : Calm r (notFired s) := by
  unfold notFired; (try dsimp only) <;> (try (repeat' split) <;> first | exact hs | (simp (maxDischargeDepth := 40) [*]; done) | (simp +contextual (maxDischargeDepth := 40) [*]; done))
@[simp] theorem takeFire_calm (s : State) (hs : Calm r s) : Calm r (takeFire s) := by
  unfold takeFire; (try dsimp only) <;> (try (repeat' split) <;> first | exact hs | (simp (maxDischargeDepth := 40) [*]; done) | (simp +contextual (maxDischargeDepth := 40) [*]; done))
@[simp] theorem beginJudging_calm (s : State) (hs : Calm r s) : Calm r (beginJudging s) := by
  unfold beginJudging; (try dsimp only) <;> (try (repeat' split) <;> first | exact hs | (simp (maxDischargeDepth := 40) [*]; done) | (simp +contextual (maxDischargeDepth := 40) [*]; done))
@[simp] theorem takeEndTag_calm (s : State) (hs : Calm r s) : Calm r (takeEndTag s) := by
  unfold takeEndTag; (try dsimp only) <;> (try (repeat' split) <;> first | exact hs | (simp (maxDischargeDepth := 40) [*]; done) | (simp +contextual (maxDischargeDepth := 40) [*]; done))
@[simp] theorem beginFrameOn_calm (l : Lane) (s : State) (hs : Calm r s) : Calm r (beginFrameOn l s) := by
  unfold beginFrameOn; (try dsimp only) <;> (try (repeat' split) <;> first | exact hs | (simp (maxDischargeDepth := 40) [*]; done) | (simp +contextual (maxDischargeDepth := 40) [*]; done))
@[simp] theorem goMissing_calm (st : Station) (s : State) (hs : Calm r s) : Calm r (goMissing st s) := by
  unfold goMissing; (try dsimp only) <;> (try (repeat' split) <;> first | exact hs | (simp (maxDischargeDepth := 40) [*]; done) | (simp +contextual (maxDischargeDepth := 40) [*]; done))
@[simp] theorem askPresence_calm (s : State) (hs : Calm r s) : Calm r (askPresence s) := by
  unfold askPresence; (try dsimp only) <;> (try (repeat' split) <;> first | exact hs | (simp (maxDischargeDepth := 40) [*]; done) | (simp +contextual (maxDischargeDepth := 40) [*]; done))
@[simp] theorem judgeReadSegment_calm (n : Nat) (s : State) (hs : Calm r s) : Calm r (judgeReadSegment n s) := by
  unfold judgeReadSegment; (try dsimp only) <;> (try (repeat' split) <;> first | exact hs | (simp (maxDischargeDepth := 40) [*]; done) | (simp +contextual (maxDischargeDepth := 40) [*]; done))
@[simp] theorem judgeControl_calm (kind group value mask : Byte) (s : State) (hs : Calm r s) : Calm r (judgeControl kind group value mask s) := by
  unfold judgeControl; (try dsimp only) <;> (try (repeat' split) <;> first | exact hs | (simp (maxDischargeDepth := 40) [*]; done) | (simp +contextual (maxDischargeDepth := 40) [*]; done))
@[simp] theorem segmentControlStep_calm (kind group value mask : Byte) (s : State) (hs : Calm r s) : Calm r (segmentControlStep kind group value mask s) := by
  unfold segmentControlStep; (try dsimp only) <;> (try (repeat' split) <;> first | exact hs | (simp (maxDischargeDepth := 40) [*]; done) | (simp +contextual (maxDischargeDepth := 40) [*]; done))
end Sys2Proof.Machine
end

