-- ==== Sys2Proof/Laws/Capacity.lean ====
section
/-! SUPPORT. Every operation keeps the collections within their capacities (`CapacityInv`): one lemma for each operation. -/

namespace Sys2Proof.Machine

@[simp] theorem foldl_cap {α : Type} (f : State → α → State) (h : ∀ t a, CapacityInv t → CapacityInv (f t a)) (l : List α) (s : State) (hs : CapacityInv s) : CapacityInv (l.foldl f s) := by
  induction l generalizing s with
  | nil => exact hs
  | cons a l ih => exact ih _ (h _ _ hs)
@[simp] theorem withNow_cap (s : State) (v) : CapacityInv (s.withNow v) ↔ CapacityInv s := ⟨id, id⟩
@[simp] theorem withClock_cap (s : State) (v) : CapacityInv (s.withClock v) ↔ CapacityInv s := ⟨id, id⟩
@[simp] theorem withTracker_cap (s : State) (v) : CapacityInv (s.withTracker v) ↔ CapacityInv s := ⟨id, id⟩
@[simp] theorem withMember_cap (s : State) (v) : CapacityInv (s.withMember v) ↔ CapacityInv s := ⟨id, id⟩
@[simp] theorem withFault_cap (s : State) (v) : CapacityInv (s.withFault v) ↔ CapacityInv s := ⟨id, id⟩
@[simp] theorem withCoup_cap (s : State) (v) : CapacityInv (s.withCoup v) ↔ CapacityInv s := ⟨id, id⟩
@[simp] theorem withFreeCount_cap (s : State) (v) : CapacityInv (s.withFreeCount v) ↔ CapacityInv s := ⟨id, id⟩
@[simp] theorem withPending_cap (s : State) (v) : CapacityInv (s.withPending v) ↔ CapacityInv s := ⟨id, id⟩
@[simp] theorem setUnit_cap (s : State) (c v) : CapacityInv (s.setUnit c v) ↔ CapacityInv s := ⟨id, id⟩
@[simp] theorem setLane_cap (s : State) (l v) : CapacityInv (s.setLane l v) ↔ CapacityInv s := ⟨id, id⟩
@[simp] theorem setPeer_cap (s : State) (st v) : CapacityInv (s.setPeer st v) ↔ CapacityInv s := ⟨id, id⟩
@[simp] theorem CapacityInv.queue {s : State} (h : CapacityInv s) : s.link.queue.length ≤ queueCapacity := h.1
@[simp] theorem CapacityInv.notices {s : State} (h : CapacityInv s) : s.port.notices.length ≤ noticeCapacity := h.2.1
@[simp] theorem CapacityInv.own {s : State} (h : CapacityInv s) : s.channels.queue.length ≤ ownQueueCapacity := h.2.2.1
@[simp] theorem CapacityInv.window {s : State} (h : CapacityInv s) : s.coin.window.length ≤ windowCapacity := h.2.2.2.1
@[simp] theorem CapacityInv.groups {s : State} (h : CapacityInv s) : s.coin.pendingGroups.length ≤ pendingCapacity := h.2.2.2.2.1
@[simp] theorem CapacityInv.applied {s : State} (h : CapacityInv s) : s.evid.applied.length ≤ appliedCapacity := h.2.2.2.2.2.1
@[simp] theorem CapacityInv.carry {s : State} (h : CapacityInv s) : s.agree.carry.length ≤ carryCapacity := h.2.2.2.2.2.2.1
@[simp] theorem CapacityInv.heard {s : State} (h : CapacityInv s) : s.link.lastAccepted.length ≤ 4 := h.2.2.2.2.2.2.2
@[simp] theorem withLink_cap {s : State} (hs : CapacityInv s) (v) : CapacityInv (s.withLink v) ↔ v.queue.length ≤ queueCapacity ∧ v.lastAccepted.length ≤ 4 := by
  obtain ⟨a1, a2, a3, a4, a5, a6, a7, a8⟩ := hs; simp_all [CapacityInv]
@[simp] theorem withPort_cap {s : State} (hs : CapacityInv s) (v) : CapacityInv (s.withPort v) ↔ v.notices.length ≤ noticeCapacity := by
  obtain ⟨a1, a2, a3, a4, a5, a6, a7, a8⟩ := hs; simp_all [CapacityInv]
@[simp] theorem withChannels_cap {s : State} (hs : CapacityInv s) (v) : CapacityInv (s.withChannels v) ↔ v.queue.length ≤ ownQueueCapacity := by
  obtain ⟨a1, a2, a3, a4, a5, a6, a7, a8⟩ := hs; simp_all [CapacityInv]
@[simp] theorem withCoin_cap {s : State} (hs : CapacityInv s) (v) : CapacityInv (s.withCoin v) ↔ v.window.length ≤ windowCapacity ∧ v.pendingGroups.length ≤ pendingCapacity := by
  obtain ⟨a1, a2, a3, a4, a5, a6, a7, a8⟩ := hs; simp_all [CapacityInv]
@[simp] theorem withEvid_cap {s : State} (hs : CapacityInv s) (v) : CapacityInv (s.withEvid v) ↔ v.applied.length ≤ appliedCapacity := by
  obtain ⟨a1, a2, a3, a4, a5, a6, a7, a8⟩ := hs; simp_all [CapacityInv]
@[simp] theorem withAgree_cap {s : State} (hs : CapacityInv s) (v) : CapacityInv (s.withAgree v) ↔ v.carry.length ≤ carryCapacity := by
  obtain ⟨a1, a2, a3, a4, a5, a6, a7, a8⟩ := hs; simp_all [CapacityInv]
@[simp] theorem mk_cap (a b t ch lk mb co ev ag cu fa po x y) : CapacityInv (State.mk a b t ch lk mb co ev ag cu fa po x y) ↔
  lk.queue.length ≤ queueCapacity ∧ po.notices.length ≤ noticeCapacity ∧ ch.queue.length ≤ ownQueueCapacity ∧ co.window.length ≤ windowCapacity ∧ co.pendingGroups.length ≤ pendingCapacity ∧ ev.applied.length ≤ appliedCapacity ∧ ag.carry.length ≤ carryCapacity ∧ lk.lastAccepted.length ≤ 4 := ⟨id, id⟩
theorem fewestHits_mem {l : List AppliedEvent} {b : AppliedEvent} (h : fewestHits l = some b) : b ∈ l := by
  induction l generalizing b with
  | nil => cases h
  | cons a l ih =>
    unfold fewestHits at h
    split at h
    · cases h; simp
    · rename_i c hc
      split at h <;> cases h
      · exact List.mem_cons_of_mem _ (ih hc)
      · simp
@[simp] theorem length_filter_cap {α : Type} (p : α → Bool) {l : List α} {n : Nat} (h : l.length ≤ n) : (l.filter p).length ≤ n :=
  le_trans (List.length_filter_le _ _) h
@[simp] theorem length_drop_cap {α : Type} (k : Nat) {l : List α} {n : Nat} (h : l.length ≤ n) : (l.drop k).length ≤ n := by
  simp only [List.length_drop]; omega
@[simp] theorem reset_cap : CapacityInv State.reset := by unfold CapacityInv; decide
@[simp] theorem resetLink_queue : Link.reset.queue = [] := rfl
@[simp] theorem resetLink_heard : Link.reset.lastAccepted = [] := rfl
@[simp] theorem resetChannels_queue : Channels.reset.queue = [] := rfl
@[simp] theorem resetCoin_window : Coincidence.reset.window = [] := rfl
@[simp] theorem resetCoin_groups : Coincidence.reset.pendingGroups = [] := rfl
@[simp] theorem resetEvid_applied (n : Nat) : (Evidence.reset n).applied = [] := rfl
@[simp] theorem resetAgree_carry : Agreement.reset.carry = [] := rfl
@[simp] theorem le_add_cap {n c k : Nat} (h : n ≤ c) : n ≤ c + k := by omega
@[simp] theorem capacity_one : 1 ≤ noticeCapacity := by decide
@[simp] theorem clear_window (c : Coincidence) : (clearCoincidence c).window = [] := rfl
@[simp] theorem clear_groups (c : Coincidence) : (clearCoincidence c).pendingGroups = [] := rfl
theorem flush_cap {l : Link} (h : l.queue.length ≤ queueCapacity) : (flushLink l).queue.length ≤ queueCapacity := by
  unfold flushLink
  (repeat' split) <;> simp [*]
theorem flush_heard (l : Link) : (flushLink l).lastAccepted = l.lastAccepted := by
  unfold flushLink
  (repeat' split) <;> rfl
theorem insertEntry_length (e : HitEntry) (w : List HitEntry) : (insertEntry e w).length = w.length + 1 := by
  induction w with
  | nil => rfl
  | cons a w ih => unfold insertEntry; split <;> simp [ih]
theorem judge_cap {l : List AppliedEvent} (h : l.length ≤ appliedCapacity) (a : AppliedEvent) : (judgeEvent l a).list.length ≤ appliedCapacity := by
  unfold judgeEvent; dsimp only
  split
  · split
    · simp; omega
    · split
      · rename_i b hb
        split
        · have hm : b ∈ l := fewestHits_mem hb
          have := List.length_erase_of_mem hm
          have : 0 < l.length := List.length_pos_of_mem hm
          simp; omega
        · exact h
      · exact h
  · split
    · rename_i h1 h2
      have hlt : (l.filter fun b => !overlaps a.event b.event).length < l.length := by
        rw [List.length_filter_lt_length_iff_exists]
        simp at h1
        obtain ⟨b, hb, ho⟩ := h1
        exact ⟨b, hb, by simp [ho]⟩
      simp; omega
    · exact h

@[simp] theorem unlessFrozen_cap (s : State) (f : State → State) (hf : ∀  t, CapacityInv t → CapacityInv (f t)) (hs : CapacityInv s) : CapacityInv (State.unlessFrozen s f) := by
  unfold State.unlessFrozen; (try dsimp only) <;> (try (repeat' split) <;> first | exact hs | (simp (maxDischargeDepth := 40) [*]; done) | (simp +contextual (maxDischargeDepth := 40) [*]; done))
@[simp] theorem rewrite_cap (p : StoreWord → Bool) (s : State) (hs : CapacityInv s) : CapacityInv (rewrite p s) := by
  unfold rewrite; (try dsimp only) <;> (try (repeat' split) <;> first | exact hs | (simp (maxDischargeDepth := 40) [*]; done) | (simp +contextual (maxDischargeDepth := 40) [*]; done))
@[simp] theorem arrive_cap (m : Moment) (s : State) (hs : CapacityInv s) : CapacityInv (arrive m s) := by
  unfold arrive; (try dsimp only) <;> (try (repeat' split) <;> first | exact hs | (simp (maxDischargeDepth := 40) [*]; done) | (simp +contextual (maxDischargeDepth := 40) [*]; done))
@[simp] theorem raise_cap (n : Notice) (s : State) (hs : CapacityInv s) : CapacityInv (raise n s) := by
  unfold raise
  split
  · simp [hs]; omega
  · simp [hs]
@[simp] theorem raiseNow_cap (subject : Nat) (d : NoticeDetail) (s : State) (hs : CapacityInv s) : CapacityInv (raiseNow subject d s) := by
  unfold raiseNow; (try dsimp only) <;> (try (repeat' split) <;> first | exact hs | (simp (maxDischargeDepth := 40) [*]; done) | (simp +contextual (maxDischargeDepth := 40) [*]; done))
@[simp] theorem offerStacked_cap (s : State) (hs : CapacityInv s) (h : s.port.notices.length < noticeCapacity) : CapacityInv (offerStacked s) := by
  unfold offerStacked
  split
  · simp [hs]; omega
  · exact hs
@[simp] theorem beginFrame_cap (ref : Option Nat) (kind : FrameKind) (payload : List Byte) (s : State) (hs : CapacityInv s) : CapacityInv (beginFrame ref kind payload s) := by
  unfold beginFrame; (try dsimp only) <;> (try (repeat' split) <;> first | exact hs | (simp (maxDischargeDepth := 40) [*]; done) | (simp +contextual (maxDischargeDepth := 40) [*]; done))
@[simp] theorem selectEntry_cap (c : Candidate) (s : State) (hs : CapacityInv s) : CapacityInv (selectEntry c s) := by
  unfold selectEntry; (try dsimp only) <;> (try (repeat' split) <;> first | exact hs | (simp (maxDischargeDepth := 40) [*]; done) | (simp +contextual (maxDischargeDepth := 40) [*]; done))
@[simp] theorem selectFrame_cap (s : State) (hs : CapacityInv s) : CapacityInv (selectFrame s) := by
  unfold selectFrame; (try dsimp only) <;> (try (repeat' split) <;> first | exact hs | (simp (maxDischargeDepth := 40) [*]; done) | (simp +contextual (maxDischargeDepth := 40) [*]; done))
theorem enqueue_cap (kind : FrameKind) (payload : List Byte) (s : State) (hs : CapacityInv s) (h : s.link.queue.length < queueCapacity) : CapacityInv (enqueue kind payload s) := by
  unfold enqueue; simp [hs]; omega
@[simp] theorem requestUnchecked_cap (kind : FrameKind) (payload : List Byte) (s : State) (hs : CapacityInv s) : CapacityInv (requestUnchecked kind payload s) := by
  unfold requestUnchecked
  split
  · rename_i h
    apply selectFrame_cap
    simp [canRequest] at h; exact enqueue_cap _ _ _ hs (by omega)
  · exact hs
@[simp] theorem withdraw_cap (ref : Nat) (s : State) (hs : CapacityInv s) : CapacityInv (withdraw ref s) := by
  unfold withdraw; (try dsimp only) <;> (try (repeat' split) <;> first | exact hs | (simp (maxDischargeDepth := 40) [*]; done) | (simp +contextual (maxDischargeDepth := 40) [*]; done))
@[simp] theorem removeHit_cap (id : HitId) (s : State) (hs : CapacityInv s) : CapacityInv (removeHit id s) := by
  unfold removeHit; (try dsimp only) <;> (try (repeat' split) <;> first | exact hs | (simp (maxDischargeDepth := 40) [*]; done) | (simp +contextual (maxDischargeDepth := 40) [*]; done))
@[simp] theorem settleCapture_cap (c : Channel) (arrival : Tag) (new : Capture) (s : State) (hs : CapacityInv s) : CapacityInv (settleCapture c arrival new s) := by
  unfold settleCapture; (try dsimp only) <;> (try (repeat' split) <;> first | exact hs | (simp (maxDischargeDepth := 40) [*]; done) | (simp +contextual (maxDischargeDepth := 40) [*]; done))
@[simp] theorem offerPolicy_cap (s : State) (hs : CapacityInv s) : CapacityInv (offerPolicy s) := by
  unfold offerPolicy; (try dsimp only) <;> (try (repeat' split) <;> first | exact hs | (simp (maxDischargeDepth := 40) [*]; done) | (simp +contextual (maxDischargeDepth := 40) [*]; done))
@[simp] theorem channelsWindowOpened_cap (s : State) (hs : CapacityInv s) : CapacityInv (channelsWindowOpened s) := by
  unfold channelsWindowOpened; (try dsimp only) <;> (try (repeat' split) <;> first | exact hs | (simp (maxDischargeDepth := 40) [*]; done) | (simp +contextual (maxDischargeDepth := 40) [*]; done))
@[simp] theorem stopStation_cap (kind : FaultKind) (w : StoreWord) (s : State) (hs : CapacityInv s) : CapacityInv (stopStation kind w s) := by
  unfold stopStation
  simp [hs, flush_cap, flush_heard]
@[simp] theorem freeze_cap (kind : FaultKind) (w : StoreWord) (s : State) (hs : CapacityInv s) : CapacityInv (freeze kind w s) := by
  unfold freeze; (try dsimp only) <;> (try (repeat' split) <;> first | exact hs | (simp (maxDischargeDepth := 40) [*]; done) | (simp +contextual (maxDischargeDepth := 40) [*]; done))
@[simp] theorem resetBlocks_cap (why : RestartCause) (s : State) (hs : CapacityInv s) : CapacityInv (resetBlocks why s) := by
  unfold resetBlocks; (try dsimp only) <;> (try (repeat' split) <;> first | exact hs | (simp (maxDischargeDepth := 40) [*]; done) | (simp +contextual (maxDischargeDepth := 40) [*]; done))
@[simp] theorem startBlocks_cap (s : State) (hs : CapacityInv s) : CapacityInv (startBlocks s) := by
  unfold startBlocks; (try dsimp only) <;> (try (repeat' split) <;> first | exact hs | (simp (maxDischargeDepth := 40) [*]; done) | (simp +contextual (maxDischargeDepth := 40) [*]; done))
@[simp] theorem enterJoining_cap (s : State) (hs : CapacityInv s) : CapacityInv (enterJoining s) := by
  unfold enterJoining; (try dsimp only) <;> (try (repeat' split) <;> first | exact hs | (simp (maxDischargeDepth := 40) [*]; done) | (simp +contextual (maxDischargeDepth := 40) [*]; done))
@[simp] theorem selfRestart_cap (why : RestartCause) (s : State) (hs : CapacityInv s) : CapacityInv (selfRestart why s) := by
  unfold selfRestart; (try dsimp only) <;> (try (repeat' split) <;> first | exact hs | (simp (maxDischargeDepth := 40) [*]; done) | (simp +contextual (maxDischargeDepth := 40) [*]; done))
@[simp] theorem secondFault_cap (s : State) (hs : CapacityInv s) : CapacityInv (secondFault s) := by
  unfold secondFault; (try dsimp only) <;> (try (repeat' split) <;> first | exact hs | (simp (maxDischargeDepth := 40) [*]; done) | (simp +contextual (maxDischargeDepth := 40) [*]; done))
theorem lookAgain_cap (s t : State) (h : CapacityInv t) : CapacityInv (lookAgain s t) := by
  unfold lookAgain
  split
  · exact secondFault_cap _ h
  · exact h
@[simp] theorem readFault_cap (kind : FaultKind) (w : StoreWord) (s : State) (hs : CapacityInv s) : CapacityInv (readFault kind w s) := by
  unfold readFault; (try dsimp only) <;> (try (repeat' split) <;> first | exact hs | (simp (maxDischargeDepth := 40) [*]; done) | (simp +contextual (maxDischargeDepth := 40) [*]; done))
@[simp] theorem readingConfig_cap (offsets : List Nat) (stop f : State → State) (s : State) (hstop : ∀ t, CapacityInv t → CapacityInv (stop t)) (hf : ∀ t, CapacityInv t → CapacityInv (f t)) (hs : CapacityInv s) : CapacityInv (readingConfig offsets stop f s) := by
  unfold readingConfig; (repeat' split) <;> simp +contextual [*]
/-- The same, of this one state. -/
theorem readingConfig_at_cap (offsets : List Nat) (stop f : State → State) (s : State) (hs : CapacityInv (stop s)) (h : CapacityInv (f s)) : CapacityInv (readingConfig offsets stop f s) := by
  unfold readingConfig; (repeat' split) <;> simp [*]
theorem usingConfig_at_cap (offsets : List Nat) (f : State → State) (s : State) (hs : CapacityInv s) (h : CapacityInv (f s)) : CapacityInv (usingConfig offsets f s) :=
  readingConfig_at_cap offsets id f s hs h
@[simp] theorem usingConfig_cap (offsets : List Nat) (f : State → State) (s : State) (hf : ∀  t, CapacityInv t → CapacityInv (f t)) (hs : CapacityInv s) : CapacityInv (usingConfig offsets f s) := by
  unfold usingConfig; (try dsimp only) <;> (try (repeat' split) <;> first | exact hs | (simp (maxDischargeDepth := 40) [*]; done) | (simp +contextual (maxDischargeDepth := 40) [*]; done))
@[simp] theorem usingWords_cap (words : List StoreWord) (f : State → State) (s : State) (hf : ∀  t, CapacityInv t → CapacityInv (f t)) (hs : CapacityInv s) : CapacityInv (usingWords words f s) := by
  unfold usingWords; (try dsimp only) <;> (try (repeat' split) <;> first | exact hs | (simp (maxDischargeDepth := 40) [*]; done) | (simp +contextual (maxDischargeDepth := 40) [*]; done))
@[simp] theorem boardReads_cap (words : List StoreWord) (f : State → State) (s : State) (hf : ∀  t, CapacityInv t → CapacityInv (f t)) (hs : CapacityInv s) : CapacityInv (boardReads words f s) := by
  unfold boardReads; (try dsimp only) <;> (try (repeat' split) <;> first | exact hs | (simp (maxDischargeDepth := 40) [*]; done) | (simp +contextual (maxDischargeDepth := 40) [*]; done))
@[simp] theorem selectNext_cap (s : State) (hs : CapacityInv s) : CapacityInv (selectNext s) := by
  unfold selectNext; (try dsimp only) <;> (try (repeat' split) <;> first | exact hs | (simp (maxDischargeDepth := 40) [*]; done) | (simp +contextual (maxDischargeDepth := 40) [*]; done))
@[simp] theorem request_cap (kind : FrameKind) (payload : List Byte) (taken : Nat → State → State) (refused : State → State) (s : State) (htaken : ∀ a t, CapacityInv t → CapacityInv (taken a t)) (hrefused : ∀ t, CapacityInv t → CapacityInv (refused t)) (hs : CapacityInv s) : CapacityInv (request kind payload taken refused s) := by
  unfold request
  split
  · rename_i h
    apply selectNext_cap
    apply htaken
    simp [canRequest] at h; exact enqueue_cap _ _ _ hs (by omega)
  · exact hrefused _ hs
@[simp] theorem keepNoRef_cap (_ref : Nat) (s : State) (hs : CapacityInv s) : CapacityInv (keepNoRef _ref s) := by
  unfold keepNoRef; (try dsimp only) <;> (try (repeat' split) <;> first | exact hs | (simp (maxDischargeDepth := 40) [*]; done) | (simp +contextual (maxDischargeDepth := 40) [*]; done))
@[simp] theorem requestLogout_cap (p : LogoutPart) (s : State) (hs : CapacityInv s) : CapacityInv (requestLogout p s) := by
  unfold requestLogout; (try dsimp only) <;> (try (repeat' split) <;> first | exact hs | (simp (maxDischargeDepth := 40) [*]; done) | (simp +contextual (maxDischargeDepth := 40) [*]; done))
@[simp] theorem softFault_cap (s : State) (hs : CapacityInv s) : CapacityInv (softFault s) := by
  unfold softFault; (try dsimp only) <;> (try (repeat' split) <;> first | exact hs | (simp (maxDischargeDepth := 40) [*]; done) | (simp +contextual (maxDischargeDepth := 40) [*]; done))
@[simp] theorem checkWindow_cap (s : State) (hs : CapacityInv s) : CapacityInv (checkWindow s) := by
  unfold checkWindow; (try dsimp only) <;> (try (repeat' split) <;> first | exact hs | (simp (maxDischargeDepth := 40) [*]; done) | (simp +contextual (maxDischargeDepth := 40) [*]; done))
@[simp] theorem formGroup_cap (s : State) (hs : CapacityInv s) : CapacityInv (formGroup s) := by
  unfold formGroup; (try dsimp only) <;> (try (repeat' split) <;> first | exact hs | (simp (maxDischargeDepth := 40) [*]; done) | (simp +contextual (maxDischargeDepth := 40) [*]; done))
@[simp] theorem readWindow_cap (s : State) (hs : CapacityInv s) : CapacityInv (readWindow s) := by
  unfold readWindow; (try dsimp only) <;> (try (repeat' split) <;> first | exact hs | (simp (maxDischargeDepth := 40) [*]; done) | (simp +contextual (maxDischargeDepth := 40) [*]; done))
@[simp] theorem hitEntered_cap (id : HitId) (s : State) (hs : CapacityInv s) : CapacityInv (hitEntered id s) := by
  unfold hitEntered; (try dsimp only) <;> (try (repeat' split) <;> first | exact hs | (simp (maxDischargeDepth := 40) [*]; done) | (simp +contextual (maxDischargeDepth := 40) [*]; done))
@[simp] theorem requestRemoval_cap (id : HitId) (s : State) (hs : CapacityInv s) : CapacityInv (requestRemoval id s) := by
  unfold requestRemoval; (try dsimp only) <;> (try (repeat' split) <;> first | exact hs | (simp (maxDischargeDepth := 40) [*]; done) | (simp +contextual (maxDischargeDepth := 40) [*]; done))
@[simp] theorem discardHit_cap (c : Channel) (hit : Option OpenHit) (s : State) (hs : CapacityInv s) : CapacityInv (discardHit c hit s) := by
  unfold discardHit; (try dsimp only) <;> (try (repeat' split) <;> first | exact hs | (simp (maxDischargeDepth := 40) [*]; done) | (simp +contextual (maxDischargeDepth := 40) [*]; done))
@[simp] theorem disableInto_cap (c : Channel) (u : ChannelUnit) (s : State) (hs : CapacityInv s) : CapacityInv (disableInto c u s) := by
  unfold disableInto; (try dsimp only) <;> (try (repeat' split) <;> first | exact hs | (simp (maxDischargeDepth := 40) [*]; done) | (simp +contextual (maxDischargeDepth := 40) [*]; done))
@[simp] theorem disableChannel_cap (c : Channel) (state : ChannelState) (role : Role) (s : State) (hs : CapacityInv s) : CapacityInv (disableChannel c state role s) := by
  unfold disableChannel; (try dsimp only) <;> (try (repeat' split) <;> first | exact hs | (simp (maxDischargeDepth := 40) [*]; done) | (simp +contextual (maxDischargeDepth := 40) [*]; done))
@[simp] theorem checkApplied_cap (s : State) (hs : CapacityInv s) : CapacityInv (checkApplied s) := by
  unfold checkApplied; (try dsimp only) <;> (try (repeat' split) <;> first | exact hs | (simp (maxDischargeDepth := 40) [*]; done) | (simp +contextual (maxDischargeDepth := 40) [*]; done))
@[simp] theorem muteChannel_cap (c : Channel) (s : State) (hs : CapacityInv s) : CapacityInv (muteChannel c s) := by
  unfold muteChannel; (try dsimp only) <;> (try (repeat' split) <;> first | exact hs | (simp (maxDischargeDepth := 40) [*]; done) | (simp +contextual (maxDischargeDepth := 40) [*]; done))
@[simp] theorem listenAgain_cap (c : Channel) (s : State) (hs : CapacityInv s) : CapacityInv (listenAgain c s) := by
  unfold listenAgain; (try dsimp only) <;> (try (repeat' split) <;> first | exact hs | (simp (maxDischargeDepth := 40) [*]; done) | (simp +contextual (maxDischargeDepth := 40) [*]; done))
@[simp] theorem unmuteChannel_cap (c : Channel) (s : State) (hs : CapacityInv s) : CapacityInv (unmuteChannel c s) := by
  unfold unmuteChannel; (try dsimp only) <;> (try (repeat' split) <;> first | exact hs | (simp (maxDischargeDepth := 40) [*]; done) | (simp +contextual (maxDischargeDepth := 40) [*]; done))
@[simp] theorem remute_cap (c : Channel) (s : State) (hs : CapacityInv s) : CapacityInv (remute c s) := by
  unfold remute; (try dsimp only) <;> (try (repeat' split) <;> first | exact hs | (simp (maxDischargeDepth := 40) [*]; done) | (simp +contextual (maxDischargeDepth := 40) [*]; done))
@[simp] theorem listenAfterPulse_cap (c : Channel) (s : State) (hs : CapacityInv s) : CapacityInv (listenAfterPulse c s) := by
  unfold listenAfterPulse; (try dsimp only) <;> (try (repeat' split) <;> first | exact hs | (simp (maxDischargeDepth := 40) [*]; done) | (simp +contextual (maxDischargeDepth := 40) [*]; done))
@[simp] theorem returnToListen_cap (c : Channel) (s : State) (hs : CapacityInv s) : CapacityInv (returnToListen c s) := by
  unfold returnToListen; (try dsimp only) <;> (try (repeat' split) <;> first | exact hs | (simp (maxDischargeDepth := 40) [*]; done) | (simp +contextual (maxDischargeDepth := 40) [*]; done))
@[simp] theorem releaseChannel_cap (c : Channel) (s : State) (hs : CapacityInv s) : CapacityInv (releaseChannel c s) := by
  unfold releaseChannel; (try dsimp only) <;> (try (repeat' split) <;> first | exact hs | (simp (maxDischargeDepth := 40) [*]; done) | (simp +contextual (maxDischargeDepth := 40) [*]; done))
@[simp] theorem setSlot_cap (v : Slot) (s : State) (hs : CapacityInv s) : CapacityInv (setSlot v s) := by
  unfold setSlot; (try dsimp only) <;> (try (repeat' split) <;> first | exact hs | (simp (maxDischargeDepth := 40) [*]; done) | (simp +contextual (maxDischargeDepth := 40) [*]; done))
@[simp] theorem skipSlot_cap (s : State) (hs : CapacityInv s) : CapacityInv (skipSlot s) := by
  unfold skipSlot; (try dsimp only) <;> (try (repeat' split) <;> first | exact hs | (simp (maxDischargeDepth := 40) [*]; done) | (simp +contextual (maxDischargeDepth := 40) [*]; done))
@[simp] theorem slotQueued_cap (ref : Nat) (s : State) (hs : CapacityInv s) : CapacityInv (slotQueued ref s) := by
  unfold slotQueued; (try dsimp only) <;> (try (repeat' split) <;> first | exact hs | (simp (maxDischargeDepth := 40) [*]; done) | (simp +contextual (maxDischargeDepth := 40) [*]; done))
@[simp] theorem pulseRefused_cap (c : Channel) (s : State) (hs : CapacityInv s) : CapacityInv (pulseRefused c s) := by
  unfold pulseRefused; (try dsimp only) <;> (try (repeat' split) <;> first | exact hs | (simp (maxDischargeDepth := 40) [*]; done) | (simp +contextual (maxDischargeDepth := 40) [*]; done))
@[simp] theorem armChannel_cap (c : Channel) (s : State) (hs : CapacityInv s) : CapacityInv (armChannel c s) := by
  unfold armChannel; (try dsimp only) <;> (try (repeat' split) <;> first | exact hs | (simp (maxDischargeDepth := 40) [*]; done) | (simp +contextual (maxDischargeDepth := 40) [*]; done))
@[simp] theorem offerPulse_cap (s : State) (hs : CapacityInv s) : CapacityInv (offerPulse s) := by
  unfold offerPulse; (try dsimp only) <;> (try (repeat' split) <;> first | exact hs | (simp (maxDischargeDepth := 40) [*]; done) | (simp +contextual (maxDischargeDepth := 40) [*]; done))
@[simp] theorem offerInTime_cap (tag : Tag) (s : State) (hs : CapacityInv s) : CapacityInv (offerInTime tag s) := by
  unfold offerInTime; (try dsimp only) <;> (try (repeat' split) <;> first | exact hs | (simp (maxDischargeDepth := 40) [*]; done) | (simp +contextual (maxDischargeDepth := 40) [*]; done))
@[simp] theorem reofferPulse_cap (s : State) (hs : CapacityInv s) : CapacityInv (reofferPulse s) := by
  unfold reofferPulse; (try dsimp only) <;> (try (repeat' split) <;> first | exact hs | (simp (maxDischargeDepth := 40) [*]; done) | (simp +contextual (maxDischargeDepth := 40) [*]; done))
@[simp] theorem releaseNamed_cap (s : State) (hs : CapacityInv s) : CapacityInv (releaseNamed s) := by
  unfold releaseNamed; (try dsimp only) <;> (try (repeat' split) <;> first | exact hs | (simp (maxDischargeDepth := 40) [*]; done) | (simp +contextual (maxDischargeDepth := 40) [*]; done))
@[simp] theorem releasePulse_cap (s : State) (hs : CapacityInv s) : CapacityInv (releasePulse s) := by
  unfold releasePulse; (try dsimp only) <;> (try (repeat' split) <;> first | exact hs | (simp (maxDischargeDepth := 40) [*]; done) | (simp +contextual (maxDischargeDepth := 40) [*]; done))
@[simp] theorem askChannel_cap (c : Channel) (ask : MuteRequest) (s : State) (hs : CapacityInv s) : CapacityInv (askChannel c ask s) := by
  unfold askChannel; (try dsimp only) <;> (try (repeat' split) <;> first | exact hs | (simp (maxDischargeDepth := 40) [*]; done) | (simp +contextual (maxDischargeDepth := 40) [*]; done))
@[simp] theorem judgeRecordOf_cap (w : PulseWindow) (c : Channel) (s : State) (hs : CapacityInv s) : CapacityInv (judgeRecordOf w c s) := by
  unfold judgeRecordOf; (try dsimp only) <;> (try (repeat' split) <;> first | exact hs | (simp (maxDischargeDepth := 40) [*]; done) | (simp +contextual (maxDischargeDepth := 40) [*]; done))
@[simp] theorem judgeIfReferred_cap (w : PulseWindow) (c : Channel) (s : State) (hs : CapacityInv s) : CapacityInv (judgeIfReferred w c s) := by
  unfold judgeIfReferred; (try dsimp only) <;> (try (repeat' split) <;> first | exact hs | (simp (maxDischargeDepth := 40) [*]; done) | (simp +contextual (maxDischargeDepth := 40) [*]; done))
@[simp] theorem judgeSensor_cap (w : PulseWindow) (c : Channel) (s : State) (hs : CapacityInv s) : CapacityInv (judgeSensor w c s) := by
  unfold judgeSensor; (try dsimp only) <;> (try (repeat' split) <;> first | exact hs | (simp (maxDischargeDepth := 40) [*]; done) | (simp +contextual (maxDischargeDepth := 40) [*]; done))
@[simp] theorem judgeSensors_cap (w : PulseWindow) (l : List Channel) (s : State) (hs : CapacityInv s) : CapacityInv (judgeSensors w l s) := by
  induction l generalizing s with
  | nil => exact hs
  | cons a l ih => unfold judgeSensors; simp +contextual (maxDischargeDepth := 40) [*]
@[simp] theorem judgeWindow_cap (w : PulseWindow) (s : State) (hs : CapacityInv s) : CapacityInv (judgeWindow w s) := by
  unfold judgeWindow; (try dsimp only) <;> (try (repeat' split) <;> first | exact hs | (simp (maxDischargeDepth := 40) [*]; done) | (simp +contextual (maxDischargeDepth := 40) [*]; done))
@[simp] theorem judgeIfReady_cap (s : State) (hs : CapacityInv s) : CapacityInv (judgeIfReady s) := by
  unfold judgeIfReady; (try dsimp only) <;> (try (repeat' split) <;> first | exact hs | (simp (maxDischargeDepth := 40) [*]; done) | (simp +contextual (maxDischargeDepth := 40) [*]; done))
@[simp] theorem reofferThenJudge_cap (s : State) (hs : CapacityInv s) : CapacityInv (reofferThenJudge s) := by
  unfold reofferThenJudge; (try dsimp only) <;> (try (repeat' split) <;> first | exact hs | (simp (maxDischargeDepth := 40) [*]; done) | (simp +contextual (maxDischargeDepth := 40) [*]; done))
@[simp] theorem closeWindowUnits_cap (s : State) (hs : CapacityInv s) : CapacityInv (closeWindowUnits s) := by
  unfold closeWindowUnits; (try dsimp only) <;> (try (repeat' split) <;> first | exact hs | (simp (maxDischargeDepth := 40) [*]; done) | (simp +contextual (maxDischargeDepth := 40) [*]; done))
@[simp] theorem channelsWindowClosed_cap (s : State) (hs : CapacityInv s) : CapacityInv (channelsWindowClosed s) := by
  unfold channelsWindowClosed; (try dsimp only) <;> (try (repeat' split) <;> first | exact hs | (simp (maxDischargeDepth := 40) [*]; done) | (simp +contextual (maxDischargeDepth := 40) [*]; done))
@[simp] theorem abandonWindow_cap (s : State) (hs : CapacityInv s) : CapacityInv (abandonWindow s) := by
  unfold abandonWindow; (try dsimp only) <;> (try (repeat' split) <;> first | exact hs | (simp (maxDischargeDepth := 40) [*]; done) | (simp +contextual (maxDischargeDepth := 40) [*]; done))
@[simp] theorem openWindow_cap (s : State) (hs : CapacityInv s) : CapacityInv (openWindow s) := by
  unfold openWindow; (try dsimp only) <;> (try (repeat' split) <;> first | exact hs | (simp (maxDischargeDepth := 40) [*]; done) | (simp +contextual (maxDischargeDepth := 40) [*]; done))
@[simp] theorem ignoreWindow_cap (s : State) (hs : CapacityInv s) : CapacityInv (ignoreWindow s) := by
  unfold ignoreWindow; (try dsimp only) <;> (try (repeat' split) <;> first | exact hs | (simp (maxDischargeDepth := 40) [*]; done) | (simp +contextual (maxDischargeDepth := 40) [*]; done))
@[simp] theorem placeWindow_cap (pulser : Station) (fire finish : Tag) (s : State) (hs : CapacityInv s) : CapacityInv (placeWindow pulser fire finish s) := by
  unfold placeWindow; (try dsimp only) <;> (try (repeat' split) <;> first | exact hs | (simp (maxDischargeDepth := 40) [*]; done) | (simp +contextual (maxDischargeDepth := 40) [*]; done))
@[simp] theorem takePulse_cap (pulser : Station) (stamp : Tag) (s : State) (hs : CapacityInv s) : CapacityInv (takePulse pulser stamp s) := by
  unfold takePulse; (try dsimp only) <;> (try (repeat' split) <;> first | exact hs | (simp (maxDischargeDepth := 40) [*]; done) | (simp +contextual (maxDischargeDepth := 40) [*]; done))
@[simp] theorem pulseFrame_cap (pulser : Station) (cycle : Option CycleNo) (stamp : Tag) (s : State) (hs : CapacityInv s) : CapacityInv (pulseFrame pulser cycle stamp s) := by
  unfold pulseFrame; (try dsimp only) <;> (try (repeat' split) <;> first | exact hs | (simp (maxDischargeDepth := 40) [*]; done) | (simp +contextual (maxDischargeDepth := 40) [*]; done))
@[simp] theorem pulseReported_cap (s : State) (hs : CapacityInv s) : CapacityInv (pulseReported s) := by
  unfold pulseReported; (try dsimp only) <;> (try (repeat' split) <;> first | exact hs | (simp (maxDischargeDepth := 40) [*]; done) | (simp +contextual (maxDischargeDepth := 40) [*]; done))
@[simp] theorem armedChannelLost_cap (s : State) (hs : CapacityInv s) : CapacityInv (armedChannelLost s) := by
  unfold armedChannelLost; (try dsimp only) <;> (try (repeat' split) <;> first | exact hs | (simp (maxDischargeDepth := 40) [*]; done) | (simp +contextual (maxDischargeDepth := 40) [*]; done))
@[simp] theorem endSlotAtCyc_cap (s : State) (hs : CapacityInv s) : CapacityInv (endSlotAtCyc s) := by
  unfold endSlotAtCyc; (try dsimp only) <;> (try (repeat' split) <;> first | exact hs | (simp (maxDischargeDepth := 40) [*]; done) | (simp +contextual (maxDischargeDepth := 40) [*]; done))
@[simp] theorem couplingCyc_cap (s : State) (hs : CapacityInv s) : CapacityInv (couplingCyc s) := by
  unfold couplingCyc; (try dsimp only) <;> (try (repeat' split) <;> first | exact hs | (simp (maxDischargeDepth := 40) [*]; done) | (simp +contextual (maxDischargeDepth := 40) [*]; done))
@[simp] theorem placeInReturn_cap (s : State) (hs : CapacityInv s) : CapacityInv (placeInReturn s) := by
  unfold placeInReturn; (try dsimp only) <;> (try (repeat' split) <;> first | exact hs | (simp (maxDischargeDepth := 40) [*]; done) | (simp +contextual (maxDischargeDepth := 40) [*]; done))
@[simp] theorem placeIfDue_cap (s : State) (hs : CapacityInv s) : CapacityInv (placeIfDue s) := by
  unfold placeIfDue; (try dsimp only) <;> (try (repeat' split) <;> first | exact hs | (simp (maxDischargeDepth := 40) [*]; done) | (simp +contextual (maxDischargeDepth := 40) [*]; done))
@[simp] theorem placeSlot_cap (s : State) (hs : CapacityInv s) : CapacityInv (placeSlot s) := by
  unfold placeSlot; (try dsimp only) <;> (try (repeat' split) <;> first | exact hs | (simp (maxDischargeDepth := 40) [*]; done) | (simp +contextual (maxDischargeDepth := 40) [*]; done))
@[simp] theorem coinCounts_cap (f : CoincidenceCounts → CoincidenceCounts) (s : State) (hs : CapacityInv s) : CapacityInv (coinCounts f s) := by
  unfold coinCounts; (try dsimp only) <;> (try (repeat' split) <;> first | exact hs | (simp (maxDischargeDepth := 40) [*]; done) | (simp +contextual (maxDischargeDepth := 40) [*]; done))
@[simp] theorem enterWindow_cap (e : HitEntry) (s : State) (hs : CapacityInv s) (h : s.coin.window.length < windowCapacity) : CapacityInv (enterWindow e s) := by
  unfold enterWindow
  simp [hs, insertEntry_length]; omega
@[simp] theorem offerOwnHit_cap (c : Channel) (arrival : Tag) (phase : Phase) (s : State) (hs : CapacityInv s) : CapacityInv (offerOwnHit c arrival phase s) := by
  unfold offerOwnHit
  split
  · simp [hs]
  · exact hitEntered_cap _ _ (enterWindow_cap _ _ hs (by omega))
@[simp] theorem enterOwnHit_cap (c : Channel) (arrival : Tag) (phase : Phase) (s : State) (hs : CapacityInv s) : CapacityInv (enterOwnHit c arrival phase s) := by
  unfold enterOwnHit; (try dsimp only) <;> (try (repeat' split) <;> first | exact hs | (simp (maxDischargeDepth := 40) [*]; done) | (simp +contextual (maxDischargeDepth := 40) [*]; done))
@[simp] theorem fillFeatures_cap (id : HitId) (f : Features) (s : State) (hs : CapacityInv s) : CapacityInv (fillFeatures id f s) := by
  unfold fillFeatures; (try dsimp only) <;> (try (repeat' split) <;> first | exact hs | (simp (maxDischargeDepth := 40) [*]; done) | (simp +contextual (maxDischargeDepth := 40) [*]; done))
@[simp] theorem eventDropped_cap (s : State) (hs : CapacityInv s) : CapacityInv (eventDropped s) := by
  unfold eventDropped; (try dsimp only) <;> (try (repeat' split) <;> first | exact hs | (simp (maxDischargeDepth := 40) [*]; done) | (simp +contextual (maxDischargeDepth := 40) [*]; done))
@[simp] theorem ownerTaken_cap (ref : Nat) (s : State) (hs : CapacityInv s) : CapacityInv (ownerTaken ref s) := by
  unfold ownerTaken; (try dsimp only) <;> (try (repeat' split) <;> first | exact hs | (simp (maxDischargeDepth := 40) [*]; done) | (simp +contextual (maxDischargeDepth := 40) [*]; done))
@[simp] theorem requestAsOwner_cap (members : List HitEntry) (crowded : Bool) (s : State) (hs : CapacityInv s) : CapacityInv (requestAsOwner members crowded s) := by
  unfold requestAsOwner; (try dsimp only) <;> (try (repeat' split) <;> first | exact hs | (simp (maxDischargeDepth := 40) [*]; done) | (simp +contextual (maxDischargeDepth := 40) [*]; done))
@[simp] theorem publishAsOwner_cap (members : List HitEntry) (crowded : Bool) (s : State) (hs : CapacityInv s) : CapacityInv (publishAsOwner members crowded s) := by
  unfold publishAsOwner; (try dsimp only) <;> (try (repeat' split) <;> first | exact hs | (simp (maxDischargeDepth := 40) [*]; done) | (simp +contextual (maxDischargeDepth := 40) [*]; done))
theorem addPending_cap (members : List HitEntry) (crowded : Bool) (rank : Nat) (s : State) (hs : CapacityInv s) (h : s.coin.pendingGroups.length < pendingCapacity) : CapacityInv (addPending members crowded rank s) := by
  unfold addPending; simp [hs]; omega
@[simp] theorem pendGroup_cap (members : List HitEntry) (crowded : Bool) (rank : Nat) (s : State) (hs : CapacityInv s) : CapacityInv (pendGroup members crowded rank s) := by
  unfold pendGroup
  split
  · simp [hs]
  · exact usingConfig_at_cap _ _ _ hs (addPending_cap _ _ _ _ hs (by omega))
@[simp] theorem closeGroup_cap (g : OpenGroup) (s : State) (hs : CapacityInv s) : CapacityInv (closeGroup g s) := by
  unfold closeGroup; (try dsimp only) <;> (try (repeat' split) <;> first | exact hs | (simp (maxDischargeDepth := 40) [*]; done) | (simp +contextual (maxDischargeDepth := 40) [*]; done))
@[simp] theorem closeDueGroups_cap (n : Nat) (s : State) (hs : CapacityInv s) : CapacityInv (closeDueGroups n s) := by
  induction n generalizing s with
  | zero => exact hs
  | succ n ih => unfold closeDueGroups; (repeat' split) <;> first | assumption | simp +contextual (maxDischargeDepth := 40) [*]
@[simp] theorem standInTaken_cap (p : PendingGroup) (ref : Nat) (s : State) (hs : CapacityInv s) : CapacityInv (standInTaken p ref s) := by
  unfold standInTaken; (try dsimp only) <;> (try (repeat' split) <;> first | exact hs | (simp (maxDischargeDepth := 40) [*]; done) | (simp +contextual (maxDischargeDepth := 40) [*]; done))
@[simp] theorem standInRefused_cap (p : PendingGroup) (s : State) (hs : CapacityInv s) : CapacityInv (standInRefused p s) := by
  unfold standInRefused; (try dsimp only) <;> (try (repeat' split) <;> first | exact hs | (simp (maxDischargeDepth := 40) [*]; done) | (simp +contextual (maxDischargeDepth := 40) [*]; done))
@[simp] theorem requestAsStandIn_cap (p : PendingGroup) (s : State) (hs : CapacityInv s) : CapacityInv (requestAsStandIn p s) := by
  unfold requestAsStandIn; (try dsimp only) <;> (try (repeat' split) <;> first | exact hs | (simp (maxDischargeDepth := 40) [*]; done) | (simp +contextual (maxDischargeDepth := 40) [*]; done))
@[simp] theorem publishAsStandIn_cap (p : PendingGroup) (s : State) (hs : CapacityInv s) : CapacityInv (publishAsStandIn p s) := by
  unfold publishAsStandIn; (try dsimp only) <;> (try (repeat' split) <;> first | exact hs | (simp (maxDischargeDepth := 40) [*]; done) | (simp +contextual (maxDischargeDepth := 40) [*]; done))
@[simp] theorem eventOutcome_cap (ref : Nat) (wasSent : Bool) (s : State) (hs : CapacityInv s) : CapacityInv (eventOutcome ref wasSent s) := by
  unfold eventOutcome; dsimp only
  (repeat' split) <;> simp (maxDischargeDepth := 40) [hs, eventDropped, coinCounts]
@[simp] theorem peerHit_cap (sender : Station) (offset : Tag) (s : State) (h : HitRecord) (hs : CapacityInv s) : CapacityInv (peerHit sender offset s h) := by
  unfold peerHit; dsimp only
  split
  · simp [hs]
  split
  · simp [hs]
  split
  · simp [hs]
  split
  · simp [hs]
  split
  · simp [hs]
  · exact enterWindow_cap _ _ hs (by omega)
@[simp] theorem takePeerHit_cap (sender : Station) (offset : Tag) (h : HitRecord) (s : State) (hs : CapacityInv s) : CapacityInv (takePeerHit sender offset h s) := by
  unfold takePeerHit; (try dsimp only) <;> (try (repeat' split) <;> first | exact hs | (simp (maxDischargeDepth := 40) [*]; done) | (simp +contextual (maxDischargeDepth := 40) [*]; done))
@[simp] theorem takePeerHits_cap (sender : Station) (offset : Tag) (l : List HitRecord) (s : State) (hs : CapacityInv s) : CapacityInv (takePeerHits sender offset l s) := by
  induction l generalizing s with
  | nil => exact hs
  | cons h t ih => unfold takePeerHits; exact unlessFrozen_cap _ _ (fun t ht => ih t ht) (takePeerHit_cap sender offset h s hs)
@[simp] theorem closeIfMoved_cap (old : Option Tag) (s : State) (hs : CapacityInv s) : CapacityInv (closeIfMoved old s) := by
  unfold closeIfMoved; (try dsimp only) <;> (try (repeat' split) <;> first | exact hs | (simp (maxDischargeDepth := 40) [*]; done) | (simp +contextual (maxDischargeDepth := 40) [*]; done))
@[simp] theorem takeHits_cap (sender : Station) (f : RxFrame) (s : State) (hs : CapacityInv s) : CapacityInv (takeHits sender f s) := by
  unfold takeHits; (try dsimp only) <;> (try (repeat' split) <;> first | exact hs | (simp (maxDischargeDepth := 40) [*]; done) | (simp +contextual (maxDischargeDepth := 40) [*]; done))
@[simp] theorem readForHits_cap (sender : Station) (f : RxFrame) (s : State) (hs : CapacityInv s) : CapacityInv (readForHits sender f s) := by
  unfold readForHits; (try dsimp only) <;> (try (repeat' split) <;> first | exact hs | (simp (maxDischargeDepth := 40) [*]; done) | (simp +contextual (maxDischargeDepth := 40) [*]; done))
@[simp] theorem hitFrame_cap (sender : Station) (f : RxFrame) (s : State) (hs : CapacityInv s) : CapacityInv (hitFrame sender f s) := by
  unfold hitFrame; (try dsimp only) <;> (try (repeat' split) <;> first | exact hs | (simp (maxDischargeDepth := 40) [*]; done) | (simp +contextual (maxDischargeDepth := 40) [*]; done))
@[simp] theorem withdrawPending_cap (p : PendingGroup) (s : State) (hs : CapacityInv s) : CapacityInv (withdrawPending p s) := by
  unfold withdrawPending; (try dsimp only) <;> (try (repeat' split) <;> first | exact hs | (simp (maxDischargeDepth := 40) [*]; done) | (simp +contextual (maxDischargeDepth := 40) [*]; done))
@[simp] theorem eventReceipt_cap (e : EventRecord) (s : State) (hs : CapacityInv s) : CapacityInv (eventReceipt e s) := by
  unfold eventReceipt; (try dsimp only) <;> (try (repeat' split) <;> first | exact hs | (simp (maxDischargeDepth := 40) [*]; done) | (simp +contextual (maxDischargeDepth := 40) [*]; done))
@[simp] theorem discardCoincidence_cap (s : State) (hs : CapacityInv s) : CapacityInv (discardCoincidence s) := by
  unfold discardCoincidence; (try dsimp only) <;> (try (repeat' split) <;> first | exact hs | (simp (maxDischargeDepth := 40) [*]; done) | (simp +contextual (maxDischargeDepth := 40) [*]; done))
@[simp] theorem evidCounts_cap (f : EvidenceCounts → EvidenceCounts) (s : State) (hs : CapacityInv s) : CapacityInv (evidCounts f s) := by
  unfold evidCounts; (try dsimp only) <;> (try (repeat' split) <;> first | exact hs | (simp (maxDischargeDepth := 40) [*]; done) | (simp +contextual (maxDischargeDepth := 40) [*]; done))
@[simp] theorem judgeApplied_cap (sender : Station) (e : EventRecord) (s : State) (hs : CapacityInv s) : CapacityInv (judgeApplied sender e s) := by
  unfold judgeApplied; dsimp only
  split
  · simp [hs]
  split
  · simp [hs]
  · have h1 : CapacityInv (checkApplied s) := by simp [hs]
    apply evidCounts_cap
    rw [withEvid_cap h1]
    exact judge_cap h1.applied _

@[simp] theorem applyEvent_cap (sender : Station) (e : EventRecord) (s : State) (hs : CapacityInv s) : CapacityInv (applyEvent sender e s) := by
  unfold applyEvent; (try dsimp only) <;> (try (repeat' split) <;> first | exact hs | (simp (maxDischargeDepth := 40) [*]; done) | (simp +contextual (maxDischargeDepth := 40) [*]; done))
@[simp] theorem foldOne_cap (closed : Option CycleNo) (n : Nat) (s : State) (hs : CapacityInv s) : CapacityInv (foldOne closed n s) := by
  unfold foldOne; (try dsimp only) <;> (try (repeat' split) <;> first | exact hs | (simp (maxDischargeDepth := 40) [*]; done) | (simp +contextual (maxDischargeDepth := 40) [*]; done))
@[simp] theorem foldSegment_cap (closed : Option CycleNo) (n : Nat) (s : State) (hs : CapacityInv s) : CapacityInv (foldSegment closed n s) := by
  unfold foldSegment; (try dsimp only) <;> (try (repeat' split) <;> first | exact hs | (simp (maxDischargeDepth := 40) [*]; done) | (simp +contextual (maxDischargeDepth := 40) [*]; done))
@[simp] theorem foldSegments_cap (cl : Option CycleNo) (l : List Nat) (s : State) (hs : CapacityInv s) : CapacityInv (foldSegments cl l s) := by
  induction l generalizing s with
  | nil => exact hs
  | cons a l ih => unfold foldSegments; simp +contextual (maxDischargeDepth := 40) [*]
@[simp] theorem noticeChange_cap (cycle : Option CycleNo) (cause : SegCause) (n : Nat) (old new : SegmentRecord) (s : State) (hs : CapacityInv s) : CapacityInv (noticeChange cycle cause n old new s) := by
  unfold noticeChange; (try dsimp only) <;> (try (repeat' split) <;> first | exact hs | (simp (maxDischargeDepth := 40) [*]; done) | (simp +contextual (maxDischargeDepth := 40) [*]; done))
@[simp] theorem raiseChanges_cap (cycle : Option CycleNo) (cause : SegCause) (old new : List SegmentRecord) (s : State) (hs : CapacityInv s) : CapacityInv (raiseChanges cycle cause old new s) := by
  unfold raiseChanges; (try dsimp only) <;> (try (repeat' split) <;> first | exact hs | (simp (maxDischargeDepth := 40) [*]; done) | (simp +contextual (maxDischargeDepth := 40) [*]; done))
@[simp] theorem setOutputs_cap (s : State) (hs : CapacityInv s) : CapacityInv (setOutputs s) := by
  unfold setOutputs; (try dsimp only) <;> (try (repeat' split) <;> first | exact hs | (simp (maxDischargeDepth := 40) [*]; done) | (simp +contextual (maxDischargeDepth := 40) [*]; done))
@[simp] theorem deriveOutputs_cap (s : State) (hs : CapacityInv s) : CapacityInv (deriveOutputs s) := by
  unfold deriveOutputs; (try dsimp only) <;> (try (repeat' split) <;> first | exact hs | (simp (maxDischargeDepth := 40) [*]; done) | (simp +contextual (maxDischargeDepth := 40) [*]; done))
@[simp] theorem deriveUnlessHeld_cap (s : State) (hs : CapacityInv s) : CapacityInv (deriveUnlessHeld s) := by
  unfold deriveUnlessHeld; (try dsimp only) <;> (try (repeat' split) <;> first | exact hs | (simp (maxDischargeDepth := 40) [*]; done) | (simp +contextual (maxDischargeDepth := 40) [*]; done))
@[simp] theorem standingChanged_cap (s : State) (hs : CapacityInv s) : CapacityInv (standingChanged s) := by
  unfold standingChanged; (try dsimp only) <;> (try (repeat' split) <;> first | exact hs | (simp (maxDischargeDepth := 40) [*]; done) | (simp +contextual (maxDischargeDepth := 40) [*]; done))
@[simp] theorem emptyApplied_cap (s : State) (hs : CapacityInv s) : CapacityInv (emptyApplied s) := by
  unfold emptyApplied; (try dsimp only) <;> (try (repeat' split) <;> first | exact hs | (simp (maxDischargeDepth := 40) [*]; done) | (simp +contextual (maxDischargeDepth := 40) [*]; done))
@[simp] theorem raiseAge_cap (s : State) (hs : CapacityInv s) : CapacityInv (raiseAge s) := by
  unfold raiseAge; (try dsimp only) <;> (try (repeat' split) <;> first | exact hs | (simp (maxDischargeDepth := 40) [*]; done) | (simp +contextual (maxDischargeDepth := 40) [*]; done))
@[simp] theorem afterFold_cap (closed : Option CycleNo) (old : List SegmentRecord) (s : State) (hs : CapacityInv s) : CapacityInv (afterFold closed old s) := by
  unfold afterFold; (try dsimp only) <;> (try (repeat' split) <;> first | exact hs | (simp (maxDischargeDepth := 40) [*]; done) | (simp +contextual (maxDischargeDepth := 40) [*]; done))
@[simp] theorem foldTable_cap (closed : Option CycleNo) (s : State) (hs : CapacityInv s) : CapacityInv (foldTable closed s) := by
  unfold foldTable; (try dsimp only) <;> (try (repeat' split) <;> first | exact hs | (simp (maxDischargeDepth := 40) [*]; done) | (simp +contextual (maxDischargeDepth := 40) [*]; done))
@[simp] theorem evidenceClose_cap (closed : Option CycleNo) (kind : CloseKind) (s : State) (hs : CapacityInv s) : CapacityInv (evidenceClose closed kind s) := by
  unfold evidenceClose; (try dsimp only) <;> (try (repeat' split) <;> first | exact hs | (simp (maxDischargeDepth := 40) [*]; done) | (simp +contextual (maxDischargeDepth := 40) [*]; done))
@[simp] theorem controlOne_cap (c : Control) (n : Nat) (s : State) (hs : CapacityInv s) : CapacityInv (controlOne c n s) := by
  unfold controlOne; (try dsimp only) <;> (try (repeat' split) <;> first | exact hs | (simp (maxDischargeDepth := 40) [*]; done) | (simp +contextual (maxDischargeDepth := 40) [*]; done))
@[simp] theorem controlSegments_cap (c : Control) (l : List Nat) (s : State) (hs : CapacityInv s) : CapacityInv (controlSegments c l s) := by
  induction l generalizing s with
  | nil => exact hs
  | cons a l ih => unfold controlSegments; simp +contextual (maxDischargeDepth := 40) [*]
@[simp] theorem afterControl_cap (cause : SegCause) (old : List SegmentRecord) (s : State) (hs : CapacityInv s) : CapacityInv (afterControl cause old s) := by
  unfold afterControl; (try dsimp only) <;> (try (repeat' split) <;> first | exact hs | (simp (maxDischargeDepth := 40) [*]; done) | (simp +contextual (maxDischargeDepth := 40) [*]; done))
@[simp] theorem applyControl_cap (c : Control) (s : State) (hs : CapacityInv s) : CapacityInv (applyControl c s) := by
  unfold applyControl; (try dsimp only) <;> (try (repeat' split) <;> first | exact hs | (simp (maxDischargeDepth := 40) [*]; done) | (simp +contextual (maxDischargeDepth := 40) [*]; done))
@[simp] theorem agreeCounts_cap (f : AgreementCounts → AgreementCounts) (s : State) (hs : CapacityInv s) : CapacityInv (agreeCounts f s) := by
  unfold agreeCounts; (try dsimp only) <;> (try (repeat' split) <;> first | exact hs | (simp (maxDischargeDepth := 40) [*]; done) | (simp +contextual (maxDischargeDepth := 40) [*]; done))
@[simp] theorem setTransfer_cap (t : Transfer) (s : State) (hs : CapacityInv s) : CapacityInv (setTransfer t s) := by
  unfold setTransfer; (try dsimp only) <;> (try (repeat' split) <;> first | exact hs | (simp (maxDischargeDepth := 40) [*]; done) | (simp +contextual (maxDischargeDepth := 40) [*]; done))
@[simp] theorem abandonTransfer_cap (cause : AbandonCause) (s : State) (hs : CapacityInv s) : CapacityInv (abandonTransfer cause s) := by
  unfold abandonTransfer; (try dsimp only) <;> (try (repeat' split) <;> first | exact hs | (simp (maxDischargeDepth := 40) [*]; done) | (simp +contextual (maxDischargeDepth := 40) [*]; done))
@[simp] theorem donorGone_cap (st : Station) (s : State) (hs : CapacityInv s) : CapacityInv (donorGone st s) := by
  unfold donorGone; (try dsimp only) <;> (try (repeat' split) <;> first | exact hs | (simp (maxDischargeDepth := 40) [*]; done) | (simp +contextual (maxDischargeDepth := 40) [*]; done))
@[simp] theorem abortTransfer_cap (s : State) (hs : CapacityInv s) : CapacityInv (abortTransfer s) := by
  unfold abortTransfer; (try dsimp only) <;> (try (repeat' split) <;> first | exact hs | (simp (maxDischargeDepth := 40) [*]; done) | (simp +contextual (maxDischargeDepth := 40) [*]; done))
@[simp] theorem rowTaken_cap (row : RowFrame) (ref : Nat) (s : State) (hs : CapacityInv s) : CapacityInv (rowTaken row ref s) := by
  unfold rowTaken; (try dsimp only) <;> (try (repeat' split) <;> first | exact hs | (simp (maxDischargeDepth := 40) [*]; done) | (simp +contextual (maxDischargeDepth := 40) [*]; done))
@[simp] theorem requestRow_cap (row : RowFrame) (s : State) (hs : CapacityInv s) : CapacityInv (requestRow row s) := by
  unfold requestRow; (try dsimp only) <;> (try (repeat' split) <;> first | exact hs | (simp (maxDischargeDepth := 40) [*]; done) | (simp +contextual (maxDischargeDepth := 40) [*]; done))
@[simp] theorem makeRow_cap (row : RowFrame) (s : State) (hs : CapacityInv s) : CapacityInv (makeRow row s) := by
  unfold makeRow; (try dsimp only) <;> (try (repeat' split) <;> first | exact hs | (simp (maxDischargeDepth := 40) [*]; done) | (simp +contextual (maxDischargeDepth := 40) [*]; done))
@[simp] theorem sendRow_cap (first : Nat) (s : State) (hs : CapacityInv s) : CapacityInv (sendRow first s) := by
  unfold sendRow; (try dsimp only) <;> (try (repeat' split) <;> first | exact hs | (simp (maxDischargeDepth := 40) [*]; done) | (simp +contextual (maxDischargeDepth := 40) [*]; done))
@[simp] theorem rowOutcome_cap (ref : Nat) (wasSent : Bool) (s : State) (hs : CapacityInv s) : CapacityInv (rowOutcome ref wasSent s) := by
  unfold rowOutcome; (try dsimp only) <;> (try (repeat' split) <;> first | exact hs | (simp (maxDischargeDepth := 40) [*]; done) | (simp +contextual (maxDischargeDepth := 40) [*]; done))
@[simp] theorem digestNotSent_cap (s : State) (hs : CapacityInv s) : CapacityInv (digestNotSent s) := by
  unfold digestNotSent; (try dsimp only) <;> (try (repeat' split) <;> first | exact hs | (simp (maxDischargeDepth := 40) [*]; done) | (simp +contextual (maxDischargeDepth := 40) [*]; done))
@[simp] theorem stopSending_cap (s : State) (hs : CapacityInv s) : CapacityInv (stopSending s) := by
  unfold stopSending; (try dsimp only) <;> (try (repeat' split) <;> first | exact hs | (simp (maxDischargeDepth := 40) [*]; done) | (simp +contextual (maxDischargeDepth := 40) [*]; done))
@[simp] theorem storeSnapshot_cap (closed : Option CycleNo) (s : State) (hs : CapacityInv s) : CapacityInv (storeSnapshot closed s) := by
  unfold storeSnapshot; (try dsimp only) <;> (try (repeat' split) <;> first | exact hs | (simp (maxDischargeDepth := 40) [*]; done) | (simp +contextual (maxDischargeDepth := 40) [*]; done))
@[simp] theorem requestDigest_cap (snap : Snapshot) (digest : BitVec 32) (s : State) (hs : CapacityInv s) : CapacityInv (requestDigest snap digest s) := by
  unfold requestDigest; (try dsimp only) <;> (try (repeat' split) <;> first | exact hs | (simp (maxDischargeDepth := 40) [*]; done) | (simp +contextual (maxDischargeDepth := 40) [*]; done))
@[simp] theorem digestSnapshot_cap (snap : Snapshot) (s : State) (hs : CapacityInv s) : CapacityInv (digestSnapshot snap s) := by
  unfold digestSnapshot; (try dsimp only) <;> (try (repeat' split) <;> first | exact hs | (simp (maxDischargeDepth := 40) [*]; done) | (simp +contextual (maxDischargeDepth := 40) [*]; done))
@[simp] theorem startDigestWindow_cap (s : State) (hs : CapacityInv s) : CapacityInv (startDigestWindow s) := by
  unfold startDigestWindow; (try dsimp only) <;> (try (repeat' split) <;> first | exact hs | (simp (maxDischargeDepth := 40) [*]; done) | (simp +contextual (maxDischargeDepth := 40) [*]; done))
@[simp] theorem takeSnapshot_cap (closed : Option CycleNo) (s : State) (hs : CapacityInv s) : CapacityInv (takeSnapshot closed s) := by
  unfold takeSnapshot; (try dsimp only) <;> (try (repeat' split) <;> first | exact hs | (simp (maxDischargeDepth := 40) [*]; done) | (simp +contextual (maxDischargeDepth := 40) [*]; done))
@[simp] theorem copyTable_cap (closed : Option CycleNo) (s : State) (hs : CapacityInv s) : CapacityInv (copyTable closed s) := by
  unfold copyTable; (try dsimp only) <;> (try (repeat' split) <;> first | exact hs | (simp (maxDischargeDepth := 40) [*]; done) | (simp +contextual (maxDischargeDepth := 40) [*]; done))
@[simp] theorem agreementClose_cap (closed : Option CycleNo) (s : State) (hs : CapacityInv s) : CapacityInv (agreementClose closed s) := by
  unfold agreementClose; (try dsimp only) <;> (try (repeat' split) <;> first | exact hs | (simp (maxDischargeDepth := 40) [*]; done) | (simp +contextual (maxDischargeDepth := 40) [*]; done))
@[simp] theorem setStanding_cap (v : Standing) (s : State) (hs : CapacityInv s) : CapacityInv (setStanding v s) := by
  unfold setStanding; (try dsimp only) <;> (try (repeat' split) <;> first | exact hs | (simp (maxDischargeDepth := 40) [*]; done) | (simp +contextual (maxDischargeDepth := 40) [*]; done))
@[simp] theorem decideAs_cap (v : Standing) (s : State) (hs : CapacityInv s) : CapacityInv (decideAs v s) :=
  setStanding_cap v _ hs
@[simp] theorem enterAwaiting_cap (donor : Station) (cycle : Option CycleNo) (v : BitVec 32) (s : State) (hs : CapacityInv s) : CapacityInv (enterAwaiting donor cycle v s) := by
  unfold enterAwaiting; (try dsimp only) <;> (try (repeat' split) <;> first | exact hs | (simp (maxDischargeDepth := 40) [*]; done) | (simp +contextual (maxDischargeDepth := 40) [*]; done))
@[simp] theorem actOnStanding_cap (own : Station) (standing : Standing) (cycle : Option CycleNo) (verdict : Option (BitVec 32 × Station)) (senders : List DigestSender) (s : State) (hs : CapacityInv s) : CapacityInv (actOnStanding own standing cycle verdict senders s) := by
  unfold actOnStanding; (try dsimp only) <;> (try (repeat' split) <;> first | exact hs | (simp (maxDischargeDepth := 40) [*]; done) | (simp +contextual (maxDischargeDepth := 40) [*]; done))
@[simp] theorem decideStanding_cap (own : Station) (snap : Snapshot) (digest : BitVec 32) (senders : List DigestSender) (s : State) (hs : CapacityInv s) : CapacityInv (decideStanding own snap digest senders s) := by
  unfold decideStanding; (try dsimp only) <;> (try (repeat' split) <;> first | exact hs | (simp (maxDischargeDepth := 40) [*]; done) | (simp +contextual (maxDischargeDepth := 40) [*]; done))
@[simp] theorem decideAdoption_cap (m : CycleNo) (senders : List DigestSender) (s : State) (hs : CapacityInv s) : CapacityInv (decideAdoption m senders s) := by
  unfold decideAdoption; (try dsimp only) <;> (try (repeat' split) <;> first | exact hs | (simp (maxDischargeDepth := 40) [*]; done) | (simp +contextual (maxDischargeDepth := 40) [*]; done))
@[simp] theorem decide__cap (s : State) (hs : CapacityInv s) : CapacityInv (decide_ s) := by
  unfold decide_; (try dsimp only) <;> (try (repeat' split) <;> first | exact hs | (simp (maxDischargeDepth := 40) [*]; done) | (simp +contextual (maxDischargeDepth := 40) [*]; done))
@[simp] theorem carryControl_cap (c : Control) (s : State) (hs : CapacityInv s) : CapacityInv (carryControl c s) := by
  unfold carryControl
  split
  · exact hs
  split
  · simp [hs]; omega
  · simp [hs]
@[simp] theorem malformedControl_cap (s : State) (hs : CapacityInv s) : CapacityInv (malformedControl s) := by
  unfold malformedControl; (try dsimp only) <;> (try (repeat' split) <;> first | exact hs | (simp (maxDischargeDepth := 40) [*]; done) | (simp +contextual (maxDischargeDepth := 40) [*]; done))
@[simp] theorem takeControl_cap (c : Control) (s : State) (hs : CapacityInv s) : CapacityInv (takeControl c s) := by
  unfold takeControl; (try dsimp only) <;> (try (repeat' split) <;> first | exact hs | (simp (maxDischargeDepth := 40) [*]; done) | (simp +contextual (maxDischargeDepth := 40) [*]; done))
@[simp] theorem controlFrame_cap (sender : Station) (p : List Byte) (s : State) (hs : CapacityInv s) : CapacityInv (controlFrame sender p s) := by
  unfold controlFrame; (try dsimp only) <;> (try (repeat' split) <;> first | exact hs | (simp (maxDischargeDepth := 40) [*]; done) | (simp +contextual (maxDischargeDepth := 40) [*]; done))
@[simp] theorem reapplyControls_cap (l : List Control) (s : State) (hs : CapacityInv s) : CapacityInv (reapplyControls l s) := by
  induction l generalizing s with
  | nil => exact hs
  | cons a l ih => unfold reapplyControls; simp +contextual (maxDischargeDepth := 40) [*]
@[simp] theorem replaceTable_cap (records : List SegmentRecord) (age : Nat) (s : State) (hs : CapacityInv s) : CapacityInv (replaceTable records age s) := by
  unfold replaceTable; (try dsimp only) <;> (try (repeat' split) <;> first | exact hs | (simp (maxDischargeDepth := 40) [*]; done) | (simp +contextual (maxDischargeDepth := 40) [*]; done))
@[simp] theorem endTransfer_cap (donor : Station) (s : State) (hs : CapacityInv s) : CapacityInv (endTransfer donor s) := by
  unfold endTransfer; (try dsimp only) <;> (try (repeat' split) <;> first | exact hs | (simp (maxDischargeDepth := 40) [*]; done) | (simp +contextual (maxDischargeDepth := 40) [*]; done))
@[simp] theorem completeTransfer_cap (donor : Station) (row : RowFrame) (buffer : List SegmentRecord) (s : State) (hs : CapacityInv s) : CapacityInv (completeTransfer donor row buffer s) := by
  unfold completeTransfer; (try dsimp only) <;> (try (repeat' split) <;> first | exact hs | (simp (maxDischargeDepth := 40) [*]; done) | (simp +contextual (maxDischargeDepth := 40) [*]; done))
@[simp] theorem ignoreRow_cap (s : State) (hs : CapacityInv s) : CapacityInv (ignoreRow s) := by
  unfold ignoreRow; (try dsimp only) <;> (try (repeat' split) <;> first | exact hs | (simp (maxDischargeDepth := 40) [*]; done) | (simp +contextual (maxDischargeDepth := 40) [*]; done))
@[simp] theorem takeRow_cap (donor : Station) (cycle : Option CycleNo) (digest : BitVec 32) (nextFirst : Nat) (buffer : List SegmentRecord) (row : RowFrame) (s : State) (hs : CapacityInv s) : CapacityInv (takeRow donor cycle digest nextFirst buffer row s) := by
  unfold takeRow; (try dsimp only) <;> (try (repeat' split) <;> first | exact hs | (simp (maxDischargeDepth := 40) [*]; done) | (simp +contextual (maxDischargeDepth := 40) [*]; done))
@[simp] theorem rowFrame_cap (sender : Station) (own : Bool) (p : List Byte) (s : State) (hs : CapacityInv s) : CapacityInv (rowFrame sender own p s) := by
  unfold rowFrame; (try dsimp only) <;> (try (repeat' split) <;> first | exact hs | (simp (maxDischargeDepth := 40) [*]; done) | (simp +contextual (maxDischargeDepth := 40) [*]; done))
@[simp] theorem laneNotice_cap (l : Lane) (e : LaneEvent) (s : State) (hs : CapacityInv s) : CapacityInv (laneNotice l e s) := by
  unfold laneNotice; (try dsimp only) <;> (try (repeat' split) <;> first | exact hs | (simp (maxDischargeDepth := 40) [*]; done) | (simp +contextual (maxDischargeDepth := 40) [*]; done))
@[simp] theorem setRun_cap (l : Lane) (run : Nat) (s : State) (hs : CapacityInv s) : CapacityInv (setRun l run s) := by
  unfold setRun; (try dsimp only) <;> (try (repeat' split) <;> first | exact hs | (simp (maxDischargeDepth := 40) [*]; done) | (simp +contextual (maxDischargeDepth := 40) [*]; done))
@[simp] theorem laneFailed_cap (l : Lane) (s : State) (hs : CapacityInv s) : CapacityInv (laneFailed l s) := by
  unfold laneFailed; (try dsimp only) <;> (try (repeat' split) <;> first | exact hs | (simp (maxDischargeDepth := 40) [*]; done) | (simp +contextual (maxDischargeDepth := 40) [*]; done))
@[simp] theorem laneSent_cap (l : Lane) (s : State) (hs : CapacityInv s) : CapacityInv (laneSent l s) := by
  unfold laneSent; (try dsimp only) <;> (try (repeat' split) <;> first | exact hs | (simp (maxDischargeDepth := 40) [*]; done) | (simp +contextual (maxDischargeDepth := 40) [*]; done))
@[simp] theorem logoutOutcome_cap (wasSent : Bool) (s : State) (hs : CapacityInv s) : CapacityInv (logoutOutcome wasSent s) := by
  unfold logoutOutcome; (try dsimp only) <;> (try (repeat' split) <;> first | exact hs | (simp (maxDischargeDepth := 40) [*]; done) | (simp +contextual (maxDischargeDepth := 40) [*]; done))
@[simp] theorem raiseResult_cap (delivered : Bool) (c : Control) (cause : Option FailCause) (retries : Nat) (s : State) (hs : CapacityInv s) : CapacityInv (raiseResult delivered c cause retries s) := by
  unfold raiseResult; (try dsimp only) <;> (try (repeat' split) <;> first | exact hs | (simp (maxDischargeDepth := 40) [*]; done) | (simp +contextual (maxDischargeDepth := 40) [*]; done))
@[simp] theorem controlResult_cap (delivered : Bool) (c : Control) (cause : Option FailCause) (retries : Nat) (s : State) (hs : CapacityInv s) : CapacityInv (controlResult delivered c cause retries s) := by
  unfold controlResult; (try dsimp only) <;> (try (repeat' split) <;> first | exact hs | (simp (maxDischargeDepth := 40) [*]; done) | (simp +contextual (maxDischargeDepth := 40) [*]; done))
@[simp] theorem controlOutcome_cap (ref : Nat) (wasSent : Bool) (cause : Option FailCause) (retries : Nat) (s : State) (hs : CapacityInv s) : CapacityInv (controlOutcome ref wasSent cause retries s) := by
  unfold controlOutcome; (try dsimp only) <;> (try (repeat' split) <;> first | exact hs | (simp (maxDischargeDepth := 40) [*]; done) | (simp +contextual (maxDischargeDepth := 40) [*]; done))
@[simp] theorem pulseOutcome_cap (ref : Nat) (wasSent : Bool) (stamp : Tag) (s : State) (hs : CapacityInv s) : CapacityInv (pulseOutcome ref wasSent stamp s) := by
  unfold pulseOutcome; (try dsimp only) <;> (try (repeat' split) <;> first | exact hs | (simp (maxDischargeDepth := 40) [*]; done) | (simp +contextual (maxDischargeDepth := 40) [*]; done))
@[simp] theorem digestOutcome_cap (wasSent : Bool) (s : State) (hs : CapacityInv s) : CapacityInv (digestOutcome wasSent s) := by
  unfold digestOutcome; (try dsimp only) <;> (try (repeat' split) <;> first | exact hs | (simp (maxDischargeDepth := 40) [*]; done) | (simp +contextual (maxDischargeDepth := 40) [*]; done))
@[simp] theorem reportOutcome_cap (c : CurrentFrame) (wasSent : Bool) (stamp : Tag) (s : State) (hs : CapacityInv s) : CapacityInv (reportOutcome c wasSent stamp s) := by
  unfold reportOutcome; (try dsimp only) <;> (try (repeat' split) <;> first | exact hs | (simp (maxDischargeDepth := 40) [*]; done) | (simp +contextual (maxDischargeDepth := 40) [*]; done))
@[simp] theorem restartPresence_cap (s : State) (hs : CapacityInv s) : CapacityInv (restartPresence s) := by
  unfold restartPresence; (try dsimp only) <;> (try (repeat' split) <;> first | exact hs | (simp (maxDischargeDepth := 40) [*]; done) | (simp +contextual (maxDischargeDepth := 40) [*]; done))
@[simp] theorem removeCurrent_cap (c : CurrentFrame) (wasSent : Bool) (s : State) (hs : CapacityInv s) : CapacityInv (removeCurrent c wasSent s) := by
  unfold removeCurrent; (try dsimp only) <;> (try (repeat' split) <;> first | exact hs | (simp (maxDischargeDepth := 40) [*]; done) | (simp +contextual (maxDischargeDepth := 40) [*]; done))
@[simp] theorem tellOutcome_cap (c : CurrentFrame) (wasSent : Bool) (stamp : Tag) (s : State) (hs : CapacityInv s) : CapacityInv (tellOutcome c wasSent stamp s) := by
  unfold tellOutcome; (try dsimp only) <;> (try (repeat' split) <;> first | exact hs | (simp (maxDischargeDepth := 40) [*]; done) | (simp +contextual (maxDischargeDepth := 40) [*]; done))
@[simp] theorem tellSent_cap (c : CurrentFrame) (stamp : Tag) (s : State) (hs : CapacityInv s) : CapacityInv (tellSent c stamp s) := by
  unfold tellSent; (try dsimp only) <;> (try (repeat' split) <;> first | exact hs | (simp (maxDischargeDepth := 40) [*]; done) | (simp +contextual (maxDischargeDepth := 40) [*]; done))
@[simp] theorem endSent_cap (c : CurrentFrame) (stamp : Tag) (s : State) (hs : CapacityInv s) : CapacityInv (endSent c stamp s) := by
  unfold endSent; (try dsimp only) <;> (try (repeat' split) <;> first | exact hs | (simp (maxDischargeDepth := 40) [*]; done) | (simp +contextual (maxDischargeDepth := 40) [*]; done))
@[simp] theorem endDropped_cap (c : CurrentFrame) (cause : FailCause) (s : State) (hs : CapacityInv s) : CapacityInv (endDropped c cause s) := by
  unfold endDropped; (try dsimp only) <;> (try (repeat' split) <;> first | exact hs | (simp (maxDischargeDepth := 40) [*]; done) | (simp +contextual (maxDischargeDepth := 40) [*]; done))
@[simp] theorem beginRetry_cap (c : CurrentFrame) (cause : FailCause) (s : State) (hs : CapacityInv s) : CapacityInv (beginRetry c cause s) := by
  unfold beginRetry; (try dsimp only) <;> (try (repeat' split) <;> first | exact hs | (simp (maxDischargeDepth := 40) [*]; done) | (simp +contextual (maxDischargeDepth := 40) [*]; done))
@[simp] theorem retryOrDrop_cap (c : CurrentFrame) (cause : FailCause) (s : State) (hs : CapacityInv s) : CapacityInv (retryOrDrop c cause s) := by
  unfold retryOrDrop; (try dsimp only) <;> (try (repeat' split) <;> first | exact hs | (simp (maxDischargeDepth := 40) [*]; done) | (simp +contextual (maxDischargeDepth := 40) [*]; done))
@[simp] theorem attemptFailed_cap (c : CurrentFrame) (cause : FailCause) (s : State) (hs : CapacityInv s) : CapacityInv (attemptFailed c cause s) := by
  unfold attemptFailed; (try dsimp only) <;> (try (repeat' split) <;> first | exact hs | (simp (maxDischargeDepth := 40) [*]; done) | (simp +contextual (maxDischargeDepth := 40) [*]; done))
@[simp] theorem attemptSucceeded_cap (c : CurrentFrame) (stamp : Tag) (s : State) (hs : CapacityInv s) : CapacityInv (attemptSucceeded c stamp s) := by
  unfold attemptSucceeded; (try dsimp only) <;> (try (repeat' split) <;> first | exact hs | (simp (maxDischargeDepth := 40) [*]; done) | (simp +contextual (maxDischargeDepth := 40) [*]; done))
@[simp] theorem breakFrame_cap (l : Lane) (idleFrom : Nat) (s : State) (hs : CapacityInv s) : CapacityInv (breakFrame l idleFrom s) := by
  unfold breakFrame; (try dsimp only) <;> (try (repeat' split) <;> first | exact hs | (simp (maxDischargeDepth := 40) [*]; done) | (simp +contextual (maxDischargeDepth := 40) [*]; done))
@[simp] theorem startFrame_cap (l : Lane) (s : State) (hs : CapacityInv s) : CapacityInv (startFrame l s) := by
  unfold startFrame; (try dsimp only) <;> (try (repeat' split) <;> first | exact hs | (simp (maxDischargeDepth := 40) [*]; done) | (simp +contextual (maxDischargeDepth := 40) [*]; done))
@[simp] theorem completeFrame_cap (l : Lane) (f : RxFrame) (s : State) (hs : CapacityInv s) : CapacityInv (completeFrame l f s) := by
  unfold completeFrame; (try dsimp only) <;> (try (repeat' split) <;> first | exact hs | (simp (maxDischargeDepth := 40) [*]; done) | (simp +contextual (maxDischargeDepth := 40) [*]; done))
@[simp] theorem unmarkEcho_cap (l : Lane) (s : State) (hs : CapacityInv s) : CapacityInv (unmarkEcho l s) := by
  unfold unmarkEcho; (try dsimp only) <;> (try (repeat' split) <;> first | exact hs | (simp (maxDischargeDepth := 40) [*]; done) | (simp +contextual (maxDischargeDepth := 40) [*]; done))
@[simp] theorem echoFailed_cap (c : CurrentFrame) (cause : FailCause) (s : State) (hs : CapacityInv s) : CapacityInv (echoFailed c cause s) := by
  unfold echoFailed; (try dsimp only) <;> (try (repeat' split) <;> first | exact hs | (simp (maxDischargeDepth := 40) [*]; done) | (simp +contextual (maxDischargeDepth := 40) [*]; done))
@[simp] theorem hearBytes_cap (rest : RestingLane) (s : State) (hs : CapacityInv s) : CapacityInv (hearBytes rest s) := by
  unfold hearBytes; (try dsimp only) <;> (try (repeat' split) <;> first | exact hs | (simp (maxDischargeDepth := 40) [*]; done) | (simp +contextual (maxDischargeDepth := 40) [*]; done))
@[simp] theorem beginTransmit_cap (c : CurrentFrame) (s : State) (hs : CapacityInv s) : CapacityInv (beginTransmit c s) := by
  unfold beginTransmit; (try dsimp only) <;> (try (repeat' split) <;> first | exact hs | (simp (maxDischargeDepth := 40) [*]; done) | (simp +contextual (maxDischargeDepth := 40) [*]; done))
@[simp] theorem strayEdge_cap (s : State) (hs : CapacityInv s) : CapacityInv (strayEdge s) := by
  unfold strayEdge; (try dsimp only) <;> (try (repeat' split) <;> first | exact hs | (simp (maxDischargeDepth := 40) [*]; done) | (simp +contextual (maxDischargeDepth := 40) [*]; done))
@[simp] theorem enterPhase_cap (p : Phase) (s : State) (hs : CapacityInv s) : CapacityInv (enterPhase p s) := by
  unfold enterPhase; (try dsimp only) <;> (try (repeat' split) <;> first | exact hs | (simp (maxDischargeDepth := 40) [*]; done) | (simp +contextual (maxDischargeDepth := 40) [*]; done))
@[simp] theorem beginCycle_cap (s : State) (hs : CapacityInv s) : CapacityInv (beginCycle s) := by
  unfold beginCycle; (try dsimp only) <;> (try (repeat' split) <;> first | exact hs | (simp (maxDischargeDepth := 40) [*]; done) | (simp +contextual (maxDischargeDepth := 40) [*]; done))
@[simp] theorem cutHitFrame_cap (s : State) (hs : CapacityInv s) : CapacityInv (cutHitFrame s) := by
  unfold cutHitFrame; (try dsimp only) <;> (try (repeat' split) <;> first | exact hs | (simp (maxDischargeDepth := 40) [*]; done) | (simp +contextual (maxDischargeDepth := 40) [*]; done))
@[simp] theorem cycleFlagNotice_cap (t : Tracker) (cause : CloseCause) (s : State) (hs : CapacityInv s) : CapacityInv (cycleFlagNotice t cause s) := by
  unfold cycleFlagNotice; (try dsimp only) <;> (try (repeat' split) <;> first | exact hs | (simp (maxDischargeDepth := 40) [*]; done) | (simp +contextual (maxDischargeDepth := 40) [*]; done))
@[simp] theorem closeHits_cap (s : State) (hs : CapacityInv s) : CapacityInv (closeHits s) := by
  unfold closeHits; (try dsimp only) <;> (try (repeat' split) <;> first | exact hs | (simp (maxDischargeDepth := 40) [*]; done) | (simp +contextual (maxDischargeDepth := 40) [*]; done))
@[simp] theorem closeTables_cap (closed : Option CycleNo) (kind : CloseKind) (s : State) (hs : CapacityInv s) : CapacityInv (closeTables closed kind s) := by
  unfold closeTables; (try dsimp only) <;> (try (repeat' split) <;> first | exact hs | (simp (maxDischargeDepth := 40) [*]; done) | (simp +contextual (maxDischargeDepth := 40) [*]; done))
@[simp] theorem closeCycle_cap (cause : CloseCause) (s : State) (hs : CapacityInv s) : CapacityInv (closeCycle cause s) := by
  unfold closeCycle; (try dsimp only) <;> (try (repeat' split) <;> first | exact hs | (simp (maxDischargeDepth := 40) [*]; done) | (simp +contextual (maxDischargeDepth := 40) [*]; done))
@[simp] theorem earlyClose_cap (s : State) (hs : CapacityInv s) : CapacityInv (earlyClose s) := by
  unfold earlyClose; (try dsimp only) <;> (try (repeat' split) <;> first | exact hs | (simp (maxDischargeDepth := 40) [*]; done) | (simp +contextual (maxDischargeDepth := 40) [*]; done))
@[simp] theorem countCycle_cap (s : State) (hs : CapacityInv s) : CapacityInv (countCycle s) := by
  unfold countCycle; (try dsimp only) <;> (try (repeat' split) <;> first | exact hs | (simp (maxDischargeDepth := 40) [*]; done) | (simp +contextual (maxDischargeDepth := 40) [*]; done))
@[simp] theorem startCycle_cap (s : State) (hs : CapacityInv s) : CapacityInv (startCycle s) := by
  unfold startCycle; (try dsimp only) <;> (try (repeat' split) <;> first | exact hs | (simp (maxDischargeDepth := 40) [*]; done) | (simp +contextual (maxDischargeDepth := 40) [*]; done))
@[simp] theorem cycEdge_cap (s : State) (hs : CapacityInv s) : CapacityInv (cycEdge s) := by
  unfold cycEdge; (try dsimp only) <;> (try (repeat' split) <;> first | exact hs | (simp (maxDischargeDepth := 40) [*]; done) | (simp +contextual (maxDischargeDepth := 40) [*]; done))
@[simp] theorem setSettle_cap (s : State) (hs : CapacityInv s) : CapacityInv (setSettle s) := by
  unfold setSettle; (try dsimp only) <;> (try (repeat' split) <;> first | exact hs | (simp (maxDischargeDepth := 40) [*]; done) | (simp +contextual (maxDischargeDepth := 40) [*]; done))
@[simp] theorem startSettle_cap (s : State) (hs : CapacityInv s) : CapacityInv (startSettle s) := by
  unfold startSettle; (try dsimp only) <;> (try (repeat' split) <;> first | exact hs | (simp (maxDischargeDepth := 40) [*]; done) | (simp +contextual (maxDischargeDepth := 40) [*]; done))
@[simp] theorem enterReturn_cap (s : State) (hs : CapacityInv s) : CapacityInv (enterReturn s) := by
  unfold enterReturn; (try dsimp only) <;> (try (repeat' split) <;> first | exact hs | (simp (maxDischargeDepth := 40) [*]; done) | (simp +contextual (maxDischargeDepth := 40) [*]; done))
@[simp] theorem flagDisordered_cap (s : State) (hs : CapacityInv s) : CapacityInv (flagDisordered s) := by
  unfold flagDisordered; (try dsimp only) <;> (try (repeat' split) <;> first | exact hs | (simp (maxDischargeDepth := 40) [*]; done) | (simp +contextual (maxDischargeDepth := 40) [*]; done))
@[simp] theorem disorderly_cap (s : State) (hs : CapacityInv s) : CapacityInv (disorderly s) := by
  unfold disorderly; (try dsimp only) <;> (try (repeat' split) <;> first | exact hs | (simp (maxDischargeDepth := 40) [*]; done) | (simp +contextual (maxDischargeDepth := 40) [*]; done))
@[simp] theorem goIdle_cap (s : State) (hs : CapacityInv s) : CapacityInv (goIdle s) := by
  unfold goIdle; (try dsimp only) <;> (try (repeat' split) <;> first | exact hs | (simp (maxDischargeDepth := 40) [*]; done) | (simp +contextual (maxDischargeDepth := 40) [*]; done))
@[simp] theorem idleIfExpired_cap (s : State) (hs : CapacityInv s) : CapacityInv (idleIfExpired s) := by
  unfold idleIfExpired; (try dsimp only) <;> (try (repeat' split) <;> first | exact hs | (simp (maxDischargeDepth := 40) [*]; done) | (simp +contextual (maxDischargeDepth := 40) [*]; done))
@[simp] theorem settleClose_cap (s : State) (hs : CapacityInv s) : CapacityInv (settleClose s) := by
  unfold settleClose; (try dsimp only) <;> (try (repeat' split) <;> first | exact hs | (simp (maxDischargeDepth := 40) [*]; done) | (simp +contextual (maxDischargeDepth := 40) [*]; done))
@[simp] theorem closeByTimer_cap (s : State) (hs : CapacityInv s) : CapacityInv (closeByTimer s) := by
  unfold closeByTimer; (try dsimp only) <;> (try (repeat' split) <;> first | exact hs | (simp (maxDischargeDepth := 40) [*]; done) | (simp +contextual (maxDischargeDepth := 40) [*]; done))
@[simp] theorem markExpired_cap (s : State) (hs : CapacityInv s) : CapacityInv (markExpired s) := by
  unfold markExpired; (try dsimp only) <;> (try (repeat' split) <;> first | exact hs | (simp (maxDischargeDepth := 40) [*]; done) | (simp +contextual (maxDischargeDepth := 40) [*]; done))
@[simp] theorem cycleExpired_cap (s : State) (hs : CapacityInv s) : CapacityInv (cycleExpired s) := by
  unfold cycleExpired; (try dsimp only) <;> (try (repeat' split) <;> first | exact hs | (simp (maxDischargeDepth := 40) [*]; done) | (simp +contextual (maxDischargeDepth := 40) [*]; done))
@[simp] theorem adoptFirst_cap (n : CycleNo) (s : State) (hs : CapacityInv s) : CapacityInv (adoptFirst n s) := by
  unfold adoptFirst; (try dsimp only) <;> (try (repeat' split) <;> first | exact hs | (simp (maxDischargeDepth := 40) [*]; done) | (simp +contextual (maxDischargeDepth := 40) [*]; done))
@[simp] theorem joinAdopt_cap (n : CycleNo) (s : State) (hs : CapacityInv s) : CapacityInv (joinAdopt n s) := by
  unfold joinAdopt; (try dsimp only) <;> (try (repeat' split) <;> first | exact hs | (simp (maxDischargeDepth := 40) [*]; done) | (simp +contextual (maxDischargeDepth := 40) [*]; done))
@[simp] theorem holdBack_cap (st : Station) (s : State) (hs : CapacityInv s) : CapacityInv (holdBack st s) := by
  unfold holdBack; (try dsimp only) <;> (try (repeat' split) <;> first | exact hs | (simp (maxDischargeDepth := 40) [*]; done) | (simp +contextual (maxDischargeDepth := 40) [*]; done))
@[simp] theorem setSilence_cap (st : Station) (s : State) (hs : CapacityInv s) : CapacityInv (setSilence st s) := by
  unfold setSilence; (try dsimp only) <;> (try (repeat' split) <;> first | exact hs | (simp (maxDischargeDepth := 40) [*]; done) | (simp +contextual (maxDischargeDepth := 40) [*]; done))
@[simp] theorem restartSilence_cap (st : Station) (s : State) (hs : CapacityInv s) : CapacityInv (restartSilence st s) := by
  unfold restartSilence; (try dsimp only) <;> (try (repeat' split) <;> first | exact hs | (simp (maxDischargeDepth := 40) [*]; done) | (simp +contextual (maxDischargeDepth := 40) [*]; done))
@[simp] theorem recordChanged_cap (st : Station) (old new : PeerState) (s : State) (hs : CapacityInv s) : CapacityInv (recordChanged st old new s) := by
  unfold recordChanged; (try dsimp only) <;> (try (repeat' split) <;> first | exact hs | (simp (maxDischargeDepth := 40) [*]; done) | (simp +contextual (maxDischargeDepth := 40) [*]; done))
@[simp] theorem storeTaken_cap (k : FrameKind) (st : Station) (f : RxFrame) (s : State) (hs : CapacityInv s) : CapacityInv (storeTaken k st f s) := by
  unfold storeTaken; (try dsimp only) <;> (try (repeat' split) <;> first | exact hs | (simp (maxDischargeDepth := 40) [*]; done) | (simp +contextual (maxDischargeDepth := 40) [*]; done))
@[simp] theorem enterRecord_cap (k : FrameKind) (st : Station) (f : RxFrame) (s : State) (hs : CapacityInv s) : CapacityInv (enterRecord k st f s) := by
  unfold enterRecord; (try dsimp only) <;> (try (repeat' split) <;> first | exact hs | (simp (maxDischargeDepth := 40) [*]; done) | (simp +contextual (maxDischargeDepth := 40) [*]; done))
@[simp] theorem takeRecord_cap (k : FrameKind) (st : Station) (f : RxFrame) (s : State) (hs : CapacityInv s) : CapacityInv (takeRecord k st f s) := by
  unfold takeRecord; (try dsimp only) <;> (try (repeat' split) <;> first | exact hs | (simp (maxDischargeDepth := 40) [*]; done) | (simp +contextual (maxDischargeDepth := 40) [*]; done))
@[simp] theorem handToBlocks_cap (k : FrameKind) (st : Station) (f : RxFrame) (s : State) (hs : CapacityInv s) : CapacityInv (handToBlocks k st f s) := by
  unfold handToBlocks; (try dsimp only) <;> (try (repeat' split) <;> first | exact hs | (simp (maxDischargeDepth := 40) [*]; done) | (simp +contextual (maxDischargeDepth := 40) [*]; done))
@[simp] theorem handOn_cap (k : FrameKind) (st : Station) (f : RxFrame) (s : State) (hs : CapacityInv s) : CapacityInv (handOn k st f s) := by
  unfold handOn; (try dsimp only) <;> (try (repeat' split) <;> first | exact hs | (simp (maxDischargeDepth := 40) [*]; done) | (simp +contextual (maxDischargeDepth := 40) [*]; done))
@[simp] theorem joinAndHandOn_cap (k : FrameKind) (st : Station) (f : RxFrame) (s : State) (hs : CapacityInv s) : CapacityInv (joinAndHandOn k st f s) := by
  unfold joinAndHandOn; (try dsimp only) <;> (try (repeat' split) <;> first | exact hs | (simp (maxDischargeDepth := 40) [*]; done) | (simp +contextual (maxDischargeDepth := 40) [*]; done))
@[simp] theorem memberFrame_cap (k : FrameKind) (st : Station) (f : RxFrame) (s : State) (hs : CapacityInv s) : CapacityInv (memberFrame k st f s) := by
  unfold memberFrame; (try dsimp only) <;> (try (repeat' split) <;> first | exact hs | (simp (maxDischargeDepth := 40) [*]; done) | (simp +contextual (maxDischargeDepth := 40) [*]; done))
@[simp] theorem rejectFrame_cap (l : Lane) (s : State) (hs : CapacityInv s) : CapacityInv (rejectFrame l s) := by
  unfold rejectFrame; (try dsimp only) <;> (try (repeat' split) <;> first | exact hs | (simp (maxDischargeDepth := 40) [*]; done) | (simp +contextual (maxDischargeDepth := 40) [*]; done))
@[simp] theorem countAccepted_cap (l : Lane) (k : FrameKind) (st : Station) (s : State) (hs : CapacityInv s) : CapacityInv (countAccepted l k st s) := by
  unfold countAccepted; dsimp only
  simp [hs]
@[simp] theorem acceptFrame_cap (l : Lane) (f : RxFrame) (s : State) (hs : CapacityInv s) : CapacityInv (acceptFrame l f s) := by
  unfold acceptFrame; (try dsimp only) <;> (try (repeat' split) <;> first | exact hs | (simp (maxDischargeDepth := 40) [*]; done) | (simp +contextual (maxDischargeDepth := 40) [*]; done))
@[simp] theorem beginHandling_cap (l : Lane) (f : RxFrame) (s : State) (hs : CapacityInv s) : CapacityInv (beginHandling l f s) := by
  unfold beginHandling; (try dsimp only) <;> (try (repeat' split) <;> first | exact hs | (simp (maxDischargeDepth := 40) [*]; done) | (simp +contextual (maxDischargeDepth := 40) [*]; done))
@[simp] theorem endHandling_cap (s : State) (hs : CapacityInv s) : CapacityInv (endHandling s) := by
  unfold endHandling; (try dsimp only) <;> (try (repeat' split) <;> first | exact hs | (simp (maxDischargeDepth := 40) [*]; done) | (simp +contextual (maxDischargeDepth := 40) [*]; done))
@[simp] theorem handOut_cap (l : Lane) (f : RxFrame) (s : State) (hs : CapacityInv s) : CapacityInv (handOut l f s) := by
  unfold handOut; (try dsimp only) <;> (try (repeat' split) <;> first | exact hs | (simp (maxDischargeDepth := 40) [*]; done) | (simp +contextual (maxDischargeDepth := 40) [*]; done))
@[simp] theorem handleFrame_cap (l : Lane) (f : RxFrame) (s : State) (hs : CapacityInv s) : CapacityInv (handleFrame l f s) := by
  unfold handleFrame; (try dsimp only) <;> (try (repeat' split) <;> first | exact hs | (simp (maxDischargeDepth := 40) [*]; done) | (simp +contextual (maxDischargeDepth := 40) [*]; done))
@[simp] theorem judgeCommand_cap (c : PortCommand) (inRange : Bool) (reply : List Byte) (s : State) (hs : CapacityInv s) : CapacityInv (judgeCommand c inRange reply s) := by
  unfold judgeCommand; (try dsimp only) <;> (try (repeat' split) <;> first | exact hs | (simp (maxDischargeDepth := 40) [*]; done) | (simp +contextual (maxDischargeDepth := 40) [*]; done))
@[simp] theorem loadFailed_cap (check index : Nat) (s : State) (hs : CapacityInv s) : CapacityInv (loadFailed check index s) := by
  unfold loadFailed; (try dsimp only) <;> (try (repeat' split) <;> first | exact hs | (simp (maxDischargeDepth := 40) [*]; done) | (simp +contextual (maxDischargeDepth := 40) [*]; done))
@[simp] theorem loadPassed_cap (b : List Byte) (s : State) (hs : CapacityInv s) : CapacityInv (loadPassed b s) := by
  unfold loadPassed; (try dsimp only) <;> (try (repeat' split) <;> first | exact hs | (simp (maxDischargeDepth := 40) [*]; done) | (simp +contextual (maxDischargeDepth := 40) [*]; done))
@[simp] theorem endCheck_cap (s : State) (hs : CapacityInv s) : CapacityInv (endCheck s) := by
  unfold endCheck; (try dsimp only) <;> (try (repeat' split) <;> first | exact hs | (simp (maxDischargeDepth := 40) [*]; done) | (simp +contextual (maxDischargeDepth := 40) [*]; done))
@[simp] theorem beginCheck_cap (b : List Byte) (s : State) (hs : CapacityInv s) : CapacityInv (beginCheck b s) := by
  unfold beginCheck; (try dsimp only) <;> (try (repeat' split) <;> first | exact hs | (simp (maxDischargeDepth := 40) [*]; done) | (simp +contextual (maxDischargeDepth := 40) [*]; done))
@[simp] theorem commandRestart_cap (s : State) (hs : CapacityInv s) : CapacityInv (commandRestart s) := by
  unfold commandRestart; (try dsimp only) <;> (try (repeat' split) <;> first | exact hs | (simp (maxDischargeDepth := 40) [*]; done) | (simp +contextual (maxDischargeDepth := 40) [*]; done))
@[simp] theorem removeNotice_cap (returned : Bool) (bytesOut : Nat) (s : State) (hs : CapacityInv s) : CapacityInv (removeNotice returned bytesOut s) := by
  unfold removeNotice
  split
  · have h0 := hs.notices
    have h1 : (s.withPort { s.port with notices := s.port.notices.drop 1 }).port.notices.length < noticeCapacity := by
      have : 0 < noticeCapacity := by decide
      simp; omega
    apply offerStacked_cap _ _ h1
    simp [hs]
  · exact hs
@[simp] theorem controlTaken_cap (c : Control) (ref : Nat) (s : State) (hs : CapacityInv s) : CapacityInv (controlTaken c ref s) := by
  unfold controlTaken; (try dsimp only) <;> (try (repeat' split) <;> first | exact hs | (simp (maxDischargeDepth := 40) [*]; done) | (simp +contextual (maxDischargeDepth := 40) [*]; done))
@[simp] theorem requestControl_cap (c : Control) (s : State) (hs : CapacityInv s) : CapacityInv (requestControl c s) := by
  unfold requestControl; (try dsimp only) <;> (try (repeat' split) <;> first | exact hs | (simp (maxDischargeDepth := 40) [*]; done) | (simp +contextual (maxDischargeDepth := 40) [*]; done))
@[simp] theorem clearRecord_cap (s : State) (hs : CapacityInv s) : CapacityInv (clearRecord s) := by
  unfold clearRecord; (try dsimp only) <;> (try (repeat' split) <;> first | exact hs | (simp (maxDischargeDepth := 40) [*]; done) | (simp +contextual (maxDischargeDepth := 40) [*]; done))
@[simp] theorem applyCommand_cap (c : PortCommand) (bytesOut : Nat) (s : State) (hs : CapacityInv s) : CapacityInv (applyCommand c bytesOut s) := by
  unfold applyCommand; (try dsimp only) <;> (try (repeat' split) <;> first | exact hs | (simp (maxDischargeDepth := 40) [*]; done) | (simp +contextual (maxDischargeDepth := 40) [*]; done))
@[simp] theorem lateCommand_cap (c : PortCommand) (s : State) (hs : CapacityInv s) : CapacityInv (lateCommand c s) := by
  unfold lateCommand; (try dsimp only) <;> (try (repeat' split) <;> first | exact hs | (simp (maxDischargeDepth := 40) [*]; done) | (simp +contextual (maxDischargeDepth := 40) [*]; done))
@[simp] theorem deselect_cap (bytesOut : Nat) (s : State) (hs : CapacityInv s) : CapacityInv (deselect bytesOut s) := by
  unfold deselect; (try dsimp only) <;> (try (repeat' split) <;> first | exact hs | (simp (maxDischargeDepth := 40) [*]; done) | (simp +contextual (maxDischargeDepth := 40) [*]; done))
@[simp] theorem takeEdge_cap (f : State → State) (s : State) (hf : ∀  t, CapacityInv t → CapacityInv (f t)) (hs : CapacityInv s) : CapacityInv (takeEdge f s) := by
  unfold takeEdge; (try dsimp only) <;> (try (repeat' split) <;> first | exact hs | (simp (maxDischargeDepth := 40) [*]; done) | (simp +contextual (maxDischargeDepth := 40) [*]; done))
@[simp] theorem filEdge_cap (s : State) (hs : CapacityInv s) : CapacityInv (filEdge s) := by
  unfold filEdge; (try dsimp only) <;> (try (repeat' split) <;> first | exact hs | (simp (maxDischargeDepth := 40) [*]; done) | (simp +contextual (maxDischargeDepth := 40) [*]; done))
@[simp] theorem firstShake_cap (s : State) (hs : CapacityInv s) : CapacityInv (firstShake s) := by
  unfold firstShake; (try dsimp only) <;> (try (repeat' split) <;> first | exact hs | (simp (maxDischargeDepth := 40) [*]; done) | (simp +contextual (maxDischargeDepth := 40) [*]; done))
@[simp] theorem vibEdge_cap (s : State) (hs : CapacityInv s) : CapacityInv (vibEdge s) := by
  unfold vibEdge; (try dsimp only) <;> (try (repeat' split) <;> first | exact hs | (simp (maxDischargeDepth := 40) [*]; done) | (simp +contextual (maxDischargeDepth := 40) [*]; done))
@[simp] theorem strEdge_cap (s : State) (hs : CapacityInv s) : CapacityInv (strEdge s) := by
  unfold strEdge; (try dsimp only) <;> (try (repeat' split) <;> first | exact hs | (simp (maxDischargeDepth := 40) [*]; done) | (simp +contextual (maxDischargeDepth := 40) [*]; done))
@[simp] theorem strFall_cap (s : State) (hs : CapacityInv s) : CapacityInv (strFall s) := by
  unfold strFall; (try dsimp only) <;> (try (repeat' split) <;> first | exact hs | (simp (maxDischargeDepth := 40) [*]; done) | (simp +contextual (maxDischargeDepth := 40) [*]; done))
@[simp] theorem keepCapture_cap (c : Channel) (s : State) (hs : CapacityInv s) : CapacityInv (keepCapture c s) := by
  unfold keepCapture; (try dsimp only) <;> (try (repeat' split) <;> first | exact hs | (simp (maxDischargeDepth := 40) [*]; done) | (simp +contextual (maxDischargeDepth := 40) [*]; done))
@[simp] theorem countDetected_cap (s : State) (hs : CapacityInv s) : CapacityInv (countDetected s) := by
  unfold countDetected; (try dsimp only) <;> (try (repeat' split) <;> first | exact hs | (simp (maxDischargeDepth := 40) [*]; done) | (simp +contextual (maxDischargeDepth := 40) [*]; done))
@[simp] theorem startHit_cap (c : Channel) (h : OpenHit) (s : State) (hs : CapacityInv s) : CapacityInv (startHit c h s) := by
  unfold startHit; (try dsimp only) <;> (try (repeat' split) <;> first | exact hs | (simp (maxDischargeDepth := 40) [*]; done) | (simp +contextual (maxDischargeDepth := 40) [*]; done))
@[simp] theorem appendOwnHit_cap (c : Channel) (h : OpenHit) (f : Features) (s : State) (hs : CapacityInv s) : CapacityInv (appendOwnHit c h f s) := by
  unfold appendOwnHit
  split
  · apply selectNext_cap; simp [hs]; omega
  · simp [hs]
@[simp] theorem completeHit_cap (c : Channel) (h : OpenHit) (f : Features) (s : State) (hs : CapacityInv s) : CapacityInv (completeHit c h f s) := by
  unfold completeHit; (try dsimp only) <;> (try (repeat' split) <;> first | exact hs | (simp (maxDischargeDepth := 40) [*]; done) | (simp +contextual (maxDischargeDepth := 40) [*]; done))
@[simp] theorem endHit_cap (c : Channel) (long : Bool) (h : OpenHit) (s : State) (hs : CapacityInv s) : CapacityInv (endHit c long h s) := by
  unfold endHit; (try dsimp only) <;> (try (repeat' split) <;> first | exact hs | (simp (maxDischargeDepth := 40) [*]; done) | (simp +contextual (maxDischargeDepth := 40) [*]; done))
@[simp] theorem hitSample_cap (c : Channel) (env : Nat) (h : OpenHit) (s : State) (hs : CapacityInv s) : CapacityInv (hitSample c env h s) := by
  unfold hitSample; (try dsimp only) <;> (try (repeat' split) <;> first | exact hs | (simp (maxDischargeDepth := 40) [*]; done) | (simp +contextual (maxDischargeDepth := 40) [*]; done))
@[simp] theorem quietSample_cap (c : Channel) (env : Nat) (s : State) (hs : CapacityInv s) : CapacityInv (quietSample c env s) := by
  unfold quietSample; (try dsimp only) <;> (try (repeat' split) <;> first | exact hs | (simp (maxDischargeDepth := 40) [*]; done) | (simp +contextual (maxDischargeDepth := 40) [*]; done))
@[simp] theorem sampleStep_cap (c : Channel) (env : Nat) (s : State) (hs : CapacityInv s) : CapacityInv (sampleStep c env s) := by
  unfold sampleStep; (try dsimp only) <;> (try (repeat' split) <;> first | exact hs | (simp (maxDischargeDepth := 40) [*]; done) | (simp +contextual (maxDischargeDepth := 40) [*]; done))
@[simp] theorem takeSample_cap (c : Channel) (value : Half) (s : State) (hs : CapacityInv s) : CapacityInv (takeSample c value s) := by
  unfold takeSample; (try dsimp only) <;> (try (repeat' split) <;> first | exact hs | (simp (maxDischargeDepth := 40) [*]; done) | (simp +contextual (maxDischargeDepth := 40) [*]; done))
@[simp] theorem endLockout_cap (c : Channel) (s : State) (hs : CapacityInv s) : CapacityInv (endLockout c s) := by
  unfold endLockout; (try dsimp only) <;> (try (repeat' split) <;> first | exact hs | (simp (maxDischargeDepth := 40) [*]; done) | (simp +contextual (maxDischargeDepth := 40) [*]; done))
@[simp] theorem tellLoss_cap (u : ChannelUnit) (s : State) (hs : CapacityInv s) : CapacityInv (tellLoss u s) := by
  unfold tellLoss; (try dsimp only) <;> (try (repeat' split) <;> first | exact hs | (simp (maxDischargeDepth := 40) [*]; done) | (simp +contextual (maxDischargeDepth := 40) [*]; done))
@[simp] theorem loseChannel_cap (c : Channel) (s : State) (hs : CapacityInv s) : CapacityInv (loseChannel c s) := by
  unfold loseChannel; (try dsimp only) <;> (try (repeat' split) <;> first | exact hs | (simp (maxDischargeDepth := 40) [*]; done) | (simp +contextual (maxDischargeDepth := 40) [*]; done))
@[simp] theorem afterLoss_cap (c : Channel) (u : ChannelUnit) (s : State) (hs : CapacityInv s) : CapacityInv (afterLoss c u s) := by
  unfold afterLoss; (try dsimp only) <;> (try (repeat' split) <;> first | exact hs | (simp (maxDischargeDepth := 40) [*]; done) | (simp +contextual (maxDischargeDepth := 40) [*]; done))
@[simp] theorem sampleLost_cap (c : Channel) (s : State) (hs : CapacityInv s) : CapacityInv (sampleLost c s) := by
  unfold sampleLost; (try dsimp only) <;> (try (repeat' split) <;> first | exact hs | (simp (maxDischargeDepth := 40) [*]; done) | (simp +contextual (maxDischargeDepth := 40) [*]; done))
@[simp] theorem recoverChannel_cap (c : Channel) (last : Tag) (s : State) (hs : CapacityInv s) : CapacityInv (recoverChannel c last s) := by
  unfold recoverChannel; (try dsimp only) <;> (try (repeat' split) <;> first | exact hs | (simp (maxDischargeDepth := 40) [*]; done) | (simp +contextual (maxDischargeDepth := 40) [*]; done))
@[simp] theorem afterRecovery_cap (c : Channel) (s : State) (hs : CapacityInv s) : CapacityInv (afterRecovery c s) := by
  unfold afterRecovery; (try dsimp only) <;> (try (repeat' split) <;> first | exact hs | (simp (maxDischargeDepth := 40) [*]; done) | (simp +contextual (maxDischargeDepth := 40) [*]; done))
@[simp] theorem sampleRecovered_cap (c : Channel) (last : Tag) (s : State) (hs : CapacityInv s) : CapacityInv (sampleRecovered c last s) := by
  unfold sampleRecovered; (try dsimp only) <;> (try (repeat' split) <;> first | exact hs | (simp (maxDischargeDepth := 40) [*]; done) | (simp +contextual (maxDischargeDepth := 40) [*]; done))
@[simp] theorem endPulseWidth_cap (c : Channel) (s : State) (hs : CapacityInv s) : CapacityInv (endPulseWidth c s) := by
  unfold endPulseWidth; (try dsimp only) <;> (try (repeat' split) <;> first | exact hs | (simp (maxDischargeDepth := 40) [*]; done) | (simp +contextual (maxDischargeDepth := 40) [*]; done))
@[simp] theorem endRecovery_cap (c : Channel) (s : State) (hs : CapacityInv s) : CapacityInv (endRecovery c s) := by
  unfold endRecovery; (try dsimp only) <;> (try (repeat' split) <;> first | exact hs | (simp (maxDischargeDepth := 40) [*]; done) | (simp +contextual (maxDischargeDepth := 40) [*]; done))
@[simp] theorem whileWaiting_cap (f : CurrentFrame → Tag → State → State) (s : State) (hf : ∀ a b t, CapacityInv t → CapacityInv (f a b t)) (hs : CapacityInv s) : CapacityInv (whileWaiting f s) := by
  unfold whileWaiting; (try dsimp only) <;> (try (repeat' split) <;> first | exact hs | (simp (maxDischargeDepth := 40) [*]; done) | (simp +contextual (maxDischargeDepth := 40) [*]; done))
@[simp] theorem whileTransmitting_cap (f : CurrentFrame → Tag → State → State) (s : State) (hf : ∀ a b t, CapacityInv t → CapacityInv (f a b t)) (hs : CapacityInv s) : CapacityInv (whileTransmitting f s) := by
  unfold whileTransmitting; (try dsimp only) <;> (try (repeat' split) <;> first | exact hs | (simp (maxDischargeDepth := 40) [*]; done) | (simp +contextual (maxDischargeDepth := 40) [*]; done))
@[simp] theorem takeGap_cap (lane : Lane) (c : CurrentFrame) (s : State) (hs : CapacityInv s) : CapacityInv (takeGap lane c s) := by
  unfold takeGap; (try dsimp only) <;> (try (repeat' split) <;> first | exact hs | (simp (maxDischargeDepth := 40) [*]; done) | (simp +contextual (maxDischargeDepth := 40) [*]; done))
@[simp] theorem starve_cap (c : CurrentFrame) (dueTag : Tag) (s : State) (hs : CapacityInv s) : CapacityInv (starve c dueTag s) := by
  unfold starve; (try dsimp only) <;> (try (repeat' split) <;> first | exact hs | (simp (maxDischargeDepth := 40) [*]; done) | (simp +contextual (maxDischargeDepth := 40) [*]; done))
@[simp] theorem closeExpired_cap (s : State) (hs : CapacityInv s) : CapacityInv (closeExpired s) := by
  unfold closeExpired; (try dsimp only) <;> (try (repeat' split) <;> first | exact hs | (simp (maxDischargeDepth := 40) [*]; done) | (simp +contextual (maxDischargeDepth := 40) [*]; done))
@[simp] theorem takeCloseExpiry_cap (s : State) (hs : CapacityInv s) : CapacityInv (takeCloseExpiry s) := by
  unfold takeCloseExpiry; (try dsimp only) <;> (try (repeat' split) <;> first | exact hs | (simp (maxDischargeDepth := 40) [*]; done) | (simp +contextual (maxDischargeDepth := 40) [*]; done))
@[simp] theorem takeSlot_cap (tag : Tag) (s : State) (hs : CapacityInv s) : CapacityInv (takeSlot tag s) := by
  unfold takeSlot; (try dsimp only) <;> (try (repeat' split) <;> first | exact hs | (simp (maxDischargeDepth := 40) [*]; done) | (simp +contextual (maxDischargeDepth := 40) [*]; done))
@[simp] theorem endWait_cap (s : State) (hs : CapacityInv s) : CapacityInv (endWait s) := by
  unfold endWait; (try dsimp only) <;> (try (repeat' split) <;> first | exact hs | (simp (maxDischargeDepth := 40) [*]; done) | (simp +contextual (maxDischargeDepth := 40) [*]; done))
@[simp] theorem fireChannel_cap (c : Channel) (s : State) (hs : CapacityInv s) : CapacityInv (fireChannel c s) := by
  unfold fireChannel; (try dsimp only) <;> (try (repeat' split) <;> first | exact hs | (simp (maxDischargeDepth := 40) [*]; done) | (simp +contextual (maxDischargeDepth := 40) [*]; done))
@[simp] theorem notFired_cap (s : State) (hs : CapacityInv s) : CapacityInv (notFired s) := by
  unfold notFired; (try dsimp only) <;> (try (repeat' split) <;> first | exact hs | (simp (maxDischargeDepth := 40) [*]; done) | (simp +contextual (maxDischargeDepth := 40) [*]; done))
@[simp] theorem takeFire_cap (s : State) (hs : CapacityInv s) : CapacityInv (takeFire s) := by
  unfold takeFire; (try dsimp only) <;> (try (repeat' split) <;> first | exact hs | (simp (maxDischargeDepth := 40) [*]; done) | (simp +contextual (maxDischargeDepth := 40) [*]; done))
@[simp] theorem beginJudging_cap (s : State) (hs : CapacityInv s) : CapacityInv (beginJudging s) := by
  unfold beginJudging; (try dsimp only) <;> (try (repeat' split) <;> first | exact hs | (simp (maxDischargeDepth := 40) [*]; done) | (simp +contextual (maxDischargeDepth := 40) [*]; done))
@[simp] theorem takeEndTag_cap (s : State) (hs : CapacityInv s) : CapacityInv (takeEndTag s) := by
  unfold takeEndTag; (try dsimp only) <;> (try (repeat' split) <;> first | exact hs | (simp (maxDischargeDepth := 40) [*]; done) | (simp +contextual (maxDischargeDepth := 40) [*]; done))
@[simp] theorem scrubStep_cap (s : State) (hs : CapacityInv s) : CapacityInv (scrubStep s) := by
  unfold scrubStep; (try dsimp only) <;> (try (repeat' split) <;> first | exact hs | (simp (maxDischargeDepth := 40) [*]; done) | (simp +contextual (maxDischargeDepth := 40) [*]; done))
@[simp] theorem beginFrameOn_cap (l : Lane) (s : State) (hs : CapacityInv s) : CapacityInv (beginFrameOn l s) := by
  unfold beginFrameOn; (try dsimp only) <;> (try (repeat' split) <;> first | exact hs | (simp (maxDischargeDepth := 40) [*]; done) | (simp +contextual (maxDischargeDepth := 40) [*]; done))
@[simp] theorem goMissing_cap (st : Station) (s : State) (hs : CapacityInv s) : CapacityInv (goMissing st s) := by
  unfold goMissing; (try dsimp only) <;> (try (repeat' split) <;> first | exact hs | (simp (maxDischargeDepth := 40) [*]; done) | (simp +contextual (maxDischargeDepth := 40) [*]; done))
@[simp] theorem askPresence_cap (s : State) (hs : CapacityInv s) : CapacityInv (askPresence s) := by
  unfold askPresence; (try dsimp only) <;> (try (repeat' split) <;> first | exact hs | (simp (maxDischargeDepth := 40) [*]; done) | (simp +contextual (maxDischargeDepth := 40) [*]; done))
@[simp] theorem judgeReadSegment_cap (n : Nat) (s : State) (hs : CapacityInv s) : CapacityInv (judgeReadSegment n s) := by
  unfold judgeReadSegment; (try dsimp only) <;> (try (repeat' split) <;> first | exact hs | (simp (maxDischargeDepth := 40) [*]; done) | (simp +contextual (maxDischargeDepth := 40) [*]; done))
@[simp] theorem readSegmentStep_cap (n : Nat) (s : State) (hs : CapacityInv s) : CapacityInv (readSegmentStep n s) := by
  unfold readSegmentStep; (try dsimp only) <;> (try (repeat' split) <;> first | exact hs | (simp (maxDischargeDepth := 40) [*]; done) | (simp +contextual (maxDischargeDepth := 40) [*]; done))
@[simp] theorem judgeControl_cap (kind group value mask : Byte) (s : State) (hs : CapacityInv s) : CapacityInv (judgeControl kind group value mask s) := by
  unfold judgeControl; (try dsimp only) <;> (try (repeat' split) <;> first | exact hs | (simp (maxDischargeDepth := 40) [*]; done) | (simp +contextual (maxDischargeDepth := 40) [*]; done))
@[simp] theorem segmentControlStep_cap (kind group value mask : Byte) (s : State) (hs : CapacityInv s) : CapacityInv (segmentControlStep kind group value mask s) := by
  unfold segmentControlStep; (try dsimp only) <;> (try (repeat' split) <;> first | exact hs | (simp (maxDischargeDepth := 40) [*]; done) | (simp +contextual (maxDischargeDepth := 40) [*]; done))
@[simp] theorem powerOnValues_cap (held : Bool) (s : State) (hs : CapacityInv s) : CapacityInv (powerOnValues held s) := by
  unfold powerOnValues; (try dsimp only) <;> (try (repeat' split) <;> first | exact hs | (simp (maxDischargeDepth := 40) [*]; done) | (simp +contextual (maxDischargeDepth := 40) [*]; done))
end Sys2Proof.Machine
end

