-- ==== Sys2Proof/Laws/Exec.lean ====
section
/-! SUPPORT. What each command's `exec` comes to where its step can find no fault: its effect, at its moment. -/

namespace Sys2Proof.Machine

/-- A command has no effect while the RESET pin holds the part (R176). -/
theorem atMoment_held {m : Moment} {s : State} (h : s.resetHeld = true) (f : State → State) : atMoment m s f = .next s := by
  unfold atMoment
  rw [if_pos h]

theorem exec_cycRising_quiet (m : Moment) (s : State) (h : NoFaultToFind m s) :
    exec (.cycRising m) s = .next ((takeEdge cycEdge) (s.withNow m.tag)) :=
  atMoment_quiet h _

theorem exec_filRising_quiet (m : Moment) (s : State) (h : NoFaultToFind m s) :
    exec (.filRising m) s = .next ((takeEdge filEdge) (s.withNow m.tag)) :=
  atMoment_quiet h _

theorem exec_vibRising_quiet (m : Moment) (s : State) (h : NoFaultToFind m s) :
    exec (.vibRising m) s = .next ((takeEdge vibEdge) (s.withNow m.tag)) :=
  atMoment_quiet h _

theorem exec_strRising_quiet (m : Moment) (s : State) (h : NoFaultToFind m s) :
    exec (.strRising m) s = .next ((takeEdge strEdge) (s.withNow m.tag)) :=
  atMoment_quiet h _

theorem exec_strFalling_quiet (m : Moment) (s : State) (h : NoFaultToFind m s) :
    exec (.strFalling m) s = .next ((takeEdge strFall) (s.withNow m.tag)) :=
  atMoment_quiet h _

theorem exec_settleTimerExpiry_quiet (m : Moment) (s : State) (h : NoFaultToFind m s) :
    exec (.settleTimerExpiry m) s = .next (if settleDue (s.withNow m.tag) then settleClose (s.withNow m.tag) else (s.withNow m.tag)) := by
  change execSettleTimerExpiry m s = _
  unfold execSettleTimerExpiry
  exact atMoment_quiet h _

theorem exec_cycleTimerExpiry_quiet (m : Moment) (s : State) (h : NoFaultToFind m s) :
    exec (.cycleTimerExpiry m) s = .next (if cycleDue (s.withNow m.tag) then cycleExpired (s.withNow m.tag) else (s.withNow m.tag)) := by
  change execCycleTimerExpiry m s = _
  unfold execCycleTimerExpiry
  exact atMoment_quiet h _

theorem exec_sample_quiet (m : Moment) (c : Channel) (value : Half) (s : State) (h : NoFaultToFind m s) :
    exec (.sample m c value) s = .next ((takeSample c value) (s.withNow m.tag)) :=
  atMoment_quiet h _

theorem exec_lockoutTimerExpiry_quiet (m : Moment) (c : Channel) (s : State) (h : NoFaultToFind m s) :
    exec (.lockoutTimerExpiry m c) s = .next (if lockoutDue c (s.withNow m.tag) then usingConfig (lockoutWords c (s.withNow m.tag)) (endLockout c) (s.withNow m.tag) else (s.withNow m.tag)) := by
  change execLockoutTimerExpiry m c s = _
  unfold execLockoutTimerExpiry
  exact atMoment_quiet h _

theorem exec_sampleLoss_quiet (m : Moment) (c : Channel) (s : State) (h : NoFaultToFind m s) :
    exec (.sampleLoss m c) s = .next (if lossDue c (s.withNow m.tag) then sampleLost c (s.withNow m.tag) else (s.withNow m.tag)) := by
  change execSampleLoss m c s = _
  unfold execSampleLoss
  exact atMoment_quiet h _

theorem exec_sampleRecovery_quiet (m : Moment) (c : Channel) (s : State) (h : NoFaultToFind m s) :
    exec (.sampleRecovery m c) s = .next (match recoveredAt c (s.withNow m.tag) with
    | some last => usingConfig (recoveryWords c (s.withNow m.tag)) (sampleRecovered c last) (s.withNow m.tag)
    | none => (s.withNow m.tag)) := by
  change execSampleRecovery m c s = _
  unfold execSampleRecovery
  exact atMoment_quiet h _

theorem exec_pulseWidthEnd_quiet (m : Moment) (c : Channel) (s : State) (h : NoFaultToFind m s) :
    exec (.pulseWidthEnd m c) s = .next (if pulseDue c .pulsing (s.withNow m.tag) then usingConfig [0x0E] (endPulseWidth c) (s.withNow m.tag) else (s.withNow m.tag)) := by
  change execPulseWidthEnd m c s = _
  unfold execPulseWidthEnd
  exact atMoment_quiet h _

theorem exec_recoveryEnd_quiet (m : Moment) (c : Channel) (s : State) (h : NoFaultToFind m s) :
    exec (.recoveryEnd m c) s = .next (if pulseDue c .recover (s.withNow m.tag) then endRecovery c (s.withNow m.tag) else (s.withNow m.tag)) := by
  change execRecoveryEnd m c s = _
  unfold execRecoveryEnd
  exact atMoment_quiet h _

theorem exec_accessGapReached_quiet (m : Moment) (lane : RestingLane) (s : State) (h : NoFaultToFind m s) :
    exec (.accessGapReached m lane) s = .next ((whileWaiting fun c _ s => takeGap lane.lane c (hearBytes lane s)) (s.withNow m.tag)) :=
  atMoment_quiet h _

theorem exec_accessTimerExpiry_quiet (m : Moment) (s : State) (h : NoFaultToFind m s) :
    exec (.accessTimerExpiry m) s = .next ((whileWaiting starve) (s.withNow m.tag)) :=
  atMoment_quiet h _

theorem exec_attemptSent_quiet (m : Moment) (s : State) (h : NoFaultToFind m s) :
    exec (.attemptSent m) s = .next ((whileTransmitting attemptSucceeded) (s.withNow m.tag)) :=
  atMoment_quiet h _

theorem exec_echoMismatch_quiet (m : Moment) (s : State) (h : NoFaultToFind m s) :
    exec (.echoMismatch m) s = .next ((whileTransmitting fun c _ => echoFailed c .clash) (s.withNow m.tag)) :=
  atMoment_quiet h _

theorem exec_echoTimeout_quiet (m : Moment) (index : Nat) (s : State) (h : NoFaultToFind m s) :
    exec (.echoTimeout m index) s = .next ((whileTransmitting fun c _ => echoFailed c (timeoutCause index)) (s.withNow m.tag)) :=
  atMoment_quiet h _

theorem exec_frameComplete_quiet (m : Moment) (l : Lane) (bytes : List Byte) (s : State) (h : NoFaultToFind m s) :
    exec (.frameComplete m l bytes) s = .next (match assembling l (s.withNow m.tag) with
    | some (stamp, own) => completeFrame l ⟨bytes, stamp, own⟩ (s.withNow m.tag)
    | none => (s.withNow m.tag)) := by
  change execFrameComplete m l bytes s = _
  unfold execFrameComplete
  exact atMoment_quiet h _

theorem exec_frameBroken_quiet (m : Moment) (l : Lane) (cause : BrokenCause) (s : State) (h : NoFaultToFind m s) :
    exec (.frameBroken m l cause) s = .next (match assembling l (s.withNow m.tag) with
    | some _ => breakFrame l (brokenIdleFrom cause (s.withNow m.tag).clock) (s.withNow m.tag)
    | none => (s.withNow m.tag)) := by
  change execFrameBroken m l cause s = _
  unfold execFrameBroken
  exact atMoment_quiet h _

theorem exec_frameHandlerTake_quiet (m : Moment) (s : State) (h : NoFaultToFind m s) :
    exec (.frameHandlerTake m) s = .next (match heldFrame (s.withNow m.tag).link with
    | some (l, f) => if (s.withNow m.tag).linkUp then handleFrame l f (s.withNow m.tag) else (s.withNow m.tag)
    | none => (s.withNow m.tag)) := by
  change execFrameHandlerTake m s = _
  unfold execFrameHandlerTake
  exact atMoment_quiet h _

theorem exec_joinTimerExpiry_quiet (m : Moment) (s : State) (h : NoFaultToFind m s) :
    exec (.joinTimerExpiry m) s = .next (if joinDue (s.withNow m.tag) then joinAdopt 0 (s.withNow m.tag) else (s.withNow m.tag)) := by
  change execJoinTimerExpiry m s = _
  unfold execJoinTimerExpiry
  exact atMoment_quiet h _

theorem exec_silenceTimerExpiry_quiet (m : Moment) (st : Station) (s : State) (h : NoFaultToFind m s) :
    exec (.silenceTimerExpiry m st) s = .next (if silenceDue st (s.withNow m.tag) then goMissing st (s.withNow m.tag) else (s.withNow m.tag)) := by
  change execSilenceTimerExpiry m st s = _
  unfold execSilenceTimerExpiry
  exact atMoment_quiet h _

theorem exec_presenceTimerExpiry_quiet (m : Moment) (s : State) (h : NoFaultToFind m s) :
    exec (.presenceTimerExpiry m) s = .next (if presenceDue (s.withNow m.tag) then usingConfig [0x15] askPresence (s.withNow m.tag) else (s.withNow m.tag)) := by
  change execPresenceTimerExpiry m s = _
  unfold execPresenceTimerExpiry
  exact atMoment_quiet h _

theorem exec_closeExpiry_quiet (m : Moment) (s : State) (h : NoFaultToFind m s) :
    exec (.closeExpiry m) s = .next (if closeDue (s.withNow m.tag) then takeCloseExpiry (s.withNow m.tag) else (s.withNow m.tag)) := by
  change execCloseExpiry m s = _
  unfold execCloseExpiry
  exact atMoment_quiet h _

theorem exec_publicationDeadline_quiet (m : Moment) (key : HitId) (s : State) (h : NoFaultToFind m s) :
    exec (.publicationDeadline m key) s = .next (match deadlineEntry key (s.withNow m.tag) with
    | some p => if (s.withNow m.tag).atWork then publishAsStandIn p (s.withNow m.tag) else (s.withNow m.tag)
    | none => (s.withNow m.tag)) := by
  change execPublicationDeadline m key s = _
  unfold execPublicationDeadline
  exact atMoment_quiet h _

theorem exec_digestWindowExpiry_quiet (m : Moment) (s : State) (h : NoFaultToFind m s) :
    exec (.digestWindowExpiry m) s = .next (if digestDue (s.withNow m.tag) then usingConfig decisionWords decide_ (s.withNow m.tag) else (s.withNow m.tag)) := by
  change execDigestWindowExpiry m s = _
  unfold execDigestWindowExpiry
  exact atMoment_quiet h _

theorem exec_transferLeadExpiry_quiet (m : Moment) (s : State) (h : NoFaultToFind m s) :
    exec (.transferLeadExpiry m) s = .next (match leadDue (s.withNow m.tag) with
    | some n => sendRow n (s.withNow m.tag)
    | none => (s.withNow m.tag)) := by
  change execTransferLeadExpiry m s = _
  unfold execTransferLeadExpiry
  exact atMoment_quiet h _

theorem exec_slotTagReached_quiet (m : Moment) (s : State) (h : NoFaultToFind m s) :
    exec (.slotTagReached m) s = .next (match slotDue (s.withNow m.tag) with
    | some tag => usingConfig (pulseWords (s.withNow m.tag)) (takeSlot tag) (s.withNow m.tag)
    | none => (s.withNow m.tag)) := by
  change execSlotTagReached m s = _
  unfold execSlotTagReached
  exact atMoment_quiet h _

theorem exec_slotWaitEnd_quiet (m : Moment) (s : State) (h : NoFaultToFind m s) :
    exec (.slotWaitEnd m) s = .next (if waitOver (s.withNow m.tag) then usingConfig [0x25] endWait (s.withNow m.tag) else (s.withNow m.tag)) := by
  change execSlotWaitEnd m s = _
  unfold execSlotWaitEnd
  exact atMoment_quiet h _

theorem exec_fireTagReached_quiet (m : Moment) (s : State) (h : NoFaultToFind m s) :
    exec (.fireTagReached m) s = .next (if fireDue (s.withNow m.tag) then usingConfig (fireWords (s.withNow m.tag)) takeFire (s.withNow m.tag) else (s.withNow m.tag)) := by
  change execFireTagReached m s = _
  unfold execFireTagReached
  exact atMoment_quiet h _

theorem exec_windowFireTag_quiet (m : Moment) (s : State) (h : NoFaultToFind m s) :
    exec (.windowFireTag m) s = .next (if windowFireDue (s.withNow m.tag) then reofferPulse (openWindow (s.withNow m.tag)) else (s.withNow m.tag)) := by
  change execWindowFireTag m s = _
  unfold execWindowFireTag
  exact atMoment_quiet h _

theorem exec_endTagReached_quiet (m : Moment) (s : State) (h : NoFaultToFind m s) :
    exec (.endTagReached m) s = .next (if endTagDue (s.withNow m.tag) then takeEndTag (s.withNow m.tag) else (s.withNow m.tag)) := by
  change execEndTagReached m s = _
  unfold execEndTagReached
  exact atMoment_quiet h _

theorem exec_scrubRead_quiet (m : Moment) (s : State) (h : NoFaultToFind m s) :
    exec (.scrubRead m) s = .next (if (s.withNow m.tag).linkUp then scrubStep (s.withNow m.tag) else (s.withNow m.tag)) := by
  change execScrubRead m s = _
  unfold execScrubRead
  exact atMoment_quiet h _

theorem exec_logoutTimerExpiry_quiet (m : Moment) (s : State) (h : NoFaultToFind m s) :
    exec (.logoutTimerExpiry m) s = .next (if logoutDue (s.withNow m.tag) then selfRestart .fault (s.withNow m.tag) else (s.withNow m.tag)) := by
  change execLogoutTimerExpiry m s = _
  unfold execLogoutTimerExpiry
  exact atMoment_quiet h _

theorem exec_load_quiet (m : Moment) (block : List Byte) (s : State) (h : NoFaultToFind m s) :
    exec (.load m block) s = .next (if 2048 ≤ block.length then judgeCommand (.load (block.take 2048)) true [] (s.withNow m.tag) else (s.withNow m.tag)) := by
  change execLoad m block s = _
  unfold execLoad
  exact atMoment_quiet h _

theorem exec_loadCheckComplete_quiet (m : Moment) (s : State) (h : NoFaultToFind m s) :
    exec (.loadCheckComplete m) s = .next (if (s.withNow m.tag).port.checking then endCheck (s.withNow m.tag) else (s.withNow m.tag)) := by
  change execLoadCheckComplete m s = _
  unfold execLoadCheckComplete
  exact atMoment_quiet h _

theorem exec_start_quiet (m : Moment) (s : State) (h : NoFaultToFind m s) :
    exec (.start m) s = .next ((judgeCommand .start true []) (s.withNow m.tag)) :=
  atMoment_quiet h _

theorem exec_restart_quiet (m : Moment) (s : State) (h : NoFaultToFind m s) :
    exec (.restart m) s = .next ((judgeCommand .restart true []) (s.withNow m.tag)) :=
  atMoment_quiet h _

theorem exec_status_quiet (m : Moment) (s : State) (h : NoFaultToFind m s) :
    exec (.status m) s = .next (judgeCommand .status true (statusReply (s.withNow m.tag)) (s.withNow m.tag)) :=
  atMoment_quiet h _

theorem exec_nextNotice_quiet (m : Moment) (s : State) (h : NoFaultToFind m s) :
    exec (.nextNotice m) s = .next (judgeCommand (.nextNotice (s.withNow m.tag).noticeLine) true (noticeReply (s.withNow m.tag)) (s.withNow m.tag)) :=
  atMoment_quiet h _

theorem exec_readSegment_quiet (m : Moment) (n : Byte) (s : State) (h : NoFaultToFind m s) :
    exec (.readSegment m n) s = .next ((readSegmentStep n.toNat) (s.withNow m.tag)) :=
  atMoment_quiet h _

theorem exec_readPeer_quiet (m : Moment) (n : Byte) (s : State) (h : NoFaultToFind m s) :
    exec (.readPeer m n) s = .next (judgeCommand .readPeer (within 1 8 n.toNat) (peerReply n.toNat (s.withNow m.tag)) (s.withNow m.tag)) :=
  atMoment_quiet h _

theorem exec_readCoupling_quiet (m : Moment) (s : State) (h : NoFaultToFind m s) :
    exec (.readCoupling m) s = .next (judgeCommand .readCoupling true (couplingReply (s.withNow m.tag)) (s.withNow m.tag)) :=
  atMoment_quiet h _

theorem exec_readFault_quiet (m : Moment) (s : State) (h : NoFaultToFind m s) :
    exec (.readFault m) s = .next (judgeCommand .readFault true (faultRecordBytes (s.withNow m.tag).fault.record) (s.withNow m.tag)) :=
  atMoment_quiet h _

theorem exec_clearFault_quiet (m : Moment) (s : State) (h : NoFaultToFind m s) :
    exec (.clearFault m) s = .next ((judgeCommand .clearFault true []) (s.withNow m.tag)) :=
  atMoment_quiet h _

/-- Where no fault is to be found, SEGMENT_CONTROL is only judged. -/
theorem segmentControlStep_quiet {s : State} (h : NoBadWord s) (kind group value mask : Byte) :
    segmentControlStep kind group value mask s = judgeControl kind group value mask s := by
  unfold segmentControlStep
  split
  · exact boardReads_quiet h _ _
  · rfl

/-- Where no fault is to be found, READ_SEGMENT is only judged. -/
theorem readSegmentStep_quiet {s : State} (h : NoBadWord s) (n : Nat) : readSegmentStep n s = judgeReadSegment n s := by
  unfold readSegmentStep
  split
  · rfl
  · exact boardReads_quiet h _ _

theorem exec_segmentControl_quiet (m : Moment) (kind group value mask : Byte) (s : State) (h : NoFaultToFind m s) :
    exec (.segmentControl m kind group value mask) s = .next (segmentControlStep kind group value mask (s.withNow m.tag)) :=
  atMoment_quiet h _

theorem exec_selectRise_quiet (m : Moment) (bytesOut : Nat) (s : State) (h : NoFaultToFind m s) :
    exec (.selectRise m bytesOut) s = .next ((deselect bytesOut) (s.withNow m.tag)) :=
  atMoment_quiet h _

theorem exec_frameStart_quiet (m : Moment) (l : Lane) (s : State) (h : NoFaultToFind m s) :
    exec (.frameStart m l) s = .next (if (s.withNow m.tag).linkUp then beginFrameOn l (s.withNow m.tag) else (s.withNow m.tag)) := by
  change execFrameStart m l s = _
  unfold execFrameStart
  exact atMoment_quiet h _

theorem exec_noCommandByte_quiet (m : Moment) (b : Byte) (s : State) (h : NoFaultToFind m s) :
    exec (.noCommandByte m b) s = .next (if namesNoCommand b then judgeCommand .unknown true [] (s.withNow m.tag) else (s.withNow m.tag)) := by
  change execNoCommandByte m b s = _
  unfold execNoCommandByte
  exact atMoment_quiet h _

end Sys2Proof.Machine
end

