-- ==== Sys2Proof/Laws/Groups.lean ====
section
/-! SUPPORT. What a withdrawal, and the withdrawals of a whole list, do: the transmit queue alone changes (R47, R93, R95). -/

namespace Sys2Proof.Machine

/-- A withdrawal takes the descriptor out of the queue, unless it is the current frame's. -/
theorem withdraw_eq (ref : Nat) (s : State) : withdraw ref s = s.withLink { s.link with
    queue := s.link.queue.filter fun d => isSelected d.ref s || d.ref != ref } := by
  unfold withdraw
  split
  · rename_i h
    have hq : s.link.queue.filter (fun d => isSelected d.ref s || d.ref != ref) = s.link.queue := by
      rw [List.filter_eq_self]
      intro d _
      by_cases hd : d.ref = ref
      · rw [hd, h]; rfl
      · simp [hd]
    rw [hq]
    rfl
  · rename_i h
    have hq : s.link.queue.filter (fun d => isSelected d.ref s || d.ref != ref) = s.link.queue.filter fun d => d.ref != ref := by
      apply List.filter_congr
      intro d _
      by_cases hd : d.ref = ref
      · rw [hd]; simp only [Bool.not_eq_true] at h; rw [h]; rfl
      · simp [hd]
    rw [hq]

/-- Withdrawals one after the other take every named descriptor out, but the current frame's. -/
theorem withdraws_eq (refs : List Nat) (s : State) : refs.foldl (fun t r => withdraw r t) s = s.withLink { s.link with
    queue := s.link.queue.filter fun d => isSelected d.ref s || !refs.contains d.ref } := by
  induction refs generalizing s with
  | nil => simp [State.withLink]
  | cons r rs ih =>
    rw [List.foldl_cons, ih, withdraw_eq]
    have hf : (s.link.queue.filter fun d => isSelected d.ref s || d.ref != r).filter (fun d => isSelected d.ref s || !rs.contains d.ref) =
        s.link.queue.filter fun d => isSelected d.ref s || !(r :: rs).contains d.ref := by
      rw [List.filter_filter]
      apply List.filter_congr
      intro d _
      rw [List.contains_cons]
      by_cases hd : d.ref = r
      · cases isSelected d.ref s <;> simp [hd]
      · cases isSelected d.ref s <;> simp [beq_eq_false_iff_ne.mpr hd, bne]
    rw [← hf]
    rfl

/-- The descriptor that an entry of the Pending Group List has QUEUED. -/
def pendingRefs (ps : List PendingGroup) : List Nat :=
  ps.filterMap fun p => match p.publication with | .queued r => some r | _ => none

theorem pendingRefs_contains (ps : List PendingGroup) (r : Nat) :
    (pendingRefs ps).contains r = ps.any fun p => p.publication == .queued r := by
  induction ps with
  | nil => rfl
  | cons p ps ih =>
    unfold pendingRefs at ih ⊢
    rw [List.filterMap_cons, List.any_cons, ← ih]
    cases hp : p.publication with
    | waiting => simp
    | sent => simp
    | queued q =>
      dsimp only
      rw [List.contains_cons]
      congr 1
      by_cases hq : r = q
      · subst hq; simp
      · have h1 : (r == q) = false := by simp [hq]
        have h2 : (Publication.queued q == Publication.queued r) = false := by
          simp only [beq_eq_false_iff_ne, ne_eq, Publication.queued.injEq]
          exact fun h => hq h.symm
        rw [h1, h2]

/-- Withdrawing the descriptors of pending groups. -/
theorem withdrawPendings_eq (ps : List PendingGroup) (s : State) :
    ps.foldl (fun t p => withdrawPending p t) s = (pendingRefs ps).foldl (fun t r => withdraw r t) s := by
  induction ps generalizing s with
  | nil => rfl
  | cons p ps ih =>
    unfold pendingRefs at ih ⊢
    rw [List.foldl_cons, ih, List.filterMap_cons]
    unfold withdrawPending
    cases p.publication <;> rfl

end Sys2Proof.Machine
end

