-- ==== Sys2Proof/Laws/Notices.lean ====
section
/-! SUPPORT. Raising notices: it changes the Board Port alone, in a way that follows from the Board Port alone (R174, R175). -/

namespace Sys2Proof.Machine

/-- A notice changes the port alone. -/
theorem raise_eq (n : Notice) (s : State) : raise n s = s.withPort (raise n s).port := by
  unfold raise
  dsimp only
  split <;> rfl

/-- What a notice makes of the port follows from the port. -/
theorem raise_port (n : Notice) {s t : State} (h : s.port = t.port) : (raise n s).port = (raise n t).port := by
  unfold raise
  rw [h]
  dsimp only
  split <;> rfl

theorem raise_config (n : Notice) (s : State) : (raise n s).port.config = s.port.config := by
  unfold raise
  dsimp only
  split <;> rfl

theorem raise_control (n : Notice) (s : State) : (raise n s).port.control = s.port.control := by
  unfold raise
  dsimp only
  split <;> rfl

@[simp] theorem raiseAll_nil (s : State) : raiseAll [] s = s := rfl
@[simp] theorem raiseAll_cons (n : Notice) (ns : List Notice) (s : State) : raiseAll (n :: ns) s = raiseAll ns (raise n s) := rfl
theorem raiseAll_append (ms ns : List Notice) (s : State) : raiseAll (ms ++ ns) s = raiseAll ns (raiseAll ms s) := List.foldl_append

/-- Notices change the port alone. -/
theorem raiseAll_eq (ns : List Notice) (s : State) : raiseAll ns s = s.withPort (raiseAll ns s).port := by
  induction ns generalizing s with
  | nil => rfl
  | cons n ns ih =>
    rw [raiseAll_cons, ih, raise_eq n s]
    rfl

/-- What notices make of the port follows from the port. -/
theorem raiseAll_port (ns : List Notice) {s t : State} (h : s.port = t.port) : (raiseAll ns s).port = (raiseAll ns t).port := by
  induction ns generalizing s t with
  | nil => exact h
  | cons n ns ih => exact ih (raise_port n h)

theorem raiseAll_config (ns : List Notice) (s : State) : (raiseAll ns s).port.config = s.port.config := by
  induction ns generalizing s with
  | nil => rfl
  | cons n ns ih => exact (ih _).trans (raise_config n s)

/-- The notices of a change of the table are raised one after the other, in segment order (R129). -/
theorem raiseChanges_eq (cycle : Option CycleNo) (cause : SegCause) (old new : List SegmentRecord) (s : State) :
    raiseChanges cycle cause old new s = raiseAll (segmentNotices cycle cause old new) s := by
  unfold raiseChanges segmentNotices
  generalize (old.zip new).zipIdx = cs
  induction cs generalizing s with
  | nil => rfl
  | cons c cs ih =>
    rw [List.foldl_cons, ih, List.filterMap_cons]
    unfold noticeChange
    split <;> rfl

end Sys2Proof.Machine
end

