-- ==== Sys2Proof/Laws/Close.lean ====
section
/-! SUPPORT. What the close of a cycle does, part by part, with sound stores (R13, R116, R132). -/

namespace Sys2Proof.Machine

/-- A selection with an empty Own Hit Queue takes a descriptor, or nothing: the current frame alone changes, and it has a name. -/
theorem selectFrame_noHits {s : State} (hq : s.channels.queue = []) : ∃ cur count,
    selectFrame s = (s.withLink { s.link with current := cur }).withFreeCount count ∧
    (s.link.current.isSome = true → cur = s.link.current) ∧
    (s.link.current = none → ∀ c, cur = some c → c.ref ≠ none) := by
  have hself : s = (s.withLink { s.link with current := s.link.current }).withFreeCount s.freeCount := rfl
  have hc : ∀ c ∈ candidates s, ∃ d ∈ s.link.queue, c.ref = some d.ref := by
    intro c hc
    unfold candidates at hc
    rw [hq] at hc
    simp only [List.append_nil, List.mem_map] at hc
    obtain ⟨d, hd, he⟩ := hc
    exact ⟨d, hd, by rw [← he]⟩
  have hb : ∀ c ∈ bestCandidates (candidates s), c ∈ candidates s := by
    intro c hc
    unfold bestCandidates at hc
    dsimp only at hc
    split at hc
    · exact (List.mem_filter.mp hc).1
    · exact (List.mem_filter.mp (List.mem_filter.mp hc).1).1
  have he : ∀ (c : Candidate) (n : Nat), c ∈ candidates s → s.link.current = none → ∃ cur,
      selectEntry c (s.withFreeCount n) = (s.withLink { s.link with current := cur }).withFreeCount n ∧
        ∀ x, cur = some x → x.ref ≠ none := by
    intro c n hm hnone
    obtain ⟨d, _, hd⟩ := hc c hm
    unfold selectEntry
    rw [hd]
    dsimp only [withFreeCount_link]
    split
    · refine ⟨_, rfl, ?_⟩
      intro x hx
      cases hx
      exact fun h => by cases h
    · refine ⟨none, ?_, fun x hx => by cases hx⟩
      rw [← hnone]
      rfl
  unfold selectFrame
  split
  · rename_i hs
    exact ⟨_, _, hself, fun _ => rfl, fun h => by rw [h] at hs; cases hs⟩
  · rename_i hs
    have hnone : s.link.current = none := by simpa using hs
    split
    · exact ⟨_, _, hself, fun _ => rfl, fun _ c h => by rw [hnone] at h; cases h⟩
    · rename_i c h
      obtain ⟨cur, h1, h2⟩ := he c s.freeCount (hb c (by rw [h]; exact List.mem_singleton.mpr rfl)) hnone
      refine ⟨cur, s.freeCount, h1, fun h => ?_, fun _ => h2⟩
      rw [hnone] at h
      cases h
    · rename_i c d cs h
      have hin : (c :: d :: cs).getD (Config.freeChoice s.freeCount % (c :: d :: cs).length) c ∈ bestCandidates (candidates s) := by
        rw [h, List.getD_eq_getElem?_getD]
        have hlt : Config.freeChoice s.freeCount % (c :: d :: cs).length < (c :: d :: cs).length := Nat.mod_lt _ (Nat.succ_pos _)
        rw [List.getElem?_eq_getElem hlt]
        exact List.getElem_mem hlt
      obtain ⟨cur, h1, h2⟩ := he _ (s.freeCount + 1) (hb _ hin) hnone
      refine ⟨cur, s.freeCount + 1, h1, fun h => ?_, fun _ => h2⟩
      rw [hnone] at h
      cases h

/-- The same of the checked selection, with sound stores. -/
theorem selectNext_noHits {s : State} (hn : NoFlips s) (hq : s.channels.queue = []) : ∃ cur count,
    selectNext s = (s.withLink { s.link with current := cur }).withFreeCount count ∧
    (s.link.current.isSome = true → cur = s.link.current) ∧
    (s.link.current = none → ∀ c, cur = some c → c.ref ≠ none) := by
  rw [selectNext_sound hn]
  exact selectFrame_noHits hq

/-- The Link Unit after a close has cut a HIT frame (R53). -/
def cutLink (l : Link) : Link :=
  match l.current with
  | some c =>
    if c.kind = .hit then
      match c.attempt with
      | .transmitting _ => { l with current := some { c with noRetry := true } }
      | .waiting _ => { l with current := none, dropped := raised l.dropped }
    else l
  | none => l

theorem cutHitFrame_eq (s : State) : cutHitFrame s = s.withLink (cutLink s.link) := by
  unfold cutHitFrame cutLink
  cases hc : s.link.current with
  | none => rfl
  | some c =>
    dsimp only
    split
    · cases ha : c.attempt <;> rfl
    · rfl

/-- The channels, the Link Unit and the coincidence state after a close's discards (R29, R31, R53, R95). -/
theorem closeHits_eq (s : State) : closeHits s =
    (((s.withChannels { s.channels with queue := [], units := s.channels.units.map fun _ u => markGone u }).withLink
      { cutLink s.link with queue := (cutLink s.link).queue.filter fun d => isSelected d.ref (s.withLink (cutLink s.link)) ||
          !((pendingRefs s.coin.pendingGroups).contains d.ref || s.coin.ownerRefs.contains d.ref) }).withCoin
      { clearCoincidence s.coin with counts := { s.coin.counts with
          hitsDiscarded := raisedBy s.coin.window.length s.coin.counts.hitsDiscarded
          groupsDiscarded := raisedBy s.coin.pendingGroups.length s.coin.counts.groupsDiscarded } }).withFault
      { s.fault with flipped := s.fault.flipped.filter fun u => !(match u.word with | .window _ => true | _ => false) } := by
  have hd : ∀ u : State, discardCoincidence u = ((u.withLink { u.link with
      queue := u.link.queue.filter fun d => isSelected d.ref u ||
        !((pendingRefs u.coin.pendingGroups).contains d.ref || u.coin.ownerRefs.contains d.ref) }).withCoin
      { clearCoincidence u.coin with counts := { u.coin.counts with
          hitsDiscarded := raisedBy u.coin.window.length u.coin.counts.hitsDiscarded
          groupsDiscarded := raisedBy u.coin.pendingGroups.length u.coin.counts.groupsDiscarded } }).withFault
      { u.fault with flipped := u.fault.flipped.filter fun w => !(match w.word with | .window _ => true | _ => false) } := by
    intro u
    unfold discardCoincidence
    dsimp only
    rw [withdrawPendings_eq, withdraws_eq, withdraws_eq]
    have hf : ∀ q : List Descriptor, (q.filter fun d => isSelected d.ref u || !(pendingRefs u.coin.pendingGroups).contains d.ref).filter
        (fun d => isSelected d.ref u || !u.coin.ownerRefs.contains d.ref) =
        q.filter fun d => isSelected d.ref u ||
          !((pendingRefs u.coin.pendingGroups).contains d.ref || u.coin.ownerRefs.contains d.ref) := by
      intro q
      rw [List.filter_filter]
      apply List.filter_congr
      intro d _
      cases isSelected d.ref u <;> simp [Bool.and_comm]
    rw [← hf]
    rfl
  unfold closeHits
  rw [cutHitFrame_eq, hd]
  rfl

/-- With sound stores the outputs are just derived, unless they are held (R127, R128). -/
theorem deriveUnlessHeld_sound {s : State} (hn : NoFlips s) :
    deriveUnlessHeld s = if s.agree.standing = .outOfStep then s else setOutputs s := by
  unfold deriveUnlessHeld deriveOutputs
  rw [usingWords_sound hn, usingConfig_sound hn]

/-- What is left alone by every part of the tables' side of a close: all but the Evidence and Agreement Units, the transmit queue, the
notices and the counts of the Fault Unit. -/
def SameElsewhere (s t : State) : Prop :=
  (t.tracker = s.tracker ∧ t.channels = s.channels ∧ t.member = s.member ∧ t.coin = s.coin ∧ t.coup = s.coup) ∧
  (t.fault.record = s.fault.record ∧ NoFlips t ∧ t.clock = s.clock ∧ t.port.config = s.port.config ∧ t.resetHeld = s.resetHeld)

/-- What is left alone by one part and by the next is left alone by both. -/
theorem SameElsewhere.trans {s t u : State} (h : SameElsewhere s t) (k : SameElsewhere t u) : SameElsewhere s u :=
  ⟨⟨k.1.1.trans h.1.1, k.1.2.1.trans h.1.2.1, k.1.2.2.1.trans h.1.2.2.1, k.1.2.2.2.1.trans h.1.2.2.2.1, k.1.2.2.2.2.trans h.1.2.2.2.2⟩,
   k.2.1.trans h.2.1, k.2.2.1, k.2.2.2.1.trans h.2.2.2.1, k.2.2.2.2.1.trans h.2.2.2.2.1, k.2.2.2.2.2.trans h.2.2.2.2.2⟩

/-- The Applied Event List is emptied, and the bits of its words are right again. -/
theorem emptyApplied_fields {s : State} (hn : NoFlips s) :
    SameElsewhere s (emptyApplied s) ∧ (emptyApplied s).evid = { s.evid with applied := [] } ∧
      (emptyApplied s).agree = s.agree ∧ (emptyApplied s).link = s.link ∧ (emptyApplied s).port = s.port :=
  ⟨⟨⟨rfl, rfl, rfl, rfl, rfl⟩, rfl, congrArg (List.filter _) hn, rfl, rfl, rfl⟩, rfl, rfl, rfl, rfl⟩

/-- The close work after the fold (R116, R120, R127 to R129). -/
theorem afterFold_fields (closed : Option CycleNo) (old : List SegmentRecord) {s t : State} (hn : NoFlips s)
    (hs : s.member.station ≠ .frozen) (ht : afterFold closed old s = t) :
    SameElsewhere s t ∧ t.agree = s.agree ∧ t.link = s.link ∧
      t.port = (raiseAll (segmentNotices closed .fold old s.evid.table) s).port ∧
      t.evid = { s.evid with
        applied := [], age := raised s.evid.age
        warn := if s.agree.standing = .outOfStep then s.evid.warn else warnLevel s.evid.table
        stop := if s.agree.standing = .outOfStep then s.evid.stop else stopLevel (Block.stopCount s.block) s.evid.table } := by
  unfold afterFold at ht
  rw [raiseChanges_eq] at ht
  have he := raiseAll_eq (segmentNotices closed .fold old s.evid.table) s
  have hc := raiseAll_config (segmentNotices closed .fold old s.evid.table) s
  generalize raiseAll (segmentNotices closed .fold old s.evid.table) s = u at *
  have h1 : u.evid = s.evid := by rw [he]; rfl
  have h2 : u.agree = s.agree := by rw [he]; rfl
  have h3 : SameElsewhere s u := by rw [he]; exact ⟨⟨rfl, rfl, rfl, rfl, rfl⟩, rfl, hn, rfl, hc, rfl⟩
  have h4 : u.link = s.link := by rw [he]; rfl
  have hb : u.block = s.block := by unfold State.block; rw [hc]
  have hun : NoFlips u := h3.2.2.1
  have hus : u.member.station ≠ .frozen := by rw [h3.1.2.2.1]; exact hs
  have hst : (raiseAge u).agree.standing = s.agree.standing := congrArg Agreement.standing h2
  rw [deriveUnlessHeld_sound (s := raiseAge u) hun, hst] at ht
  have hfields : ∀ v, t = emptyApplied (u.withEvid v) →
      SameElsewhere s t ∧ t.agree = s.agree ∧ t.link = s.link ∧ t.port = u.port ∧ t.evid = { v with applied := [] } := by
    intro v hv
    obtain ⟨hsame, hevid, hagree, hlink, hport⟩ := emptyApplied_fields (s := u.withEvid v) hun
    rw [← hv] at hsame hevid hagree hlink hport
    exact ⟨h3.trans hsame, hagree.trans h2, hlink.trans h4, hport, hevid⟩
  by_cases ho : s.agree.standing = .outOfStep
  · rw [if_pos ho, unlessFrozen_live (s := raiseAge u) hus] at ht
    rw [if_pos ho, if_pos ho]
    obtain ⟨hsame, hagree, hlink, hport, hevid⟩ := hfields { u.evid with age := raised u.evid.age } ht.symm
    exact ⟨hsame, hagree, hlink, hport, by rw [hevid, h1]⟩
  · rw [if_neg ho, unlessFrozen_live (s := setOutputs (raiseAge u)) hus] at ht
    rw [if_neg ho, if_neg ho, ← hb]
    obtain ⟨hsame, hagree, hlink, hport, hevid⟩ := hfields
      { u.evid with age := raised u.evid.age, warn := warnLevel u.evid.table
                    stop := stopLevel (Block.stopCount u.block) u.evid.table } ht.symm
    exact ⟨hsame, hagree, hlink, hport, by rw [hevid, h1]⟩

/-- The table that the fold of a NORMAL close leaves (R116). -/
def foldedTable (closed : Option CycleNo) (s : State) : List SegmentRecord :=
  (segmentNumbers s).foldl (fun t n => t.modify (n - 1) (foldRecord s.block closed (entriesOn s.block s.evid.applied n))) s.evid.table

/-- The Evidence Unit's close work after a NORMAL close (R116). -/
theorem evidenceClose_normal (closed : Option CycleNo) {s t : State} (hn : NoFlips s) (hs : s.member.station ≠ .frozen)
    (ht : evidenceClose closed .normal s = t) :
    SameElsewhere s t ∧ t.agree = s.agree ∧ t.link = s.link ∧
      t.port = (raiseAll (segmentNotices closed .fold s.evid.table (foldedTable closed s)) s).port ∧
      t.evid = { s.evid with
        applied := [], table := foldedTable closed s, age := raised s.evid.age
        warn := if s.agree.standing = .outOfStep then s.evid.warn else warnLevel (foldedTable closed s)
        stop := if s.agree.standing = .outOfStep then s.evid.stop
          else stopLevel (Block.stopCount s.block) (foldedTable closed s) } := by
  have hc : (checkApplied s).evid = s.evid := checkApplied_applied hn
  have hcn : NoFlips (checkApplied s) := congrArg (List.filter _) hn
  have hcs : (checkApplied s).member.station ≠ .frozen := hs
  have htab : List.foldl (fun t n => t.modify (n - 1)
      (foldRecord (checkApplied s).block closed (entriesOn (checkApplied s).block (checkApplied s).evid.applied n)))
      (checkApplied s).evid.table (segmentNumbers (checkApplied s)) = foldedTable closed s := by
    unfold foldedTable segmentNumbers
    rw [hc]
    rfl
  unfold evidenceClose at ht
  dsimp only at ht
  rw [usingConfig_sound hcn, show foldTable closed (checkApplied s) = _ from foldSegments_sound closed _ hcn hcs, htab,
    unlessFrozen_live (by exact hcs)] at ht
  obtain ⟨a1, a2, a3, a4, a5⟩ := afterFold_fields closed _ (by exact hcn) (by exact hcs) ht
  refine ⟨⟨a1.1, a1.2⟩, a2, a3, ?_, ?_⟩
  · rw [a4]
    dsimp only [withEvid_evid]
    rw [hc]
    exact raiseAll_port _ rfl
  · rw [a5]
    dsimp only [withEvid_evid]
    rw [hc]
    rfl

/-- The Evidence Unit's close work after another close (R121). -/
theorem evidenceClose_unfolded (closed : Option CycleNo) {kind : CloseKind} {s t : State} (hn : NoFlips s) (hk : kind ≠ .normal)
    (ht : evidenceClose closed kind s = t) :
    SameElsewhere s t ∧ t.agree = s.agree ∧ t.link = s.link ∧ t.port = s.port ∧
      t.evid = { s.evid with
        applied := []
        counts := { s.evid.counts with unfolded := raisedBy s.evid.applied.length s.evid.counts.unfolded } } := by
  cases kind with
  | normal => exact absurd rfl hk
  | disordered =>
    rw [← ht]
    exact ⟨⟨⟨rfl, rfl, rfl, rfl, rfl⟩, rfl, congrArg (List.filter _) hn, rfl, rfl, rfl⟩, rfl, rfl, rfl, rfl⟩
  | abandoned =>
    rw [← ht]
    exact ⟨⟨⟨rfl, rfl, rfl, rfl, rfl⟩, rfl, congrArg (List.filter _) hn, rfl, rfl, rfl⟩, rfl, rfl, rfl, rfl⟩

/-- Whether the descriptor of this name is the ROW a transfer waits for. -/
def isRowOf (a : Agreement) (r : Nat) : Bool :=
  match a.transfer with
  | .sending _ (.row q _) => q == r
  | _ => false

/-- The notice of a transfer that a close abandons (R147). -/
def closeAbandons (s : State) : List Notice :=
  match s.agree.transfer with
  | .awaiting donor _ _ _ _ _ => [⟨s.tracker.cycle, stNo donor, .transfer (.abandoned .close)⟩]
  | _ => []

/-- The Agreement Unit before the snapshot: the window cut, the transfer ended, the carry list empty (R132). -/
def cutAgreement (a : Agreement) : Agreement :=
  { a with
    window := none, transfer := .idle, carry := [], carryOverflow := false
    counts := { a.counts with
      cut := if a.window.isSome then raised a.counts.cut else a.counts.cut
      abandoned := match a.transfer with | .awaiting .. => raised a.counts.abandoned | _ => a.counts.abandoned } }

/-- The first steps of the Agreement Unit's close work (R132, R147). -/
theorem cutTransfer_fields {s t : State} (hn : NoFlips s)
    (ht : (let s1 := if s.agree.window.isSome then
        agreeCounts (fun k => { k with cut := raised k.cut }) (s.withAgree { s.agree with window := none }) else s
      let s2 := abandonTransfer .close (stopSending s1)
      s2.withAgree { s2.agree with carry := [], carryOverflow := false }) = t) :
    SameElsewhere s t ∧ t.evid = s.evid ∧ t.agree = cutAgreement s.agree ∧ t.port = (raiseAll (closeAbandons s) s).port ∧
      t.link = { s.link with queue := s.link.queue.filter fun d => isSelected d.ref s || !isRowOf s.agree d.ref } := by
  have hself : ∀ f : Descriptor → Bool, (∀ d, f d = true) → s.link = { s.link with queue := s.link.queue.filter f } := by
    intro f hf
    have : s.link.queue.filter f = s.link.queue := List.filter_eq_self.mpr fun d _ => hf d
    rw [this]
  have hwin : (if s.agree.window.isSome then
        agreeCounts (fun k => { k with cut := raised k.cut }) (s.withAgree { s.agree with window := none }) else s) =
      s.withAgree { s.agree with
        window := none
        counts := { s.agree.counts with cut := if s.agree.window.isSome then raised s.agree.counts.cut else s.agree.counts.cut } } := by
    split
    · rfl
    · rename_i h
      have : s.agree.window = none := by simpa using h
      conv_lhs => rw [show s = s.withAgree { s.agree with window := none } by rw [← this]; rfl]
  rw [hwin] at ht
  dsimp only at ht
  unfold stopSending at ht
  have hcut : ∀ tr, s.agree.transfer = tr → (cutAgreement s.agree) = { s.agree with
      window := none, transfer := .idle, carry := [], carryOverflow := false
      counts := { s.agree.counts with
        cut := if s.agree.window.isSome then raised s.agree.counts.cut else s.agree.counts.cut
        abandoned := match tr with | .awaiting .. => raised s.agree.counts.abandoned | _ => s.agree.counts.abandoned } } := by
    intro tr h
    unfold cutAgreement
    rw [h]
  cases htr : s.agree.transfer with
  | idle =>
    simp only [withAgree_agree] at ht
    unfold abandonTransfer at ht
    simp only [withAgree_agree, htr] at ht
    rw [← ht, hcut _ htr]
    refine ⟨⟨⟨rfl, rfl, rfl, rfl, rfl⟩, rfl, hn, rfl, rfl, rfl⟩, rfl, ?_, ?_, hself _ ?_⟩
    · simp
    · unfold closeAbandons; rw [htr]; rfl
    · intro d; unfold isRowOf; rw [htr]; simp
  | awaiting donor c v n r b =>
    simp only [withAgree_agree] at ht
    unfold abandonTransfer at ht
    simp only [withAgree_agree, htr] at ht
    unfold raiseNow at ht
    rw [raise_eq] at ht
    rw [← ht, hcut _ htr]
    refine ⟨⟨⟨rfl, rfl, rfl, rfl, rfl⟩, rfl, hn, rfl, ?_, rfl⟩, rfl, ?_, ?_, hself _ ?_⟩
    · exact raise_config _ _
    · rfl
    · unfold closeAbandons; rw [htr]; exact raise_port _ rfl
    · intro d; unfold isRowOf; rw [htr]; simp
  | sending n st =>
    cases st with
    | lead d =>
      simp only [withAgree_agree, htr] at ht
      unfold abandonTransfer at ht
      simp only [setTransfer, withAgree_agree] at ht
      rw [← ht, hcut _ htr]
      refine ⟨⟨⟨rfl, rfl, rfl, rfl, rfl⟩, rfl, hn, rfl, rfl, rfl⟩, rfl, rfl, ?_, hself _ ?_⟩
      · unfold closeAbandons; rw [htr]; rfl
      · intro d; unfold isRowOf; rw [htr]; simp
    | row ref last =>
      simp only [withAgree_agree, htr] at ht
      unfold abandonTransfer at ht
      rw [withdraw_eq] at ht
      simp only [setTransfer, withAgree_agree] at ht
      rw [← ht, hcut _ htr]
      refine ⟨⟨⟨rfl, rfl, rfl, rfl, rfl⟩, rfl, hn, rfl, rfl, rfl⟩, rfl, rfl, ?_, ?_⟩
      · unfold closeAbandons; rw [htr]; rfl
      · have hf : (s.link.queue.filter fun d => isSelected d.ref s || !isRowOf s.agree d.ref) =
            s.link.queue.filter fun d => isSelected d.ref s || d.ref != ref := by
          apply List.filter_congr
          intro d _
          unfold isRowOf
          rw [htr]
          show (isSelected d.ref s || !(ref == d.ref)) = (isSelected d.ref s || !(d.ref == ref))
          rw [Bool.beq_comm]
        rw [hf]
        rfl

end Sys2Proof.Machine
end

