-- ==== Sys2Proof/Laws/Frames.lean ====
section
/-! SUPPORT. How a frame reaches the blocks of its kind: what the frame handler and the Membership Unit do with a frame of a sender on record
before the blocks take it (R58 to R61, R66, R69 to R73). -/

namespace Sys2Proof.Machine

/-- The state in which the blocks take a frame: the sender's record, the Link Unit's counts and a notice of the sender's return apart, it
is the state that `frameFinds` gives. -/
def FoundBy (m : Moment) (f : RxFrame) (st : Station) (s u : State) : Prop :=
  (u.tracker = (frameFinds m f st s).tracker ∧ u.coin = (frameFinds m f st s).coin ∧ u.evid = (frameFinds m f st s).evid ∧
    u.member.station = (frameFinds m f st s).member.station) ∧
  (u.agree = s.agree ∧ u.coup = s.coup ∧ u.channels = s.channels ∧ u.port = (raiseAll (presentAgain st s) s).port) ∧
  (u.link.queue = s.link.queue ∧ u.link.current = s.link.current ∧ u.link.nextRef = s.link.nextRef) ∧
  (u.member.number = s.member.number ∧ (u.member.peers.get st).state = .present) ∧
  (NoFlips u ∧ u.fault.record = s.fault.record ∧ u.fault.softFaults = s.fault.softFaults ∧ u.now = m.tag)

@[simp] theorem peers_get_set (p : Eight PeerRecord) (st : Station) (r : PeerRecord) : (p.set st r).get st = r := by cases st <;> rfl

theorem peers_get_set_ne (p : Eight PeerRecord) {st st' : Station} (r : PeerRecord) (h : st' ≠ st) : (p.set st r).get st' = p.get st' := by
  cases st <;> cases st' <;> first | rfl | exact absurd rfl h

/-- The sender's record takes the frame: the record is PRESENT, and its return is noticed (R71, R75). -/
theorem storeTaken_heard {b : State} {k : FrameKind} {st : Station} (f : RxFrame) (hp : k ≠ .presence) (hl : k ≠ .logout)
    (hs : (b.member.peers.get st).state = .present ∨ (b.member.peers.get st).state = .missing ∨
      (b.member.peers.get st).state = .loggedOut) :
    (takenRecord k st f b).state = .present ∧
      storeTaken k st f b = raiseAll (presentAgain st b) (b.setPeer st (takenRecord k st f b)) := by
  have hr : (takenRecord k st f b).state = .present := by
    unfold takenRecord recordByKind
    cases k <;> first | exact absurd rfl hp | exact absurd rfl hl | skip
    all_goals
      simp only [digestRecord, heardRecord, touchRecord]
      rcases hs with h | h | h <;> simp [h]
  refine ⟨hr, ?_⟩
  unfold storeTaken recordChanged presentAgain
  rw [hr]
  rcases hs with h | h | h
  · rw [h]; rfl
  · rw [h]; rfl
  · rw [h]; rfl

/-- The Membership Unit's part of such a frame (R69 to R73). -/
theorem takeRecord_heard {b : State} {k : FrameKind} {st : Station} (f : RxFrame) (hn : NoFlips b) (hp : k ≠ .presence)
    (hl : k ≠ .logout) (hs : (b.member.peers.get st).state = .present ∨ (b.member.peers.get st).state = .missing ∨
      (b.member.peers.get st).state = .loggedOut) :
    ∃ mem, takeRecord k st f b = (b.withMember mem).withPort (raiseAll (presentAgain st b) b).port ∧
      mem.station = b.member.station ∧ mem.number = b.member.number ∧ mem.joinTimer = b.member.joinTimer ∧
      (mem.peers.get st).state = .present := by
  obtain ⟨hr, he⟩ := storeTaken_heard f hp hl hs
  have hu : takeRecord k st f b = restartSilence st (storeTaken k st f b) := by
    unfold takeRecord
    rw [usingConfig_sound hn]
    rfl
  rw [hu, he, raiseAll_eq]
  have hq : (raiseAll (presentAgain st b) (b.setPeer st (takenRecord k st f b))).port = (raiseAll (presentAgain st b) b).port :=
    raiseAll_port _ rfl
  rw [hq]
  unfold restartSilence
  split
  · rw [usingConfig_sound (by exact hn)]
    exact ⟨_, rfl, rfl, rfl, rfl, by simp [State.setPeer, State.withMember, State.withPort, hr]⟩
  · exact ⟨_, rfl, rfl, rfl, rfl, by simp [hr]⟩

/-- What an adoption by a joining station does to each block (R9, R14). -/
theorem adoptFirst_fields (n : CycleNo) {s : State} (hn : NoFlips s) :
    (adoptFirst n s).tracker = adoptedTracker n (s.now + closeDelay s) s.tracker ∧
    (adoptFirst n s).coin = (if (adoptedTracker n (s.now + closeDelay s) s.tracker).isOpen then
      { s.coin with horizon := none } else s.coin) ∧
    (adoptFirst n s).evid = (if (adoptedTracker n (s.now + closeDelay s) s.tracker).isOpen then
      { s.evid with applied := [] } else s.evid) ∧
    (adoptFirst n s).agree = s.agree ∧ (adoptFirst n s).coup = s.coup ∧ (adoptFirst n s).channels = s.channels ∧
    (adoptFirst n s).port = s.port ∧ (adoptFirst n s).link = s.link ∧ (adoptFirst n s).member = s.member ∧
    NoFlips (adoptFirst n s) ∧ (adoptFirst n s).fault.record = s.fault.record ∧
    (adoptFirst n s).fault.softFaults = s.fault.softFaults ∧ (adoptFirst n s).now = s.now := by
  have he : adoptFirst n s = if (adoptedTracker n (s.now + closeDelay s) s.tracker).isOpen then
      beginCycle (s.withTracker (adoptedTracker n (s.now + closeDelay s) s.tracker))
    else s.withTracker (adoptedTracker n (s.now + closeDelay s) s.tracker) := rfl
  by_cases ho : (adoptedTracker n (s.now + closeDelay s) s.tracker).isOpen = true
  · rw [he, if_pos ho, if_pos ho, if_pos ho]
    exact ⟨rfl, rfl, rfl, rfl, rfl, rfl, rfl, rfl, rfl, congrArg (List.filter _) hn, rfl, rfl, rfl⟩
  · rw [he, if_neg ho, if_neg ho, if_neg ho]
    exact ⟨rfl, rfl, rfl, rfl, rfl, rfl, rfl, rfl, rfl, hn, rfl, rfl, rfl⟩

/-- A frame of a sender on record that is neither PRESENCE nor LOGOUT reaches the blocks of its kind. -/
theorem handed_take {m : Moment} {s : State} {l : Lane} {f : RxFrame} {k : FrameKind} {st : Station} (h : Handed m s l f k st)
    (hp : k ≠ .presence) (hl : k ≠ .logout) :
    ∃ u, exec (.frameHandlerTake m) s = .next (endHandling (handToBlocks k st f u)) ∧ FoundBy m f st s u := by
  obtain ⟨hS, hw, hh, ha, ho, hf, hs⟩ := h
  have hfl : s.member.station ≠ .frozen := by
    intro hc; simp [State.atWork, hc] at hw
  have hlu : (s.withNow m.tag).linkUp = true := by
    change s.linkUp = true
    unfold State.linkUp; rw [hw]; rfl
  have hn : NoFlips s := hS.2.1
  rw [exec_frameHandlerTake_quiet m s hS.noFaultToFind]
  have hh' : heldFrame (s.withNow m.tag).link = some (l, f) := hh
  rw [hh']
  dsimp only
  rw [if_pos hlu]
  unfold handleFrame
  rw [if_neg (by exact hfl)]
  unfold handOut
  rw [usingConfig_sound (by exact hn)]
  unfold acceptFrame
  have ha' : acceptance (Block.histLen (beginHandling l f (s.withNow m.tag)).block) f = some (k, st) := ha
  rw [ha']
  dsimp only
  rw [if_neg (by
    rintro ⟨h1, h2⟩
    rw [ho h1] at h2
    exact absurd h2 (by decide))]
  unfold memberFrame
  have hat : heldAtOnce k ((countAccepted l k st (beginHandling l f (s.withNow m.tag))).member.peers.get st) = false := by
    change heldAtOnce k (s.member.peers.get st) = false
    unfold heldAtOnce
    rcases hs with h | h | h <;> cases hq : (s.member.peers.get st).fingerprint <;> simp_all
  rw [hat, if_neg (by decide)]
  obtain ⟨mem, he, h1, h2, h3, h4⟩ := takeRecord_heard (b := countAccepted l k st (beginHandling l f (s.withNow m.tag))) f
    (by exact hn) hp hl (by exact hs)
  rw [he, unlessFrozen_live (by change mem.station ≠ _; rw [h1]; exact hfl)]
  generalize hb : ((countAccepted l k st (beginHandling l f (s.withNow m.tag))).withMember mem).withPort
    (raiseAll (presentAgain st (countAccepted l k st (beginHandling l f (s.withNow m.tag))))
      (countAccepted l k st (beginHandling l f (s.withNow m.tag)))).port = b
  have hport : b.port = (raiseAll (presentAgain st s) s).port := by
    rw [← hb]
    exact raiseAll_port _ rfl
  have hmem : b.member = mem := by rw [← hb]; rfl
  have hho : ∀ u : State, (u.member.peers.get st).state = .present → handOn k st f u = handToBlocks k st f u := by
    intro u hu
    unfold handOn
    rw [if_neg (by rw [hu]; rintro ⟨_, _, h | h⟩ <;> exact absurd h (by decide))]
  have hst : b.member.station = s.member.station := by rw [hmem, h1]; rfl
  have hnum : b.member.number = s.member.number := by rw [hmem, h2]; rfl
  have hpres : (b.member.peers.get st).state = .present := by rw [hmem]; exact h4
  have hbn : NoFlips b := by rw [← hb]; exact hn
  have hnow : b.now = m.tag := by rw [← hb]; exact withNow_now s m.tag
  have hblk : b.block = s.block := by
    unfold State.block
    rw [hport, raiseAll_config]
  unfold joinAndHandOn joinNumber
  by_cases hj : s.member.station = .joining ∧ s.member.number ≠ some st
  · rw [if_pos ⟨by rw [hst]; exact hj.1, by rw [hnum]; exact hj.2, hl, hpres⟩]
    cases hc : f.cycle with
    | none =>
      refine ⟨b, by rw [hho b hpres], ?_⟩
      have hff : frameFinds m f st s = s.withNow m.tag := by unfold frameFinds; rw [hc]
      unfold FoundBy
      rw [hff]
      subst hb
      exact ⟨⟨rfl, rfl, rfl, hst⟩, ⟨rfl, rfl, rfl, hport⟩, ⟨rfl, rfl, rfl⟩, ⟨hnum, hpres⟩, ⟨hbn, rfl, rfl, hnow⟩⟩
    | some n =>
      have hff : frameFinds m f st s =
          adoptFirst n ((s.withNow m.tag).withMember { s.member with station := .running, joinTimer := none }) := by
        unfold frameFinds; rw [hc]; dsimp only; rw [if_pos hj]
      have hja : joinAdopt n b = adoptFirst n (b.withMember { b.member with station := .running, joinTimer := none }) := by
        unfold joinAdopt
        exact usingConfig_sound (by exact hbn) _ _
      dsimp only
      rw [hja]
      have hset : b.now + closeDelay (b.withMember { b.member with station := .running, joinTimer := none }) =
          m.tag + closeDelay ((s.withNow m.tag).withMember { s.member with station := .running, joinTimer := none }) := by
        rw [hnow]
        unfold closeDelay
        change m.tag + span (Block.closeDelayMs b.block * 1000) = m.tag + span (Block.closeDelayMs s.block * 1000)
        rw [hblk]
      obtain ⟨a1, a2, a3, a4, a5, a6, a7, a8, a9, a10, a11, a12, a13⟩ := adoptFirst_fields n
        (s := b.withMember { b.member with station := .running, joinTimer := none }) (by exact hbn)
      obtain ⟨c1, c2, c3, _, _, _, _, _, c9, _⟩ := adoptFirst_fields n
        (s := (s.withNow m.tag).withMember { s.member with station := .running, joinTimer := none }) (by exact hn)
      have hset' : (b.withMember { b.member with station := .running, joinTimer := none }).now +
            closeDelay (b.withMember { b.member with station := .running, joinTimer := none }) =
          ((s.withNow m.tag).withMember { s.member with station := .running, joinTimer := none }).now +
            closeDelay ((s.withNow m.tag).withMember { s.member with station := .running, joinTimer := none }) := by
        rw [show (b.withMember { b.member with station := .running, joinTimer := none }).now = m.tag from hnow,
          show ((s.withNow m.tag).withMember { s.member with station := .running, joinTimer := none }).now = m.tag from
            withNow_now s m.tag]
        rw [hnow] at hset
        exact hset
      have htr : b.tracker = s.tracker := by rw [← hb]; rfl
      rw [hset'] at a1 a2 a3
      rw [unlessFrozen_live (by rw [a9]; exact fun hc => by cases hc), hho _ (by rw [a9]; exact hpres)]
      refine ⟨_, rfl, ?_⟩
      unfold FoundBy
      rw [hff]
      refine ⟨⟨?_, ?_, ?_, ?_⟩, ⟨?_, ?_, ?_, ?_⟩, ⟨?_, ?_, ?_⟩, ⟨?_, ?_⟩, ⟨a10, ?_, ?_, ?_⟩⟩
      · rw [a1, c1, withMember_tracker, htr]; rfl
      · rw [a2, c2, withMember_tracker, htr]; subst hb; rfl
      · rw [a3, c3, withMember_tracker, htr]; subst hb; rfl
      · rw [a9, c9]; rfl
      · rw [a4]; subst hb; rfl
      · rw [a5]; subst hb; rfl
      · rw [a6]; subst hb; rfl
      · rw [a7]; exact hport
      · rw [a8]; subst hb; rfl
      · rw [a8]; subst hb; rfl
      · rw [a8]; subst hb; rfl
      · rw [a9]; exact hnum
      · rw [a9]; exact hpres
      · rw [a11]; subst hb; rfl
      · rw [a12]; subst hb; rfl
      · rw [a13]; exact hnow
  · rw [if_neg (by rintro ⟨a1, a2, _⟩; exact hj ⟨by rw [← hst]; exact a1, by rw [← hnum]; exact a2⟩)]
    refine ⟨b, by rw [hho b hpres], ?_⟩
    have hff : frameFinds m f st s = s.withNow m.tag := by
      unfold frameFinds; cases f.cycle
      · rfl
      · dsimp only; rw [if_neg hj]
    unfold FoundBy
    rw [hff]
    subst hb
    exact ⟨⟨rfl, rfl, rfl, hst⟩, ⟨rfl, rfl, rfl, hport⟩, ⟨rfl, rfl, rfl⟩, ⟨hnum, hpres⟩, ⟨hbn, rfl, rfl, hnow⟩⟩

end Sys2Proof.Machine
end

