-- ==== Sys2Proof/Laws/Judgment.lean ====
section
/-! SUPPORT. The judgment of a pulse window with sound stores: each own sensor's turn, and the whole, written out (R157, R158). -/

namespace Sys2Proof.Machine

/-- An open hit that its channel gives up, while there is no pulse window, at most leaves the Hit Window. -/
theorem discardHit_sound {s : State} (h : NoFlips s) (hw : s.coup.window = none) (c : Channel) (hit : Option OpenHit) :
    discardHit c hit s = s.withCoin { s.coin with
      window := match hit with
        | some o => if o.kind = .own then s.coin.window.filter fun e => e.id != ⟨s.ownNo, chNo c, o.arrival⟩ else s.coin.window
        | none => s.coin.window } := by
  unfold discardHit
  match hit with
  | none => rfl
  | some o =>
    cases hk : o.kind <;> simp only [hk]
    · unfold settleCapture; rw [hw]; rfl
    · rw [requestRemoval_sound h]; rfl
    · rfl

/-- A request made of a channel while there is no pulse window (R38, R158). -/
theorem askChannel_sound {s : State} (h : NoFlips s) (hw : s.coup.window = none) (c : Channel) (ask : MuteRequest) :
    askChannel c ask s = { s with
      channels := { s.channels with units := s.channels.units.set c (askedUnit s.listening ask (s.channels.units.get c)) }
      coin := { s.coin with
        window := askedWindow ask (fun t => ⟨s.ownNo, chNo c, t⟩) (s.channels.units.get c) s.coin.window } } := by
  have hset : s.channels.units.set c (s.channels.units.get c) = s.channels.units := by cases c <;> rfl
  have hopen : s.windowOpen = false := by unfold State.windowOpen; rw [hw]
  cases ask with
  | none =>
    change s = _
    simp only [askedUnit, askedWindow, hset]
  | mute =>
    change muteChannel c s = _
    unfold muteChannel
    dsimp only
    by_cases hc : (s.channels.units.get c).state = .off ∨ (s.channels.units.get c).role = .pulse
    · rw [if_pos hc]
      have hwin : askedWindow .mute (fun t => ⟨s.ownNo, chNo c, t⟩) (s.channels.units.get c) s.coin.window = s.coin.window := by
        unfold askedWindow
        split
        · rw [if_neg]
          rintro ⟨h1, h2, -⟩
          exact hc.elim h1 h2
        · rfl
      simp only [askedUnit, if_pos hc, hset, hwin]
    · rw [if_neg hc]
      unfold disableChannel disableInto
      rw [discardHit_sound (by exact h) (by exact hw)]
      rw [not_or] at hc
      have hor : ¬ ((s.channels.units.get c).state = .off ∨ (s.channels.units.get c).role = .pulse) := not_or.mpr hc
      simp only [askedUnit, if_neg hor, askedWindow, disabledUnit]
      cases ho : (s.channels.units.get c).openHit with
      | none => rfl
      | some o =>
        by_cases hk : o.kind = .own
        · simp only [hk, if_true, if_pos (And.intro hc.1 (And.intro hc.2 trivial)), ne_eq, hc.1, hc.2, not_false_eq_true, and_self]
          rfl
        · simp only [hk, if_false, and_false]
          rfl
  | unmute =>
    change unmuteChannel c s = _
    unfold unmuteChannel
    dsimp only
    have hl : listenState s = if s.listening = true then .quiet else .hush := by
      unfold listenState; rw [hopen, Bool.or_false]
    by_cases hc : (s.channels.units.get c).role = .muted ∧ (s.channels.units.get c).state ≠ .off
    · rw [if_pos hc]
      by_cases hd : (s.channels.units.get c).state = .muted ∨ (s.channels.units.get c).state = .quiet
      · rw [if_pos hd, usingConfig_sound h]
        unfold listenAgain
        rw [hl]
        simp only [askedUnit, if_pos hc, if_pos hd, askedWindow]
        rfl
      · rw [if_neg hd]
        simp only [askedUnit, if_pos hc, if_neg hd, askedWindow]
        rfl
    · rw [if_neg hc]
      simp only [askedUnit, if_neg hc, askedWindow, hset]

/-- What a notice makes of the port has nothing to do with the Coupling Unit. -/
theorem raise_withCoup (n : Notice) (v : CouplingUnit) (s : State) : (raise n (s.withCoup v)).port = (raise n s).port :=
  raise_port n rfl

/-- One own sensor's turn (R157, R158). -/
theorem judgeSensor_sound {s : State} (h : NoFlips s) (hw : s.coup.window = none) (w : PulseWindow) (c : Channel) :
    judgeSensor w c s = sensorJudged w s c := by
  unfold judgeSensor
  rw [usingConfig_sound h]
  unfold judgeIfReferred sensorJudged
  by_cases hr : Block.refPulser s.block (sensorPlace s.ownNo (chNo c)) = stNo w.pulser
  · rw [if_pos hr, if_pos (show Block.refPulser s.block (4 * (s.ownNo - 1) + chNo c) = stNo w.pulser from hr), usingConfig_sound h]
    unfold judgeRecordOf
    dsimp only
    by_cases hs : (judgeRecord (passLevel s (sensorPlace s.ownNo (chNo c))) (w.captures.get c) (s.coup.records.get c)).1.state
        = (s.coup.records.get c).state
    · rw [if_pos hs, askChannel_sound (by exact h) (by exact hw)]
      rw [if_pos (show (judgeRecord (Block.expected s.block (4 * (s.ownNo - 1) + chNo c) -
        Block.couplingMargin s.block (4 * (s.ownNo - 1) + chNo c)) (w.captures.get c) (s.coup.records.get c)).1.state
          = (s.coup.records.get c).state from hs)]
      rfl
    · rw [if_neg hs]
      rw [if_neg (show ¬ (judgeRecord (Block.expected s.block (4 * (s.ownNo - 1) + chNo c) -
        Block.couplingMargin s.block (4 * (s.ownNo - 1) + chNo c)) (w.captures.get c) (s.coup.records.get c)).1.state
          = (s.coup.records.get c).state from hs)]
      unfold raiseNow
      rw [show ∀ n (t : State), raise n t = { t with port := (raise n t).port } from raise_eq, raise_withCoup, askChannel_sound (by exact h) (by exact hw)]
      have hl : ∀ n v, ({ s.withCoup v with port := (raise n s).port } : State).listening = s.listening := fun n v => by
        have hp : ({ s.withCoup v with port := (raise n s).port } : State).block = s.block := congrArg (·.getD []) (raise_config n s)
        unfold State.listening
        rw [hp]
        rfl
      rw [hl]
      rfl
  · rw [if_neg hr, if_neg (show ¬ Block.refPulser s.block (4 * (s.ownNo - 1) + chNo c) = stNo w.pulser from hr)]

/-- A turn leaves the stores' parity, the station, the slot and the want of a window as they are. -/
theorem sensorJudged_keeps (w : PulseWindow) (s : State) (c : Channel) :
    (sensorJudged w s c).fault = s.fault ∧ (sensorJudged w s c).member = s.member ∧
      (sensorJudged w s c).coup.window = s.coup.window ∧ (sensorJudged w s c).coup.slot = s.coup.slot := by
  unfold sensorJudged
  split
  · exact ⟨rfl, rfl, rfl, rfl⟩
  · exact ⟨rfl, rfl, rfl, rfl⟩

/-- The own sensors' turns, one after the other. -/
theorem judgeSensors_sound (w : PulseWindow) (cs : List Channel) {s : State} (h : NoFlips s) (hf : s.member.station ≠ .frozen)
    (hw : s.coup.window = none) : judgeSensors w cs s = cs.foldl (sensorJudged w) s := by
  induction cs generalizing s with
  | nil => rfl
  | cons c cs ih =>
    obtain ⟨k1, k2, k3, -⟩ := sensorJudged_keeps w s c
    unfold judgeSensors
    rw [judgeSensor_sound h hw, unlessFrozen_live (by rw [k2]; exact hf),
      ih (by unfold NoFlips; rw [k1]; exact h) (by rw [k2]; exact hf) (by rw [k3]; exact hw)]
    rfl

/-- The turns leave the stores' parity, the station and the slot as they are. -/
theorem sensorsJudged_keeps (w : PulseWindow) (cs : List Channel) (s : State) :
    (cs.foldl (sensorJudged w) s).fault = s.fault ∧ (cs.foldl (sensorJudged w) s).member = s.member ∧
      (cs.foldl (sensorJudged w) s).coup.slot = s.coup.slot := by
  induction cs generalizing s with
  | nil => exact ⟨rfl, rfl, rfl⟩
  | cons c cs ih =>
    obtain ⟨k1, k2, -, k4⟩ := sensorJudged_keeps w s c
    obtain ⟨j1, j2, j3⟩ := ih (sensorJudged w s c)
    exact ⟨j1.trans k1, j2.trans k2, j3.trans k4⟩

/-- The judgment of a window, no slot waiting for its channel (R156, R157). -/
theorem judgeWindow_sound (w : PulseWindow) {s : State} (h : NoFlips s) (hf : s.member.station ≠ .frozen)
    (hs : ∀ tag, s.coup.slot ≠ .waiting tag) : judgeWindow w s = windowJudged w s := by
  have hj : judgeSensors w channelList (s.withCoup { s.coup with
      window := none, counts := { s.coup.counts with judged := raised s.coup.counts.judged } }) = windowJudged w s :=
    judgeSensors_sound w channelList (by exact h) (by exact hf) rfl
  obtain ⟨-, k2, k3⟩ := sensorsJudged_keeps w [Channel.c1, .c2, .c3, .c4] { s with coup := { s.coup with
      window := none, counts := { s.coup.counts with judged := min (s.coup.counts.judged + 1) 65535 } } }
  have k2' : (windowJudged w s).member = s.member := k2
  have k3' : (windowJudged w s).coup.slot = s.coup.slot := k3
  unfold judgeWindow
  rw [hj, unlessFrozen_live (by rw [k2']; exact hf)]
  unfold reofferPulse
  rw [k3']
  split
  · rename_i tag hc; exact absurd hc (hs tag)
  · rfl

/-- A window in JUDGING is judged once it may be (R156). -/
theorem judgeIfReady_sound {s : State} (w : PulseWindow) (hw : s.coup.window = some w) (h : NoFlips s) (ha : s.atWork = true)
    (hs : ∀ tag, s.coup.slot ≠ .waiting tag) :
    judgeIfReady s = if judgeable s w = true then windowJudged w s else s := by
  have hf : s.member.station ≠ .frozen := fun hc => by
    unfold State.atWork at ha; rw [hc] at ha; exact absurd ha (by decide)
  unfold judgeIfReady
  rw [hw]
  dsimp only
  rw [ha, Bool.true_and, judgeWindow_sound w h hf hs]

/-- Where no window waits, nothing is judged. -/
theorem judgeIfReady_none {s : State} (hw : s.coup.window = none) : judgeIfReady s = s := by
  unfold judgeIfReady
  rw [hw]

/-- The channel as a refused PULSE request leaves it, the slot skipped (R36, R151). -/
def slotRefused (c : Channel) (s : State) : State :=
  skipSlot (s.setUnit c { s.channels.units.get c with role := .listen, state := listenState s, pulseTimer := none })

/-- An offer that the channel takes and a full transmit queue refuses: the channel listens again and the slot is skipped (R151). -/
theorem reofferPulse_refused {s : State} {tag : Tag} {c : Channel} (h : NoFlips s) (hs : s.coup.slot = .waiting tag)
    (hl : later s.now (tag + halfSpacing s) = false) (hc : pulseChannel s = some c)
    (ha : armable (s.channels.units.get c) = true) (hq : 12 ≤ s.link.queue.length) (hd : (s.coup.records.get c).state ≠ .dead) :
    reofferPulse s = slotRefused c s := by
  have hcan : canRequest .pulse (s.setUnit c { s.channels.units.get c with role := .pulse, state := .hush }) = false := by
    have : ¬ s.link.queue.length < queueCapacity := by unfold queueCapacity; omega
    show (decide (s.link.queue.length < queueCapacity) && _) = false
    rw [decide_eq_false this, Bool.false_and]
  have hset (u v : ChannelUnit) : (s.channels.units.set c u).set c v = s.channels.units.set c v := by cases c <;> rfl
  unfold reofferPulse
  rw [hs]
  dsimp only
  rw [usingConfig_sound h]
  unfold offerInTime
  rw [hl, if_neg (by decide), usingConfig_sound h]
  unfold offerPulse
  rw [hc]
  dsimp only
  rw [if_pos ha]
  unfold armChannel request
  rw [hcan, if_neg (by decide)]
  unfold pulseRefused releaseChannel
  rw [if_pos (by
    show (((s.channels.units.set c _).get c).role = .pulse ∧ ((s.channels.units.set c _).get c).state = .hush)
    simp)]
  unfold returnToListen
  rw [usingConfig_sound (by exact h)]
  unfold listenAfterPulse remute
  rw [if_neg (by exact hd)]
  unfold slotRefused skipSlot State.setUnit
  simp only [withCoup_channels, withChannels_channels, Four.get_set, hset]
  rfl

end Sys2Proof.Machine
end

