-- ==== Sys2Proof/Laws/Lanes.lean ====
section
/-! SUPPORT. Every operation keeps the relations between the lanes (`LanesInv`): one lemma for each operation, and the view of the Link Unit
that the invariant reads. -/

namespace Sys2Proof.Machine

@[simp] theorem foldl_lanes {α : Type} (f : State → α → State) (h : ∀ t a, LanesInv t → LanesInv (f t a)) (l : List α) (s : State) (hs : LanesInv s) : LanesInv (l.foldl f s) := by
  induction l generalizing s with
  | nil => exact hs
  | cons a l ih => exact ih _ (h _ _ hs)
theorem laneFaulty_def (l : Lane) (k : Link) : laneFaulty l k ↔ healthOf (k.lanes.get l).run = .faulty := ⟨id, id⟩
/-- The part of the Link Unit that the lanes' invariant reads. -/
def LanesView (home : Lane) (lost : Bool) (rx ry : Nat) (current : Option CurrentFrame) : Prop :=
  (lost = true ↔ healthOf rx = .faulty ∧ healthOf ry = .faulty) ∧
  (lost = false → healthOf (match home with | .x => rx | .y => ry) ≠ .faulty) ∧
  (lost = true → ∀ c, current = some c → c.lane = home)
theorem lanesOk_view (k : Link) : LanesOk k ↔ LanesView k.home k.lost k.lanes.x.run k.lanes.y.run k.current := by
  unfold LanesOk LanesView laneFaulty; cases k.home <;> exact Iff.rfl
@[simp] theorem view_self (s : State) : LanesView s.link.home s.link.lost s.link.lanes.x.run s.link.lanes.y.run s.link.current ↔ LanesInv s := (lanesOk_view s.link).symm
@[simp] theorem lanesInv_link (s : State) : LanesOk s.link ↔ LanesInv s := ⟨id, id⟩
@[simp] theorem view_none {h l a b c} (hv : LanesView h l a b c) : LanesView h l a b none := ⟨hv.1, hv.2.1, fun _ _ h => by cases h⟩
theorem LanesInv.view {s : State} (h : LanesInv s) : LanesView s.link.home s.link.lost s.link.lanes.x.run s.link.lanes.y.run s.link.current := (lanesOk_view _).1 h
@[simp] theorem view_none' (s : State) (h : LanesInv s) : LanesView s.link.home s.link.lost s.link.lanes.x.run s.link.lanes.y.run none := view_none h.view
@[simp] theorem withNow_lanes (s : State) (v) : LanesInv (s.withNow v) ↔ LanesInv s := ⟨id, id⟩
@[simp] theorem withClock_lanes (s : State) (v) : LanesInv (s.withClock v) ↔ LanesInv s := ⟨id, id⟩
@[simp] theorem withTracker_lanes (s : State) (v) : LanesInv (s.withTracker v) ↔ LanesInv s := ⟨id, id⟩
@[simp] theorem withChannels_lanes (s : State) (v) : LanesInv (s.withChannels v) ↔ LanesInv s := ⟨id, id⟩
@[simp] theorem withMember_lanes (s : State) (v) : LanesInv (s.withMember v) ↔ LanesInv s := ⟨id, id⟩
@[simp] theorem withCoin_lanes (s : State) (v) : LanesInv (s.withCoin v) ↔ LanesInv s := ⟨id, id⟩
@[simp] theorem withEvid_lanes (s : State) (v) : LanesInv (s.withEvid v) ↔ LanesInv s := ⟨id, id⟩
@[simp] theorem withAgree_lanes (s : State) (v) : LanesInv (s.withAgree v) ↔ LanesInv s := ⟨id, id⟩
@[simp] theorem withCoup_lanes (s : State) (v) : LanesInv (s.withCoup v) ↔ LanesInv s := ⟨id, id⟩
@[simp] theorem withFault_lanes (s : State) (v) : LanesInv (s.withFault v) ↔ LanesInv s := ⟨id, id⟩
@[simp] theorem withPort_lanes (s : State) (v) : LanesInv (s.withPort v) ↔ LanesInv s := ⟨id, id⟩
@[simp] theorem withFreeCount_lanes (s : State) (v) : LanesInv (s.withFreeCount v) ↔ LanesInv s := ⟨id, id⟩
@[simp] theorem withPending_lanes (s : State) (v) : LanesInv (s.withPending v) ↔ LanesInv s := ⟨id, id⟩
@[simp] theorem setUnit_lanes (s : State) (c v) : LanesInv (s.setUnit c v) ↔ LanesInv s := ⟨id, id⟩
@[simp] theorem setPeer_lanes (s : State) (c v) : LanesInv (s.setPeer c v) ↔ LanesInv s := ⟨id, id⟩
@[simp] theorem withLink_lanes (s : State) (v) : LanesInv (s.withLink v) ↔ LanesView v.home v.lost v.lanes.x.run v.lanes.y.run v.current := lanesOk_view v
@[simp] theorem mk_lanes (a b t ch lk mb co ev ag cu fa po x y) : LanesInv (State.mk a b t ch lk mb co ev ag cu fa po x y) ↔ LanesView lk.home lk.lost lk.lanes.x.run lk.lanes.y.run lk.current := lanesOk_view lk
@[simp] theorem setLane_lanes (s : State) (l : Lane) (u : LaneUnit) (hs : LanesInv s) (h : u.run = (s.link.lanes.get l).run) : LanesInv (s.setLane l u) := by
  have hv := hs.view
  refine (lanesOk_view _).2 ?_
  cases l
  · simp only [PerLane.get] at h
    simp only [State.setLane, State.withLink, PerLane.set, h]; exact hv
  · simp only [PerLane.get] at h
    simp only [State.setLane, State.withLink, PerLane.set, h]; exact hv
@[simp] theorem setLane_run (s : State) (l : Lane) (u : LaneUnit) : (s.setLane l u).link.lanes = s.link.lanes.set l u := rfl
@[simp] theorem resetLink_view : LanesView Link.reset.home Link.reset.lost Link.reset.lanes.x.run Link.reset.lanes.y.run Link.reset.current := by
  refine ⟨by decide, by decide, fun h => by cases h⟩
@[simp] theorem reset_lanes : LanesInv State.reset := (lanesOk_view _).2 resetLink_view
theorem flush_view {l : Link} (h : LanesOk l) : LanesOk (flushLink l) := by
  rw [lanesOk_view] at h ⊢
  unfold flushLink
  split
  · rename_i c hc
    rw [hc] at h
    split
    · exact ⟨h.1, h.2.1, fun hl c' hc' => by cases hc'; exact h.2.2 hl c rfl⟩
    · exact view_none h
  · exact h

@[simp] theorem unlessFrozen_lanes (s : State) (f : State → State) (hf : ∀  t, LanesInv t → LanesInv (f t)) (hs : LanesInv s) : LanesInv (State.unlessFrozen s f) := by
  unfold State.unlessFrozen; (try dsimp only) <;> (try (repeat' split) <;> first | exact hs | (simp (maxDischargeDepth := 40) [*]; done) | (simp +contextual (maxDischargeDepth := 40) [*]; done))
@[simp] theorem rewrite_lanes (p : StoreWord → Bool) (s : State) (hs : LanesInv s) : LanesInv (rewrite p s) := by
  unfold rewrite; (try dsimp only) <;> (try (repeat' split) <;> first | exact hs | (simp (maxDischargeDepth := 40) [*]; done) | (simp +contextual (maxDischargeDepth := 40) [*]; done))
@[simp] theorem arrive_lanes (m : Moment) (s : State) (hs : LanesInv s) : LanesInv (arrive m s) := by
  unfold arrive; (try dsimp only) <;> (try (repeat' split) <;> first | exact hs | (simp (maxDischargeDepth := 40) [*]; done) | (simp +contextual (maxDischargeDepth := 40) [*]; done))
@[simp] theorem raise_lanes (n : Notice) (s : State) (hs : LanesInv s) : LanesInv (raise n s) := by
  unfold raise; (try dsimp only) <;> (try (repeat' split) <;> first | exact hs | (simp (maxDischargeDepth := 40) [*]; done) | (simp +contextual (maxDischargeDepth := 40) [*]; done))
@[simp] theorem raiseNow_lanes (subject : Nat) (d : NoticeDetail) (s : State) (hs : LanesInv s) : LanesInv (raiseNow subject d s) := by
  unfold raiseNow; (try dsimp only) <;> (try (repeat' split) <;> first | exact hs | (simp (maxDischargeDepth := 40) [*]; done) | (simp +contextual (maxDischargeDepth := 40) [*]; done))
@[simp] theorem offerStacked_lanes (s : State) (hs : LanesInv s) : LanesInv (offerStacked s) := by
  unfold offerStacked; (try dsimp only) <;> (try (repeat' split) <;> first | exact hs | (simp (maxDischargeDepth := 40) [*]; done) | (simp +contextual (maxDischargeDepth := 40) [*]; done))
@[simp] theorem beginFrame_lanes (ref : Option Nat) (kind : FrameKind) (payload : List Byte) (s : State) (hs : LanesInv s) : LanesInv (beginFrame ref kind payload s) := by
  have hv := hs.view
  unfold beginFrame
  rw [withLink_lanes]
  exact ⟨hv.1, hv.2.1, fun _ c hc => by cases hc; rfl⟩
@[simp] theorem selectEntry_lanes (c : Candidate) (s : State) (hs : LanesInv s) : LanesInv (selectEntry c s) := by
  unfold selectEntry; (try dsimp only) <;> (try (repeat' split) <;> first | exact hs | (simp (maxDischargeDepth := 40) [*]; done) | (simp +contextual (maxDischargeDepth := 40) [*]; done))
@[simp] theorem selectFrame_lanes (s : State) (hs : LanesInv s) : LanesInv (selectFrame s) := by
  unfold selectFrame; (try dsimp only) <;> (try (repeat' split) <;> first | exact hs | (simp (maxDischargeDepth := 40) [*]; done) | (simp +contextual (maxDischargeDepth := 40) [*]; done))
@[simp] theorem enqueue_lanes (kind : FrameKind) (payload : List Byte) (s : State) (hs : LanesInv s) : LanesInv (enqueue kind payload s) := by
  unfold enqueue; (try dsimp only) <;> (try (repeat' split) <;> first | exact hs | (simp (maxDischargeDepth := 40) [*]; done) | (simp +contextual (maxDischargeDepth := 40) [*]; done))
@[simp] theorem requestUnchecked_lanes (kind : FrameKind) (payload : List Byte) (s : State) (hs : LanesInv s) : LanesInv (requestUnchecked kind payload s) := by
  unfold requestUnchecked; (try dsimp only) <;> (try (repeat' split) <;> first | exact hs | (simp (maxDischargeDepth := 40) [*]; done) | (simp +contextual (maxDischargeDepth := 40) [*]; done))
@[simp] theorem withdraw_lanes (ref : Nat) (s : State) (hs : LanesInv s) : LanesInv (withdraw ref s) := by
  unfold withdraw; (try dsimp only) <;> (try (repeat' split) <;> first | exact hs | (simp (maxDischargeDepth := 40) [*]; done) | (simp +contextual (maxDischargeDepth := 40) [*]; done))
@[simp] theorem removeHit_lanes (id : HitId) (s : State) (hs : LanesInv s) : LanesInv (removeHit id s) := by
  unfold removeHit; (try dsimp only) <;> (try (repeat' split) <;> first | exact hs | (simp (maxDischargeDepth := 40) [*]; done) | (simp +contextual (maxDischargeDepth := 40) [*]; done))
@[simp] theorem settleCapture_lanes (c : Channel) (arrival : Tag) (new : Capture) (s : State) (hs : LanesInv s) : LanesInv (settleCapture c arrival new s) := by
  unfold settleCapture; (try dsimp only) <;> (try (repeat' split) <;> first | exact hs | (simp (maxDischargeDepth := 40) [*]; done) | (simp +contextual (maxDischargeDepth := 40) [*]; done))
@[simp] theorem offerPolicy_lanes (s : State) (hs : LanesInv s) : LanesInv (offerPolicy s) := by
  unfold offerPolicy; (try dsimp only) <;> (try (repeat' split) <;> first | exact hs | (simp (maxDischargeDepth := 40) [*]; done) | (simp +contextual (maxDischargeDepth := 40) [*]; done))
@[simp] theorem channelsWindowOpened_lanes (s : State) (hs : LanesInv s) : LanesInv (channelsWindowOpened s) := by
  unfold channelsWindowOpened; (try dsimp only) <;> (try (repeat' split) <;> first | exact hs | (simp (maxDischargeDepth := 40) [*]; done) | (simp +contextual (maxDischargeDepth := 40) [*]; done))
@[simp] theorem stopStation_lanes (kind : FaultKind) (w : StoreWord) (s : State) (hs : LanesInv s) : LanesInv (stopStation kind w s) := flush_view hs
@[simp] theorem freeze_lanes (kind : FaultKind) (w : StoreWord) (s : State) (hs : LanesInv s) : LanesInv (freeze kind w s) := by
  unfold freeze; (try dsimp only) <;> (try (repeat' split) <;> first | exact hs | (simp (maxDischargeDepth := 40) [*]; done) | (simp +contextual (maxDischargeDepth := 40) [*]; done))
@[simp] theorem resetBlocks_lanes (why : RestartCause) (s : State) (hs : LanesInv s) : LanesInv (resetBlocks why s) := by
  unfold resetBlocks; (try dsimp only) <;> (try (repeat' split) <;> first | exact hs | (simp (maxDischargeDepth := 40) [*]; done) | (simp +contextual (maxDischargeDepth := 40) [*]; done))
@[simp] theorem startBlocks_lanes (s : State) (hs : LanesInv s) : LanesInv (startBlocks s) := by
  unfold startBlocks; (try dsimp only) <;> (try (repeat' split) <;> first | exact hs | (simp (maxDischargeDepth := 40) [*]; done) | (simp +contextual (maxDischargeDepth := 40) [*]; done))
@[simp] theorem enterJoining_lanes (s : State) (hs : LanesInv s) : LanesInv (enterJoining s) := by
  unfold enterJoining; (try dsimp only) <;> (try (repeat' split) <;> first | exact hs | (simp (maxDischargeDepth := 40) [*]; done) | (simp +contextual (maxDischargeDepth := 40) [*]; done))
@[simp] theorem selfRestart_lanes (why : RestartCause) (s : State) (hs : LanesInv s) : LanesInv (selfRestart why s) := by
  unfold selfRestart; (try dsimp only) <;> (try (repeat' split) <;> first | exact hs | (simp (maxDischargeDepth := 40) [*]; done) | (simp +contextual (maxDischargeDepth := 40) [*]; done))
@[simp] theorem secondFault_lanes (s : State) (hs : LanesInv s) : LanesInv (secondFault s) := by
  unfold secondFault; (try dsimp only) <;> (try (repeat' split) <;> first | exact hs | (simp (maxDischargeDepth := 40) [*]; done) | (simp +contextual (maxDischargeDepth := 40) [*]; done))
theorem lookAgain_lanes (s t : State) (h : LanesInv t) : LanesInv (lookAgain s t) := by
  unfold lookAgain
  split
  · exact secondFault_lanes _ h
  · exact h
@[simp] theorem readFault_lanes (kind : FaultKind) (w : StoreWord) (s : State) (hs : LanesInv s) : LanesInv (readFault kind w s) := by
  unfold readFault; (try dsimp only) <;> (try (repeat' split) <;> first | exact hs | (simp (maxDischargeDepth := 40) [*]; done) | (simp +contextual (maxDischargeDepth := 40) [*]; done))
@[simp] theorem readingConfig_lanes (offsets : List Nat) (stop f : State → State) (s : State) (hstop : ∀ t, LanesInv t → LanesInv (stop t)) (hf : ∀ t, LanesInv t → LanesInv (f t)) (hs : LanesInv s) : LanesInv (readingConfig offsets stop f s) := by
  unfold readingConfig; (repeat' split) <;> simp +contextual [*]
/-- The same, of this one state. -/
theorem readingConfig_at_lanes (offsets : List Nat) (stop f : State → State) (s : State) (hs : LanesInv (stop s)) (h : LanesInv (f s)) : LanesInv (readingConfig offsets stop f s) := by
  unfold readingConfig; (repeat' split) <;> simp [*]
theorem usingConfig_at_lanes (offsets : List Nat) (f : State → State) (s : State) (hs : LanesInv s) (h : LanesInv (f s)) : LanesInv (usingConfig offsets f s) :=
  readingConfig_at_lanes offsets id f s hs h
@[simp] theorem usingConfig_lanes (offsets : List Nat) (f : State → State) (s : State) (hf : ∀  t, LanesInv t → LanesInv (f t)) (hs : LanesInv s) : LanesInv (usingConfig offsets f s) := by
  unfold usingConfig; (try dsimp only) <;> (try (repeat' split) <;> first | exact hs | (simp (maxDischargeDepth := 40) [*]; done) | (simp +contextual (maxDischargeDepth := 40) [*]; done))
@[simp] theorem usingWords_lanes (words : List StoreWord) (f : State → State) (s : State) (hf : ∀  t, LanesInv t → LanesInv (f t)) (hs : LanesInv s) : LanesInv (usingWords words f s) := by
  unfold usingWords; (try dsimp only) <;> (try (repeat' split) <;> first | exact hs | (simp (maxDischargeDepth := 40) [*]; done) | (simp +contextual (maxDischargeDepth := 40) [*]; done))
@[simp] theorem boardReads_lanes (words : List StoreWord) (f : State → State) (s : State) (hf : ∀  t, LanesInv t → LanesInv (f t)) (hs : LanesInv s) : LanesInv (boardReads words f s) := by
  unfold boardReads; (try dsimp only) <;> (try (repeat' split) <;> first | exact hs | (simp (maxDischargeDepth := 40) [*]; done) | (simp +contextual (maxDischargeDepth := 40) [*]; done))
@[simp] theorem selectNext_lanes (s : State) (hs : LanesInv s) : LanesInv (selectNext s) := by
  unfold selectNext; (try dsimp only) <;> (try (repeat' split) <;> first | exact hs | (simp (maxDischargeDepth := 40) [*]; done) | (simp +contextual (maxDischargeDepth := 40) [*]; done))
@[simp] theorem request_lanes (kind : FrameKind) (payload : List Byte) (taken : Nat → State → State) (refused : State → State) (s : State) (htaken : ∀ a t, LanesInv t → LanesInv (taken a t)) (hrefused : ∀  t, LanesInv t → LanesInv (refused t)) (hs : LanesInv s) : LanesInv (request kind payload taken refused s) := by
  unfold request; (try dsimp only) <;> (try (repeat' split) <;> first | exact hs | (simp (maxDischargeDepth := 40) [*]; done) | (simp +contextual (maxDischargeDepth := 40) [*]; done))
@[simp] theorem keepNoRef_lanes (_ref : Nat) (s : State) (hs : LanesInv s) : LanesInv (keepNoRef _ref s) := by
  unfold keepNoRef; (try dsimp only) <;> (try (repeat' split) <;> first | exact hs | (simp (maxDischargeDepth := 40) [*]; done) | (simp +contextual (maxDischargeDepth := 40) [*]; done))
@[simp] theorem requestLogout_lanes (p : LogoutPart) (s : State) (hs : LanesInv s) : LanesInv (requestLogout p s) := by
  unfold requestLogout; (try dsimp only) <;> (try (repeat' split) <;> first | exact hs | (simp (maxDischargeDepth := 40) [*]; done) | (simp +contextual (maxDischargeDepth := 40) [*]; done))
@[simp] theorem softFault_lanes (s : State) (hs : LanesInv s) : LanesInv (softFault s) := by
  unfold softFault; (try dsimp only) <;> (try (repeat' split) <;> first | exact hs | (simp (maxDischargeDepth := 40) [*]; done) | (simp +contextual (maxDischargeDepth := 40) [*]; done))
@[simp] theorem checkWindow_lanes (s : State) (hs : LanesInv s) : LanesInv (checkWindow s) := by
  unfold checkWindow; (try dsimp only) <;> (try (repeat' split) <;> first | exact hs | (simp (maxDischargeDepth := 40) [*]; done) | (simp +contextual (maxDischargeDepth := 40) [*]; done))
@[simp] theorem formGroup_lanes (s : State) (hs : LanesInv s) : LanesInv (formGroup s) := by
  unfold formGroup; (try dsimp only) <;> (try (repeat' split) <;> first | exact hs | (simp (maxDischargeDepth := 40) [*]; done) | (simp +contextual (maxDischargeDepth := 40) [*]; done))
@[simp] theorem readWindow_lanes (s : State) (hs : LanesInv s) : LanesInv (readWindow s) := by
  unfold readWindow; (try dsimp only) <;> (try (repeat' split) <;> first | exact hs | (simp (maxDischargeDepth := 40) [*]; done) | (simp +contextual (maxDischargeDepth := 40) [*]; done))
@[simp] theorem hitEntered_lanes (id : HitId) (s : State) (hs : LanesInv s) : LanesInv (hitEntered id s) := by
  unfold hitEntered; (try dsimp only) <;> (try (repeat' split) <;> first | exact hs | (simp (maxDischargeDepth := 40) [*]; done) | (simp +contextual (maxDischargeDepth := 40) [*]; done))
@[simp] theorem requestRemoval_lanes (id : HitId) (s : State) (hs : LanesInv s) : LanesInv (requestRemoval id s) := by
  unfold requestRemoval; (try dsimp only) <;> (try (repeat' split) <;> first | exact hs | (simp (maxDischargeDepth := 40) [*]; done) | (simp +contextual (maxDischargeDepth := 40) [*]; done))
@[simp] theorem discardHit_lanes (c : Channel) (hit : Option OpenHit) (s : State) (hs : LanesInv s) : LanesInv (discardHit c hit s) := by
  unfold discardHit; (try dsimp only) <;> (try (repeat' split) <;> first | exact hs | (simp (maxDischargeDepth := 40) [*]; done) | (simp +contextual (maxDischargeDepth := 40) [*]; done))
@[simp] theorem disableInto_lanes (c : Channel) (u : ChannelUnit) (s : State) (hs : LanesInv s) : LanesInv (disableInto c u s) := by
  unfold disableInto; (try dsimp only) <;> (try (repeat' split) <;> first | exact hs | (simp (maxDischargeDepth := 40) [*]; done) | (simp +contextual (maxDischargeDepth := 40) [*]; done))
@[simp] theorem disableChannel_lanes (c : Channel) (state : ChannelState) (role : Role) (s : State) (hs : LanesInv s) : LanesInv (disableChannel c state role s) := by
  unfold disableChannel; (try dsimp only) <;> (try (repeat' split) <;> first | exact hs | (simp (maxDischargeDepth := 40) [*]; done) | (simp +contextual (maxDischargeDepth := 40) [*]; done))
@[simp] theorem checkApplied_lanes (s : State) (hs : LanesInv s) : LanesInv (checkApplied s) := by
  unfold checkApplied; (try dsimp only) <;> (try (repeat' split) <;> first | exact hs | (simp (maxDischargeDepth := 40) [*]; done) | (simp +contextual (maxDischargeDepth := 40) [*]; done))
@[simp] theorem muteChannel_lanes (c : Channel) (s : State) (hs : LanesInv s) : LanesInv (muteChannel c s) := by
  unfold muteChannel; (try dsimp only) <;> (try (repeat' split) <;> first | exact hs | (simp (maxDischargeDepth := 40) [*]; done) | (simp +contextual (maxDischargeDepth := 40) [*]; done))
@[simp] theorem listenAgain_lanes (c : Channel) (s : State) (hs : LanesInv s) : LanesInv (listenAgain c s) := by
  unfold listenAgain; (try dsimp only) <;> (try (repeat' split) <;> first | exact hs | (simp (maxDischargeDepth := 40) [*]; done) | (simp +contextual (maxDischargeDepth := 40) [*]; done))
@[simp] theorem unmuteChannel_lanes (c : Channel) (s : State) (hs : LanesInv s) : LanesInv (unmuteChannel c s) := by
  unfold unmuteChannel; (try dsimp only) <;> (try (repeat' split) <;> first | exact hs | (simp (maxDischargeDepth := 40) [*]; done) | (simp +contextual (maxDischargeDepth := 40) [*]; done))
@[simp] theorem remute_lanes (c : Channel) (s : State) (hs : LanesInv s) : LanesInv (remute c s) := by
  unfold remute; (try dsimp only) <;> (try (repeat' split) <;> first | exact hs | (simp (maxDischargeDepth := 40) [*]; done) | (simp +contextual (maxDischargeDepth := 40) [*]; done))
@[simp] theorem listenAfterPulse_lanes (c : Channel) (s : State) (hs : LanesInv s) : LanesInv (listenAfterPulse c s) := by
  unfold listenAfterPulse; (try dsimp only) <;> (try (repeat' split) <;> first | exact hs | (simp (maxDischargeDepth := 40) [*]; done) | (simp +contextual (maxDischargeDepth := 40) [*]; done))
@[simp] theorem returnToListen_lanes (c : Channel) (s : State) (hs : LanesInv s) : LanesInv (returnToListen c s) := by
  unfold returnToListen; (try dsimp only) <;> (try (repeat' split) <;> first | exact hs | (simp (maxDischargeDepth := 40) [*]; done) | (simp +contextual (maxDischargeDepth := 40) [*]; done))
@[simp] theorem releaseChannel_lanes (c : Channel) (s : State) (hs : LanesInv s) : LanesInv (releaseChannel c s) := by
  unfold releaseChannel; (try dsimp only) <;> (try (repeat' split) <;> first | exact hs | (simp (maxDischargeDepth := 40) [*]; done) | (simp +contextual (maxDischargeDepth := 40) [*]; done))
@[simp] theorem setSlot_lanes (v : Slot) (s : State) (hs : LanesInv s) : LanesInv (setSlot v s) := by
  unfold setSlot; (try dsimp only) <;> (try (repeat' split) <;> first | exact hs | (simp (maxDischargeDepth := 40) [*]; done) | (simp +contextual (maxDischargeDepth := 40) [*]; done))
@[simp] theorem skipSlot_lanes (s : State) (hs : LanesInv s) : LanesInv (skipSlot s) := by
  unfold skipSlot; (try dsimp only) <;> (try (repeat' split) <;> first | exact hs | (simp (maxDischargeDepth := 40) [*]; done) | (simp +contextual (maxDischargeDepth := 40) [*]; done))
@[simp] theorem slotQueued_lanes (ref : Nat) (s : State) (hs : LanesInv s) : LanesInv (slotQueued ref s) := by
  unfold slotQueued; (try dsimp only) <;> (try (repeat' split) <;> first | exact hs | (simp (maxDischargeDepth := 40) [*]; done) | (simp +contextual (maxDischargeDepth := 40) [*]; done))
@[simp] theorem pulseRefused_lanes (c : Channel) (s : State) (hs : LanesInv s) : LanesInv (pulseRefused c s) := by
  unfold pulseRefused; (try dsimp only) <;> (try (repeat' split) <;> first | exact hs | (simp (maxDischargeDepth := 40) [*]; done) | (simp +contextual (maxDischargeDepth := 40) [*]; done))
@[simp] theorem armChannel_lanes (c : Channel) (s : State) (hs : LanesInv s) : LanesInv (armChannel c s) := by
  unfold armChannel; (try dsimp only) <;> (try (repeat' split) <;> first | exact hs | (simp (maxDischargeDepth := 40) [*]; done) | (simp +contextual (maxDischargeDepth := 40) [*]; done))
@[simp] theorem offerPulse_lanes (s : State) (hs : LanesInv s) : LanesInv (offerPulse s) := by
  unfold offerPulse; (try dsimp only) <;> (try (repeat' split) <;> first | exact hs | (simp (maxDischargeDepth := 40) [*]; done) | (simp +contextual (maxDischargeDepth := 40) [*]; done))
@[simp] theorem offerInTime_lanes (tag : Tag) (s : State) (hs : LanesInv s) : LanesInv (offerInTime tag s) := by
  unfold offerInTime; (try dsimp only) <;> (try (repeat' split) <;> first | exact hs | (simp (maxDischargeDepth := 40) [*]; done) | (simp +contextual (maxDischargeDepth := 40) [*]; done))
@[simp] theorem reofferPulse_lanes (s : State) (hs : LanesInv s) : LanesInv (reofferPulse s) := by
  unfold reofferPulse; (try dsimp only) <;> (try (repeat' split) <;> first | exact hs | (simp (maxDischargeDepth := 40) [*]; done) | (simp +contextual (maxDischargeDepth := 40) [*]; done))
@[simp] theorem releaseNamed_lanes (s : State) (hs : LanesInv s) : LanesInv (releaseNamed s) := by
  unfold releaseNamed; (try dsimp only) <;> (try (repeat' split) <;> first | exact hs | (simp (maxDischargeDepth := 40) [*]; done) | (simp +contextual (maxDischargeDepth := 40) [*]; done))
@[simp] theorem releasePulse_lanes (s : State) (hs : LanesInv s) : LanesInv (releasePulse s) := by
  unfold releasePulse; (try dsimp only) <;> (try (repeat' split) <;> first | exact hs | (simp (maxDischargeDepth := 40) [*]; done) | (simp +contextual (maxDischargeDepth := 40) [*]; done))
@[simp] theorem askChannel_lanes (c : Channel) (ask : MuteRequest) (s : State) (hs : LanesInv s) : LanesInv (askChannel c ask s) := by
  unfold askChannel; (try dsimp only) <;> (try (repeat' split) <;> first | exact hs | (simp (maxDischargeDepth := 40) [*]; done) | (simp +contextual (maxDischargeDepth := 40) [*]; done))
@[simp] theorem judgeRecordOf_lanes (w : PulseWindow) (c : Channel) (s : State) (hs : LanesInv s) : LanesInv (judgeRecordOf w c s) := by
  unfold judgeRecordOf; (try dsimp only) <;> (try (repeat' split) <;> first | exact hs | (simp (maxDischargeDepth := 40) [*]; done) | (simp +contextual (maxDischargeDepth := 40) [*]; done))
@[simp] theorem judgeIfReferred_lanes (w : PulseWindow) (c : Channel) (s : State) (hs : LanesInv s) : LanesInv (judgeIfReferred w c s) := by
  unfold judgeIfReferred; (try dsimp only) <;> (try (repeat' split) <;> first | exact hs | (simp (maxDischargeDepth := 40) [*]; done) | (simp +contextual (maxDischargeDepth := 40) [*]; done))
@[simp] theorem judgeSensor_lanes (w : PulseWindow) (c : Channel) (s : State) (hs : LanesInv s) : LanesInv (judgeSensor w c s) := by
  unfold judgeSensor; (try dsimp only) <;> (try (repeat' split) <;> first | exact hs | (simp (maxDischargeDepth := 40) [*]; done) | (simp +contextual (maxDischargeDepth := 40) [*]; done))
@[simp] theorem judgeSensors_lanes (w : PulseWindow) (l : List Channel) (s : State) (hs : LanesInv s) : LanesInv (judgeSensors w l s) := by
  induction l generalizing s with
  | nil => exact hs
  | cons a l ih => unfold judgeSensors; simp +contextual (maxDischargeDepth := 40) [*]
@[simp] theorem judgeWindow_lanes (w : PulseWindow) (s : State) (hs : LanesInv s) : LanesInv (judgeWindow w s) := by
  unfold judgeWindow; (try dsimp only) <;> (try (repeat' split) <;> first | exact hs | (simp (maxDischargeDepth := 40) [*]; done) | (simp +contextual (maxDischargeDepth := 40) [*]; done))
@[simp] theorem judgeIfReady_lanes (s : State) (hs : LanesInv s) : LanesInv (judgeIfReady s) := by
  unfold judgeIfReady; (try dsimp only) <;> (try (repeat' split) <;> first | exact hs | (simp (maxDischargeDepth := 40) [*]; done) | (simp +contextual (maxDischargeDepth := 40) [*]; done))
@[simp] theorem reofferThenJudge_lanes (s : State) (hs : LanesInv s) : LanesInv (reofferThenJudge s) := by
  unfold reofferThenJudge; (try dsimp only) <;> (try (repeat' split) <;> first | exact hs | (simp (maxDischargeDepth := 40) [*]; done) | (simp +contextual (maxDischargeDepth := 40) [*]; done))
@[simp] theorem closeWindowUnits_lanes (s : State) (hs : LanesInv s) : LanesInv (closeWindowUnits s) := by
  unfold closeWindowUnits; (try dsimp only) <;> (try (repeat' split) <;> first | exact hs | (simp (maxDischargeDepth := 40) [*]; done) | (simp +contextual (maxDischargeDepth := 40) [*]; done))
@[simp] theorem channelsWindowClosed_lanes (s : State) (hs : LanesInv s) : LanesInv (channelsWindowClosed s) := by
  unfold channelsWindowClosed; (try dsimp only) <;> (try (repeat' split) <;> first | exact hs | (simp (maxDischargeDepth := 40) [*]; done) | (simp +contextual (maxDischargeDepth := 40) [*]; done))
@[simp] theorem abandonWindow_lanes (s : State) (hs : LanesInv s) : LanesInv (abandonWindow s) := by
  unfold abandonWindow; (try dsimp only) <;> (try (repeat' split) <;> first | exact hs | (simp (maxDischargeDepth := 40) [*]; done) | (simp +contextual (maxDischargeDepth := 40) [*]; done))
@[simp] theorem openWindow_lanes (s : State) (hs : LanesInv s) : LanesInv (openWindow s) := by
  unfold openWindow; (try dsimp only) <;> (try (repeat' split) <;> first | exact hs | (simp (maxDischargeDepth := 40) [*]; done) | (simp +contextual (maxDischargeDepth := 40) [*]; done))
@[simp] theorem ignoreWindow_lanes (s : State) (hs : LanesInv s) : LanesInv (ignoreWindow s) := by
  unfold ignoreWindow; (try dsimp only) <;> (try (repeat' split) <;> first | exact hs | (simp (maxDischargeDepth := 40) [*]; done) | (simp +contextual (maxDischargeDepth := 40) [*]; done))
@[simp] theorem placeWindow_lanes (pulser : Station) (fire finish : Tag) (s : State) (hs : LanesInv s) : LanesInv (placeWindow pulser fire finish s) := by
  unfold placeWindow; (try dsimp only) <;> (try (repeat' split) <;> first | exact hs | (simp (maxDischargeDepth := 40) [*]; done) | (simp +contextual (maxDischargeDepth := 40) [*]; done))
@[simp] theorem takePulse_lanes (pulser : Station) (stamp : Tag) (s : State) (hs : LanesInv s) : LanesInv (takePulse pulser stamp s) := by
  unfold takePulse; (try dsimp only) <;> (try (repeat' split) <;> first | exact hs | (simp (maxDischargeDepth := 40) [*]; done) | (simp +contextual (maxDischargeDepth := 40) [*]; done))
@[simp] theorem pulseFrame_lanes (pulser : Station) (cycle : Option CycleNo) (stamp : Tag) (s : State) (hs : LanesInv s) : LanesInv (pulseFrame pulser cycle stamp s) := by
  unfold pulseFrame; (try dsimp only) <;> (try (repeat' split) <;> first | exact hs | (simp (maxDischargeDepth := 40) [*]; done) | (simp +contextual (maxDischargeDepth := 40) [*]; done))
@[simp] theorem pulseReported_lanes (s : State) (hs : LanesInv s) : LanesInv (pulseReported s) := by
  unfold pulseReported; (try dsimp only) <;> (try (repeat' split) <;> first | exact hs | (simp (maxDischargeDepth := 40) [*]; done) | (simp +contextual (maxDischargeDepth := 40) [*]; done))
@[simp] theorem armedChannelLost_lanes (s : State) (hs : LanesInv s) : LanesInv (armedChannelLost s) := by
  unfold armedChannelLost; (try dsimp only) <;> (try (repeat' split) <;> first | exact hs | (simp (maxDischargeDepth := 40) [*]; done) | (simp +contextual (maxDischargeDepth := 40) [*]; done))
@[simp] theorem endSlotAtCyc_lanes (s : State) (hs : LanesInv s) : LanesInv (endSlotAtCyc s) := by
  unfold endSlotAtCyc; (try dsimp only) <;> (try (repeat' split) <;> first | exact hs | (simp (maxDischargeDepth := 40) [*]; done) | (simp +contextual (maxDischargeDepth := 40) [*]; done))
@[simp] theorem couplingCyc_lanes (s : State) (hs : LanesInv s) : LanesInv (couplingCyc s) := by
  unfold couplingCyc; (try dsimp only) <;> (try (repeat' split) <;> first | exact hs | (simp (maxDischargeDepth := 40) [*]; done) | (simp +contextual (maxDischargeDepth := 40) [*]; done))
@[simp] theorem placeInReturn_lanes (s : State) (hs : LanesInv s) : LanesInv (placeInReturn s) := by
  unfold placeInReturn; (try dsimp only) <;> (try (repeat' split) <;> first | exact hs | (simp (maxDischargeDepth := 40) [*]; done) | (simp +contextual (maxDischargeDepth := 40) [*]; done))
@[simp] theorem placeIfDue_lanes (s : State) (hs : LanesInv s) : LanesInv (placeIfDue s) := by
  unfold placeIfDue; (try dsimp only) <;> (try (repeat' split) <;> first | exact hs | (simp (maxDischargeDepth := 40) [*]; done) | (simp +contextual (maxDischargeDepth := 40) [*]; done))
@[simp] theorem placeSlot_lanes (s : State) (hs : LanesInv s) : LanesInv (placeSlot s) := by
  unfold placeSlot; (try dsimp only) <;> (try (repeat' split) <;> first | exact hs | (simp (maxDischargeDepth := 40) [*]; done) | (simp +contextual (maxDischargeDepth := 40) [*]; done))
@[simp] theorem coinCounts_lanes (f : CoincidenceCounts → CoincidenceCounts) (s : State) (hs : LanesInv s) : LanesInv (coinCounts f s) := by
  unfold coinCounts; (try dsimp only) <;> (try (repeat' split) <;> first | exact hs | (simp (maxDischargeDepth := 40) [*]; done) | (simp +contextual (maxDischargeDepth := 40) [*]; done))
@[simp] theorem enterWindow_lanes (e : HitEntry) (s : State) (hs : LanesInv s) : LanesInv (enterWindow e s) := by
  unfold enterWindow; (try dsimp only) <;> (try (repeat' split) <;> first | exact hs | (simp (maxDischargeDepth := 40) [*]; done) | (simp +contextual (maxDischargeDepth := 40) [*]; done))
@[simp] theorem offerOwnHit_lanes (c : Channel) (arrival : Tag) (phase : Phase) (s : State) (hs : LanesInv s) : LanesInv (offerOwnHit c arrival phase s) := by
  unfold offerOwnHit; (try dsimp only) <;> (try (repeat' split) <;> first | exact hs | (simp (maxDischargeDepth := 40) [*]; done) | (simp +contextual (maxDischargeDepth := 40) [*]; done))
@[simp] theorem enterOwnHit_lanes (c : Channel) (arrival : Tag) (phase : Phase) (s : State) (hs : LanesInv s) : LanesInv (enterOwnHit c arrival phase s) := by
  unfold enterOwnHit; (try dsimp only) <;> (try (repeat' split) <;> first | exact hs | (simp (maxDischargeDepth := 40) [*]; done) | (simp +contextual (maxDischargeDepth := 40) [*]; done))
@[simp] theorem fillFeatures_lanes (id : HitId) (f : Features) (s : State) (hs : LanesInv s) : LanesInv (fillFeatures id f s) := by
  unfold fillFeatures; (try dsimp only) <;> (try (repeat' split) <;> first | exact hs | (simp (maxDischargeDepth := 40) [*]; done) | (simp +contextual (maxDischargeDepth := 40) [*]; done))
@[simp] theorem eventDropped_lanes (s : State) (hs : LanesInv s) : LanesInv (eventDropped s) := by
  unfold eventDropped; (try dsimp only) <;> (try (repeat' split) <;> first | exact hs | (simp (maxDischargeDepth := 40) [*]; done) | (simp +contextual (maxDischargeDepth := 40) [*]; done))
@[simp] theorem ownerTaken_lanes (ref : Nat) (s : State) (hs : LanesInv s) : LanesInv (ownerTaken ref s) := by
  unfold ownerTaken; (try dsimp only) <;> (try (repeat' split) <;> first | exact hs | (simp (maxDischargeDepth := 40) [*]; done) | (simp +contextual (maxDischargeDepth := 40) [*]; done))
@[simp] theorem requestAsOwner_lanes (members : List HitEntry) (crowded : Bool) (s : State) (hs : LanesInv s) : LanesInv (requestAsOwner members crowded s) := by
  unfold requestAsOwner; (try dsimp only) <;> (try (repeat' split) <;> first | exact hs | (simp (maxDischargeDepth := 40) [*]; done) | (simp +contextual (maxDischargeDepth := 40) [*]; done))
@[simp] theorem publishAsOwner_lanes (members : List HitEntry) (crowded : Bool) (s : State) (hs : LanesInv s) : LanesInv (publishAsOwner members crowded s) := by
  unfold publishAsOwner; (try dsimp only) <;> (try (repeat' split) <;> first | exact hs | (simp (maxDischargeDepth := 40) [*]; done) | (simp +contextual (maxDischargeDepth := 40) [*]; done))
@[simp] theorem addPending_lanes (members : List HitEntry) (crowded : Bool) (rank : Nat) (s : State) (hs : LanesInv s) : LanesInv (addPending members crowded rank s) := by
  unfold addPending; (try dsimp only) <;> (try (repeat' split) <;> first | exact hs | (simp (maxDischargeDepth := 40) [*]; done) | (simp +contextual (maxDischargeDepth := 40) [*]; done))
@[simp] theorem pendGroup_lanes (members : List HitEntry) (crowded : Bool) (rank : Nat) (s : State) (hs : LanesInv s) : LanesInv (pendGroup members crowded rank s) := by
  unfold pendGroup; (try dsimp only) <;> (try (repeat' split) <;> first | exact hs | (simp (maxDischargeDepth := 40) [*]; done) | (simp +contextual (maxDischargeDepth := 40) [*]; done))
@[simp] theorem closeGroup_lanes (g : OpenGroup) (s : State) (hs : LanesInv s) : LanesInv (closeGroup g s) := by
  unfold closeGroup; (try dsimp only) <;> (try (repeat' split) <;> first | exact hs | (simp (maxDischargeDepth := 40) [*]; done) | (simp +contextual (maxDischargeDepth := 40) [*]; done))
@[simp] theorem closeDueGroups_lanes (n : Nat) (s : State) (hs : LanesInv s) : LanesInv (closeDueGroups n s) := by
  induction n generalizing s with
  | zero => exact hs
  | succ n ih => unfold closeDueGroups; (repeat' split) <;> first | assumption | simp +contextual (maxDischargeDepth := 40) [*]
@[simp] theorem standInTaken_lanes (p : PendingGroup) (ref : Nat) (s : State) (hs : LanesInv s) : LanesInv (standInTaken p ref s) := by
  unfold standInTaken; (try dsimp only) <;> (try (repeat' split) <;> first | exact hs | (simp (maxDischargeDepth := 40) [*]; done) | (simp +contextual (maxDischargeDepth := 40) [*]; done))
@[simp] theorem standInRefused_lanes (p : PendingGroup) (s : State) (hs : LanesInv s) : LanesInv (standInRefused p s) := by
  unfold standInRefused; (try dsimp only) <;> (try (repeat' split) <;> first | exact hs | (simp (maxDischargeDepth := 40) [*]; done) | (simp +contextual (maxDischargeDepth := 40) [*]; done))
@[simp] theorem requestAsStandIn_lanes (p : PendingGroup) (s : State) (hs : LanesInv s) : LanesInv (requestAsStandIn p s) := by
  unfold requestAsStandIn; (try dsimp only) <;> (try (repeat' split) <;> first | exact hs | (simp (maxDischargeDepth := 40) [*]; done) | (simp +contextual (maxDischargeDepth := 40) [*]; done))
@[simp] theorem publishAsStandIn_lanes (p : PendingGroup) (s : State) (hs : LanesInv s) : LanesInv (publishAsStandIn p s) := by
  unfold publishAsStandIn; (try dsimp only) <;> (try (repeat' split) <;> first | exact hs | (simp (maxDischargeDepth := 40) [*]; done) | (simp +contextual (maxDischargeDepth := 40) [*]; done))
@[simp] theorem eventOutcome_lanes (ref : Nat) (wasSent : Bool) (s : State) (hs : LanesInv s) : LanesInv (eventOutcome ref wasSent s) := by
  unfold eventOutcome; (try dsimp only) <;> (try (repeat' split) <;> first | exact hs | (simp (maxDischargeDepth := 40) [*]; done) | (simp +contextual (maxDischargeDepth := 40) [*]; done))
@[simp] theorem peerHit_lanes (sender : Station) (offset : Tag) (s : State) (h : HitRecord) (hs : LanesInv s) : LanesInv (peerHit sender offset s h) := by
  unfold peerHit; (try dsimp only) <;> (try (repeat' split) <;> first | exact hs | (simp (maxDischargeDepth := 40) [*]; done) | (simp +contextual (maxDischargeDepth := 40) [*]; done))
@[simp] theorem takePeerHit_lanes (sender : Station) (offset : Tag) (h : HitRecord) (s : State) (hs : LanesInv s) : LanesInv (takePeerHit sender offset h s) := by
  unfold takePeerHit; (try dsimp only) <;> (try (repeat' split) <;> first | exact hs | (simp (maxDischargeDepth := 40) [*]; done) | (simp +contextual (maxDischargeDepth := 40) [*]; done))
@[simp] theorem takePeerHits_lanes (sender : Station) (offset : Tag) (l : List HitRecord) (s : State) (hs : LanesInv s) : LanesInv (takePeerHits sender offset l s) := by
  induction l generalizing s with
  | nil => exact hs
  | cons h t ih => unfold takePeerHits; exact unlessFrozen_lanes _ _ (fun t ht => ih t ht) (takePeerHit_lanes sender offset h s hs)
@[simp] theorem closeIfMoved_lanes (old : Option Tag) (s : State) (hs : LanesInv s) : LanesInv (closeIfMoved old s) := by
  unfold closeIfMoved; (try dsimp only) <;> (try (repeat' split) <;> first | exact hs | (simp (maxDischargeDepth := 40) [*]; done) | (simp +contextual (maxDischargeDepth := 40) [*]; done))
@[simp] theorem takeHits_lanes (sender : Station) (f : RxFrame) (s : State) (hs : LanesInv s) : LanesInv (takeHits sender f s) := by
  unfold takeHits; (try dsimp only) <;> (try (repeat' split) <;> first | exact hs | (simp (maxDischargeDepth := 40) [*]; done) | (simp +contextual (maxDischargeDepth := 40) [*]; done))
@[simp] theorem readForHits_lanes (sender : Station) (f : RxFrame) (s : State) (hs : LanesInv s) : LanesInv (readForHits sender f s) := by
  unfold readForHits; (try dsimp only) <;> (try (repeat' split) <;> first | exact hs | (simp (maxDischargeDepth := 40) [*]; done) | (simp +contextual (maxDischargeDepth := 40) [*]; done))
@[simp] theorem hitFrame_lanes (sender : Station) (f : RxFrame) (s : State) (hs : LanesInv s) : LanesInv (hitFrame sender f s) := by
  unfold hitFrame; (try dsimp only) <;> (try (repeat' split) <;> first | exact hs | (simp (maxDischargeDepth := 40) [*]; done) | (simp +contextual (maxDischargeDepth := 40) [*]; done))
@[simp] theorem withdrawPending_lanes (p : PendingGroup) (s : State) (hs : LanesInv s) : LanesInv (withdrawPending p s) := by
  unfold withdrawPending; (try dsimp only) <;> (try (repeat' split) <;> first | exact hs | (simp (maxDischargeDepth := 40) [*]; done) | (simp +contextual (maxDischargeDepth := 40) [*]; done))
@[simp] theorem eventReceipt_lanes (e : EventRecord) (s : State) (hs : LanesInv s) : LanesInv (eventReceipt e s) := by
  unfold eventReceipt; (try dsimp only) <;> (try (repeat' split) <;> first | exact hs | (simp (maxDischargeDepth := 40) [*]; done) | (simp +contextual (maxDischargeDepth := 40) [*]; done))
@[simp] theorem discardCoincidence_lanes (s : State) (hs : LanesInv s) : LanesInv (discardCoincidence s) := by
  unfold discardCoincidence; (try dsimp only) <;> (try (repeat' split) <;> first | exact hs | (simp (maxDischargeDepth := 40) [*]; done) | (simp +contextual (maxDischargeDepth := 40) [*]; done))
@[simp] theorem evidCounts_lanes (f : EvidenceCounts → EvidenceCounts) (s : State) (hs : LanesInv s) : LanesInv (evidCounts f s) := by
  unfold evidCounts; (try dsimp only) <;> (try (repeat' split) <;> first | exact hs | (simp (maxDischargeDepth := 40) [*]; done) | (simp +contextual (maxDischargeDepth := 40) [*]; done))
@[simp] theorem judgeApplied_lanes (sender : Station) (e : EventRecord) (s : State) (hs : LanesInv s) : LanesInv (judgeApplied sender e s) := by
  unfold judgeApplied
  split
  · exact evidCounts_lanes _ _ hs
  · split
    · exact evidCounts_lanes _ _ hs
    · exact evidCounts_lanes _ _ (checkApplied_lanes _ hs)
@[simp] theorem applyEvent_lanes (sender : Station) (e : EventRecord) (s : State) (hs : LanesInv s) : LanesInv (applyEvent sender e s) := by
  unfold applyEvent; (try dsimp only) <;> (try (repeat' split) <;> first | exact hs | (simp (maxDischargeDepth := 40) [*]; done) | (simp +contextual (maxDischargeDepth := 40) [*]; done))
@[simp] theorem foldOne_lanes (closed : Option CycleNo) (n : Nat) (s : State) (hs : LanesInv s) : LanesInv (foldOne closed n s) := by
  unfold foldOne; (try dsimp only) <;> (try (repeat' split) <;> first | exact hs | (simp (maxDischargeDepth := 40) [*]; done) | (simp +contextual (maxDischargeDepth := 40) [*]; done))
@[simp] theorem foldSegment_lanes (closed : Option CycleNo) (n : Nat) (s : State) (hs : LanesInv s) : LanesInv (foldSegment closed n s) := by
  unfold foldSegment; (try dsimp only) <;> (try (repeat' split) <;> first | exact hs | (simp (maxDischargeDepth := 40) [*]; done) | (simp +contextual (maxDischargeDepth := 40) [*]; done))
@[simp] theorem foldSegments_lanes (cl : Option CycleNo) (l : List Nat) (s : State) (hs : LanesInv s) : LanesInv (foldSegments cl l s) := by
  induction l generalizing s with
  | nil => exact hs
  | cons a l ih => unfold foldSegments; simp +contextual (maxDischargeDepth := 40) [*]
@[simp] theorem noticeChange_lanes (cycle : Option CycleNo) (cause : SegCause) (n : Nat) (old new : SegmentRecord) (s : State) (hs : LanesInv s) : LanesInv (noticeChange cycle cause n old new s) := by
  unfold noticeChange; (try dsimp only) <;> (try (repeat' split) <;> first | exact hs | (simp (maxDischargeDepth := 40) [*]; done) | (simp +contextual (maxDischargeDepth := 40) [*]; done))
@[simp] theorem raiseChanges_lanes (cycle : Option CycleNo) (cause : SegCause) (old new : List SegmentRecord) (s : State) (hs : LanesInv s) : LanesInv (raiseChanges cycle cause old new s) := by
  unfold raiseChanges; (try dsimp only) <;> (try (repeat' split) <;> first | exact hs | (simp (maxDischargeDepth := 40) [*]; done) | (simp +contextual (maxDischargeDepth := 40) [*]; done))
@[simp] theorem setOutputs_lanes (s : State) (hs : LanesInv s) : LanesInv (setOutputs s) := by
  unfold setOutputs; (try dsimp only) <;> (try (repeat' split) <;> first | exact hs | (simp (maxDischargeDepth := 40) [*]; done) | (simp +contextual (maxDischargeDepth := 40) [*]; done))
@[simp] theorem deriveOutputs_lanes (s : State) (hs : LanesInv s) : LanesInv (deriveOutputs s) := by
  unfold deriveOutputs; (try dsimp only) <;> (try (repeat' split) <;> first | exact hs | (simp (maxDischargeDepth := 40) [*]; done) | (simp +contextual (maxDischargeDepth := 40) [*]; done))
@[simp] theorem deriveUnlessHeld_lanes (s : State) (hs : LanesInv s) : LanesInv (deriveUnlessHeld s) := by
  unfold deriveUnlessHeld; (try dsimp only) <;> (try (repeat' split) <;> first | exact hs | (simp (maxDischargeDepth := 40) [*]; done) | (simp +contextual (maxDischargeDepth := 40) [*]; done))
@[simp] theorem standingChanged_lanes (s : State) (hs : LanesInv s) : LanesInv (standingChanged s) := by
  unfold standingChanged; (try dsimp only) <;> (try (repeat' split) <;> first | exact hs | (simp (maxDischargeDepth := 40) [*]; done) | (simp +contextual (maxDischargeDepth := 40) [*]; done))
@[simp] theorem emptyApplied_lanes (s : State) (hs : LanesInv s) : LanesInv (emptyApplied s) := by
  unfold emptyApplied; (try dsimp only) <;> (try (repeat' split) <;> first | exact hs | (simp (maxDischargeDepth := 40) [*]; done) | (simp +contextual (maxDischargeDepth := 40) [*]; done))
@[simp] theorem raiseAge_lanes (s : State) (hs : LanesInv s) : LanesInv (raiseAge s) := by
  unfold raiseAge; (try dsimp only) <;> (try (repeat' split) <;> first | exact hs | (simp (maxDischargeDepth := 40) [*]; done) | (simp +contextual (maxDischargeDepth := 40) [*]; done))
@[simp] theorem afterFold_lanes (closed : Option CycleNo) (old : List SegmentRecord) (s : State) (hs : LanesInv s) : LanesInv (afterFold closed old s) := by
  unfold afterFold; (try dsimp only) <;> (try (repeat' split) <;> first | exact hs | (simp (maxDischargeDepth := 40) [*]; done) | (simp +contextual (maxDischargeDepth := 40) [*]; done))
@[simp] theorem foldTable_lanes (closed : Option CycleNo) (s : State) (hs : LanesInv s) : LanesInv (foldTable closed s) := by
  unfold foldTable; (try dsimp only) <;> (try (repeat' split) <;> first | exact hs | (simp (maxDischargeDepth := 40) [*]; done) | (simp +contextual (maxDischargeDepth := 40) [*]; done))
@[simp] theorem evidenceClose_lanes (closed : Option CycleNo) (kind : CloseKind) (s : State) (hs : LanesInv s) : LanesInv (evidenceClose closed kind s) := by
  unfold evidenceClose; (try dsimp only) <;> (try (repeat' split) <;> first | exact hs | (simp (maxDischargeDepth := 40) [*]; done) | (simp +contextual (maxDischargeDepth := 40) [*]; done))
@[simp] theorem controlOne_lanes (c : Control) (n : Nat) (s : State) (hs : LanesInv s) : LanesInv (controlOne c n s) := by
  unfold controlOne; (try dsimp only) <;> (try (repeat' split) <;> first | exact hs | (simp (maxDischargeDepth := 40) [*]; done) | (simp +contextual (maxDischargeDepth := 40) [*]; done))
@[simp] theorem controlSegments_lanes (c : Control) (l : List Nat) (s : State) (hs : LanesInv s) : LanesInv (controlSegments c l s) := by
  induction l generalizing s with
  | nil => exact hs
  | cons a l ih => unfold controlSegments; simp +contextual (maxDischargeDepth := 40) [*]
@[simp] theorem afterControl_lanes (cause : SegCause) (old : List SegmentRecord) (s : State) (hs : LanesInv s) : LanesInv (afterControl cause old s) := by
  unfold afterControl; (try dsimp only) <;> (try (repeat' split) <;> first | exact hs | (simp (maxDischargeDepth := 40) [*]; done) | (simp +contextual (maxDischargeDepth := 40) [*]; done))
@[simp] theorem applyControl_lanes (c : Control) (s : State) (hs : LanesInv s) : LanesInv (applyControl c s) := by
  unfold applyControl; (try dsimp only) <;> (try (repeat' split) <;> first | exact hs | (simp (maxDischargeDepth := 40) [*]; done) | (simp +contextual (maxDischargeDepth := 40) [*]; done))
@[simp] theorem agreeCounts_lanes (f : AgreementCounts → AgreementCounts) (s : State) (hs : LanesInv s) : LanesInv (agreeCounts f s) := by
  unfold agreeCounts; (try dsimp only) <;> (try (repeat' split) <;> first | exact hs | (simp (maxDischargeDepth := 40) [*]; done) | (simp +contextual (maxDischargeDepth := 40) [*]; done))
@[simp] theorem setTransfer_lanes (t : Transfer) (s : State) (hs : LanesInv s) : LanesInv (setTransfer t s) := by
  unfold setTransfer; (try dsimp only) <;> (try (repeat' split) <;> first | exact hs | (simp (maxDischargeDepth := 40) [*]; done) | (simp +contextual (maxDischargeDepth := 40) [*]; done))
@[simp] theorem abandonTransfer_lanes (cause : AbandonCause) (s : State) (hs : LanesInv s) : LanesInv (abandonTransfer cause s) := by
  unfold abandonTransfer; (try dsimp only) <;> (try (repeat' split) <;> first | exact hs | (simp (maxDischargeDepth := 40) [*]; done) | (simp +contextual (maxDischargeDepth := 40) [*]; done))
@[simp] theorem donorGone_lanes (st : Station) (s : State) (hs : LanesInv s) : LanesInv (donorGone st s) := by
  unfold donorGone; (try dsimp only) <;> (try (repeat' split) <;> first | exact hs | (simp (maxDischargeDepth := 40) [*]; done) | (simp +contextual (maxDischargeDepth := 40) [*]; done))
@[simp] theorem abortTransfer_lanes (s : State) (hs : LanesInv s) : LanesInv (abortTransfer s) := by
  unfold abortTransfer; (try dsimp only) <;> (try (repeat' split) <;> first | exact hs | (simp (maxDischargeDepth := 40) [*]; done) | (simp +contextual (maxDischargeDepth := 40) [*]; done))
@[simp] theorem rowTaken_lanes (row : RowFrame) (ref : Nat) (s : State) (hs : LanesInv s) : LanesInv (rowTaken row ref s) := by
  unfold rowTaken; (try dsimp only) <;> (try (repeat' split) <;> first | exact hs | (simp (maxDischargeDepth := 40) [*]; done) | (simp +contextual (maxDischargeDepth := 40) [*]; done))
@[simp] theorem requestRow_lanes (row : RowFrame) (s : State) (hs : LanesInv s) : LanesInv (requestRow row s) := by
  unfold requestRow; (try dsimp only) <;> (try (repeat' split) <;> first | exact hs | (simp (maxDischargeDepth := 40) [*]; done) | (simp +contextual (maxDischargeDepth := 40) [*]; done))
@[simp] theorem makeRow_lanes (row : RowFrame) (s : State) (hs : LanesInv s) : LanesInv (makeRow row s) := by
  unfold makeRow; (try dsimp only) <;> (try (repeat' split) <;> first | exact hs | (simp (maxDischargeDepth := 40) [*]; done) | (simp +contextual (maxDischargeDepth := 40) [*]; done))
@[simp] theorem sendRow_lanes (first : Nat) (s : State) (hs : LanesInv s) : LanesInv (sendRow first s) := by
  unfold sendRow; (try dsimp only) <;> (try (repeat' split) <;> first | exact hs | (simp (maxDischargeDepth := 40) [*]; done) | (simp +contextual (maxDischargeDepth := 40) [*]; done))
@[simp] theorem rowOutcome_lanes (ref : Nat) (wasSent : Bool) (s : State) (hs : LanesInv s) : LanesInv (rowOutcome ref wasSent s) := by
  unfold rowOutcome; (try dsimp only) <;> (try (repeat' split) <;> first | exact hs | (simp (maxDischargeDepth := 40) [*]; done) | (simp +contextual (maxDischargeDepth := 40) [*]; done))
@[simp] theorem digestNotSent_lanes (s : State) (hs : LanesInv s) : LanesInv (digestNotSent s) := by
  unfold digestNotSent; (try dsimp only) <;> (try (repeat' split) <;> first | exact hs | (simp (maxDischargeDepth := 40) [*]; done) | (simp +contextual (maxDischargeDepth := 40) [*]; done))
@[simp] theorem stopSending_lanes (s : State) (hs : LanesInv s) : LanesInv (stopSending s) := by
  unfold stopSending; (try dsimp only) <;> (try (repeat' split) <;> first | exact hs | (simp (maxDischargeDepth := 40) [*]; done) | (simp +contextual (maxDischargeDepth := 40) [*]; done))
@[simp] theorem storeSnapshot_lanes (closed : Option CycleNo) (s : State) (hs : LanesInv s) : LanesInv (storeSnapshot closed s) := by
  unfold storeSnapshot; (try dsimp only) <;> (try (repeat' split) <;> first | exact hs | (simp (maxDischargeDepth := 40) [*]; done) | (simp +contextual (maxDischargeDepth := 40) [*]; done))
@[simp] theorem requestDigest_lanes (snap : Snapshot) (digest : BitVec 32) (s : State) (hs : LanesInv s) : LanesInv (requestDigest snap digest s) := by
  unfold requestDigest; (try dsimp only) <;> (try (repeat' split) <;> first | exact hs | (simp (maxDischargeDepth := 40) [*]; done) | (simp +contextual (maxDischargeDepth := 40) [*]; done))
@[simp] theorem digestSnapshot_lanes (snap : Snapshot) (s : State) (hs : LanesInv s) : LanesInv (digestSnapshot snap s) := by
  unfold digestSnapshot; (try dsimp only) <;> (try (repeat' split) <;> first | exact hs | (simp (maxDischargeDepth := 40) [*]; done) | (simp +contextual (maxDischargeDepth := 40) [*]; done))
@[simp] theorem startDigestWindow_lanes (s : State) (hs : LanesInv s) : LanesInv (startDigestWindow s) := by
  unfold startDigestWindow; (try dsimp only) <;> (try (repeat' split) <;> first | exact hs | (simp (maxDischargeDepth := 40) [*]; done) | (simp +contextual (maxDischargeDepth := 40) [*]; done))
@[simp] theorem takeSnapshot_lanes (closed : Option CycleNo) (s : State) (hs : LanesInv s) : LanesInv (takeSnapshot closed s) := by
  unfold takeSnapshot; (try dsimp only) <;> (try (repeat' split) <;> first | exact hs | (simp (maxDischargeDepth := 40) [*]; done) | (simp +contextual (maxDischargeDepth := 40) [*]; done))
@[simp] theorem copyTable_lanes (closed : Option CycleNo) (s : State) (hs : LanesInv s) : LanesInv (copyTable closed s) := by
  unfold copyTable; (try dsimp only) <;> (try (repeat' split) <;> first | exact hs | (simp (maxDischargeDepth := 40) [*]; done) | (simp +contextual (maxDischargeDepth := 40) [*]; done))
@[simp] theorem agreementClose_lanes (closed : Option CycleNo) (s : State) (hs : LanesInv s) : LanesInv (agreementClose closed s) := by
  unfold agreementClose; (try dsimp only) <;> (try (repeat' split) <;> first | exact hs | (simp (maxDischargeDepth := 40) [*]; done) | (simp +contextual (maxDischargeDepth := 40) [*]; done))
@[simp] theorem setStanding_lanes (v : Standing) (s : State) (hs : LanesInv s) : LanesInv (setStanding v s) := by
  unfold setStanding; (try dsimp only) <;> (try (repeat' split) <;> first | exact hs | (simp (maxDischargeDepth := 40) [*]; done) | (simp +contextual (maxDischargeDepth := 40) [*]; done))
@[simp] theorem decideAs_lanes (v : Standing) (s : State) (hs : LanesInv s) : LanesInv (decideAs v s) :=
  setStanding_lanes v _ hs
@[simp] theorem enterAwaiting_lanes (donor : Station) (cycle : Option CycleNo) (v : BitVec 32) (s : State) (hs : LanesInv s) : LanesInv (enterAwaiting donor cycle v s) := by
  unfold enterAwaiting; (try dsimp only) <;> (try (repeat' split) <;> first | exact hs | (simp (maxDischargeDepth := 40) [*]; done) | (simp +contextual (maxDischargeDepth := 40) [*]; done))
@[simp] theorem actOnStanding_lanes (own : Station) (standing : Standing) (cycle : Option CycleNo) (verdict : Option (BitVec 32 × Station)) (senders : List DigestSender) (s : State) (hs : LanesInv s) : LanesInv (actOnStanding own standing cycle verdict senders s) := by
  unfold actOnStanding; (try dsimp only) <;> (try (repeat' split) <;> first | exact hs | (simp (maxDischargeDepth := 40) [*]; done) | (simp +contextual (maxDischargeDepth := 40) [*]; done))
@[simp] theorem decideStanding_lanes (own : Station) (snap : Snapshot) (digest : BitVec 32) (senders : List DigestSender) (s : State) (hs : LanesInv s) : LanesInv (decideStanding own snap digest senders s) := by
  unfold decideStanding; (try dsimp only) <;> (try (repeat' split) <;> first | exact hs | (simp (maxDischargeDepth := 40) [*]; done) | (simp +contextual (maxDischargeDepth := 40) [*]; done))
@[simp] theorem decideAdoption_lanes (m : CycleNo) (senders : List DigestSender) (s : State) (hs : LanesInv s) : LanesInv (decideAdoption m senders s) := by
  unfold decideAdoption; (try dsimp only) <;> (try (repeat' split) <;> first | exact hs | (simp (maxDischargeDepth := 40) [*]; done) | (simp +contextual (maxDischargeDepth := 40) [*]; done))
@[simp] theorem decide__lanes (s : State) (hs : LanesInv s) : LanesInv (decide_ s) := by
  unfold decide_; (try dsimp only) <;> (try (repeat' split) <;> first | exact hs | (simp (maxDischargeDepth := 40) [*]; done) | (simp +contextual (maxDischargeDepth := 40) [*]; done))
@[simp] theorem carryControl_lanes (c : Control) (s : State) (hs : LanesInv s) : LanesInv (carryControl c s) := by
  unfold carryControl; (try dsimp only) <;> (try (repeat' split) <;> first | exact hs | (simp (maxDischargeDepth := 40) [*]; done) | (simp +contextual (maxDischargeDepth := 40) [*]; done))
@[simp] theorem malformedControl_lanes (s : State) (hs : LanesInv s) : LanesInv (malformedControl s) := by
  unfold malformedControl; (try dsimp only) <;> (try (repeat' split) <;> first | exact hs | (simp (maxDischargeDepth := 40) [*]; done) | (simp +contextual (maxDischargeDepth := 40) [*]; done))
@[simp] theorem takeControl_lanes (c : Control) (s : State) (hs : LanesInv s) : LanesInv (takeControl c s) := by
  unfold takeControl; (try dsimp only) <;> (try (repeat' split) <;> first | exact hs | (simp (maxDischargeDepth := 40) [*]; done) | (simp +contextual (maxDischargeDepth := 40) [*]; done))
@[simp] theorem controlFrame_lanes (sender : Station) (p : List Byte) (s : State) (hs : LanesInv s) : LanesInv (controlFrame sender p s) := by
  unfold controlFrame; (try dsimp only) <;> (try (repeat' split) <;> first | exact hs | (simp (maxDischargeDepth := 40) [*]; done) | (simp +contextual (maxDischargeDepth := 40) [*]; done))
@[simp] theorem reapplyControls_lanes (l : List Control) (s : State) (hs : LanesInv s) : LanesInv (reapplyControls l s) := by
  induction l generalizing s with
  | nil => exact hs
  | cons a l ih => unfold reapplyControls; simp +contextual (maxDischargeDepth := 40) [*]
@[simp] theorem replaceTable_lanes (records : List SegmentRecord) (age : Nat) (s : State) (hs : LanesInv s) : LanesInv (replaceTable records age s) := by
  unfold replaceTable; (try dsimp only) <;> (try (repeat' split) <;> first | exact hs | (simp (maxDischargeDepth := 40) [*]; done) | (simp +contextual (maxDischargeDepth := 40) [*]; done))
@[simp] theorem endTransfer_lanes (donor : Station) (s : State) (hs : LanesInv s) : LanesInv (endTransfer donor s) := by
  unfold endTransfer; (try dsimp only) <;> (try (repeat' split) <;> first | exact hs | (simp (maxDischargeDepth := 40) [*]; done) | (simp +contextual (maxDischargeDepth := 40) [*]; done))
@[simp] theorem completeTransfer_lanes (donor : Station) (row : RowFrame) (buffer : List SegmentRecord) (s : State) (hs : LanesInv s) : LanesInv (completeTransfer donor row buffer s) := by
  unfold completeTransfer; (try dsimp only) <;> (try (repeat' split) <;> first | exact hs | (simp (maxDischargeDepth := 40) [*]; done) | (simp +contextual (maxDischargeDepth := 40) [*]; done))
@[simp] theorem ignoreRow_lanes (s : State) (hs : LanesInv s) : LanesInv (ignoreRow s) := by
  unfold ignoreRow; (try dsimp only) <;> (try (repeat' split) <;> first | exact hs | (simp (maxDischargeDepth := 40) [*]; done) | (simp +contextual (maxDischargeDepth := 40) [*]; done))
@[simp] theorem takeRow_lanes (donor : Station) (cycle : Option CycleNo) (digest : BitVec 32) (nextFirst : Nat) (buffer : List SegmentRecord) (row : RowFrame) (s : State) (hs : LanesInv s) : LanesInv (takeRow donor cycle digest nextFirst buffer row s) := by
  unfold takeRow; (try dsimp only) <;> (try (repeat' split) <;> first | exact hs | (simp (maxDischargeDepth := 40) [*]; done) | (simp +contextual (maxDischargeDepth := 40) [*]; done))
@[simp] theorem rowFrame_lanes (sender : Station) (own : Bool) (p : List Byte) (s : State) (hs : LanesInv s) : LanesInv (rowFrame sender own p s) := by
  unfold rowFrame; (try dsimp only) <;> (try (repeat' split) <;> first | exact hs | (simp (maxDischargeDepth := 40) [*]; done) | (simp +contextual (maxDischargeDepth := 40) [*]; done))
@[simp] theorem laneNotice_lanes (l : Lane) (e : LaneEvent) (s : State) (hs : LanesInv s) : LanesInv (laneNotice l e s) := by
  unfold laneNotice; (try dsimp only) <;> (try (repeat' split) <;> first | exact hs | (simp (maxDischargeDepth := 40) [*]; done) | (simp +contextual (maxDischargeDepth := 40) [*]; done))
theorem setRun_lanes : True := trivial
theorem setRun_link (l : Lane) (run : Nat) (s : State) : (setRun l run s).link = { s.link with lanes := s.link.lanes.set l { s.link.lanes.get l with run := run } } := by
  unfold setRun; dsimp only
  split
  · rfl
  · simp [laneNotice, raiseNow, raise]; split <;> rfl
@[simp] theorem laneFailed_lanes (l : Lane) (s : State) (hs : LanesInv s) (c : CurrentFrame) (hc : s.link.current = some c) (hl : c.lane = l) : LanesInv (laneFailed l s) := by
  have hv := hs.view
  have hmono : ∀ n, healthOf n = .faulty → healthOf (raised255 n) = .faulty := by
    intro n h
    unfold healthOf raised255 at *
    split at h; cases h
    split at h; cases h
    rw [if_neg (by omega), if_neg (by omega)]
  unfold laneFailed; dsimp only
  obtain ⟨h1, h2, h3⟩ := hv
  split
  · rename_i hx
    obtain ⟨hx1, hx2⟩ := hx
    split
    · rename_i ho
      simp only [laneNotice]
      apply raiseNow_lanes
      rw [withLink_lanes]
      simp only [setRun_link]
      have hlost : s.link.lost = false := by
        cases hb : s.link.lost with
        | false => rfl
        | true =>
          have := h1.1 hb
          cases l <;> simp_all [PerLane.get]
      have hhome : s.link.home = l := by
        have := h2 hlost
        cases hhm : s.link.home <;> cases l <;> simp_all [PerLane.get, otherLane]
      have hpart : (s.link.lanes.set l { s.link.lanes.get l with run := raised255 (s.link.lanes.get l).run }).x.run = (if l = .x then raised255 (s.link.lanes.get l).run else s.link.lanes.x.run) ∧ (s.link.lanes.set l { s.link.lanes.get l with run := raised255 (s.link.lanes.get l).run }).y.run = (if l = .y then raised255 (s.link.lanes.get l).run else s.link.lanes.y.run) := by
        cases l <;> exact ⟨rfl, rfl⟩
      refine ⟨⟨fun _ => ?_, fun _ => rfl⟩, fun h => Bool.noConfusion h, fun _ c' hc' => ?_⟩
      · rw [hpart.1, hpart.2]
        cases l <;> simp_all [PerLane.get, otherLane]
      · rw [show s.link.current = some c' from hc'] at hc; cases hc; exact hl.trans hhome.symm
    · rename_i ho
      have hlost : s.link.lost = false := by
        cases hb : s.link.lost with
        | false => rfl
        | true =>
          have := h1.1 hb
          cases l <;> simp_all [PerLane.get, otherLane]
      split
      · rename_i hlh
        simp only [laneNotice]
        apply raiseNow_lanes
        rw [withLink_lanes]
        simp only [setRun_link]
        cases l <;> simp_all [PerLane.get, PerLane.set, otherLane, LanesView]
      · rename_i hlh
        refine (lanesOk_view _).2 ?_
        rw [setRun_link]
        have := h2 hlost
        cases l <;> cases hhm : s.link.home <;> simp_all [PerLane.get, PerLane.set, otherLane, LanesView]
  · rename_i hx
    refine (lanesOk_view _).2 ?_
    rw [setRun_link]
    have hsame : healthOf (raised255 (s.link.lanes.get l).run) = .faulty ↔ healthOf (s.link.lanes.get l).run = .faulty := by
      constructor
      · intro h; by_contra hn; exact hx ⟨hn, h⟩
      · exact hmono _
    refine ⟨?_, ?_, h3⟩
    · cases l <;> simp only [PerLane.get, PerLane.set] at hsame ⊢ <;> rw [hsame] <;> exact h1
    · intro hl'; have := h2 hl'
      cases l <;> cases hhm : s.link.home <;> simp only [PerLane.get, PerLane.set, hhm] at hsame this ⊢ <;> first | exact this | (rw [Ne, hsame]; exact this)
@[simp] theorem laneSent_lanes (l : Lane) (s : State) (hs : LanesInv s) (c : CurrentFrame) (hc : s.link.current = some c) (hl : c.lane = l) : LanesInv (laneSent l s) := by
  have hv := hs.view
  have h0 : healthOf 0 ≠ .faulty := by decide
  unfold laneSent; dsimp only
  split
  · rename_i hlost
    have hh := hv.2.2 hlost c hc
    simp only [laneNotice_lanes, withLink_lanes, laneNotice]
    apply raiseNow_lanes
    rw [withLink_lanes]
    simp only [setRun_link]
    subst hl
    rw [hh]
    cases hhm : s.link.home <;> simp [PerLane.set, PerLane.get, LanesView, h0]
  · rename_i hlost
    have hlf : s.link.lost = false := by simpa using hlost
    refine (lanesOk_view _).2 ?_
    rw [setRun_link]
    have h1 := hv.1
    have h2 := hv.2.1 hlf
    simp only [hlf] at h1 h2 ⊢
    cases l <;> cases hhm : s.link.home <;> simp_all [PerLane.set, PerLane.get, LanesView]
@[simp] theorem logoutOutcome_lanes (wasSent : Bool) (s : State) (hs : LanesInv s) : LanesInv (logoutOutcome wasSent s) := by
  unfold logoutOutcome; (try dsimp only) <;> (try (repeat' split) <;> first | exact hs | (simp (maxDischargeDepth := 40) [*]; done) | (simp +contextual (maxDischargeDepth := 40) [*]; done))
@[simp] theorem raiseResult_lanes (delivered : Bool) (c : Control) (cause : Option FailCause) (retries : Nat) (s : State) (hs : LanesInv s) : LanesInv (raiseResult delivered c cause retries s) := by
  unfold raiseResult; (try dsimp only) <;> (try (repeat' split) <;> first | exact hs | (simp (maxDischargeDepth := 40) [*]; done) | (simp +contextual (maxDischargeDepth := 40) [*]; done))
@[simp] theorem controlResult_lanes (delivered : Bool) (c : Control) (cause : Option FailCause) (retries : Nat) (s : State) (hs : LanesInv s) : LanesInv (controlResult delivered c cause retries s) := by
  unfold controlResult; (try dsimp only) <;> (try (repeat' split) <;> first | exact hs | (simp (maxDischargeDepth := 40) [*]; done) | (simp +contextual (maxDischargeDepth := 40) [*]; done))
@[simp] theorem controlOutcome_lanes (ref : Nat) (wasSent : Bool) (cause : Option FailCause) (retries : Nat) (s : State) (hs : LanesInv s) : LanesInv (controlOutcome ref wasSent cause retries s) := by
  unfold controlOutcome; (try dsimp only) <;> (try (repeat' split) <;> first | exact hs | (simp (maxDischargeDepth := 40) [*]; done) | (simp +contextual (maxDischargeDepth := 40) [*]; done))
@[simp] theorem pulseOutcome_lanes (ref : Nat) (wasSent : Bool) (stamp : Tag) (s : State) (hs : LanesInv s) : LanesInv (pulseOutcome ref wasSent stamp s) := by
  unfold pulseOutcome; (try dsimp only) <;> (try (repeat' split) <;> first | exact hs | (simp (maxDischargeDepth := 40) [*]; done) | (simp +contextual (maxDischargeDepth := 40) [*]; done))
@[simp] theorem digestOutcome_lanes (wasSent : Bool) (s : State) (hs : LanesInv s) : LanesInv (digestOutcome wasSent s) := by
  unfold digestOutcome; (try dsimp only) <;> (try (repeat' split) <;> first | exact hs | (simp (maxDischargeDepth := 40) [*]; done) | (simp +contextual (maxDischargeDepth := 40) [*]; done))
@[simp] theorem reportOutcome_lanes (c : CurrentFrame) (wasSent : Bool) (stamp : Tag) (s : State) (hs : LanesInv s) : LanesInv (reportOutcome c wasSent stamp s) := by
  unfold reportOutcome; (try dsimp only) <;> (try (repeat' split) <;> first | exact hs | (simp (maxDischargeDepth := 40) [*]; done) | (simp +contextual (maxDischargeDepth := 40) [*]; done))
@[simp] theorem restartPresence_lanes (s : State) (hs : LanesInv s) : LanesInv (restartPresence s) := by
  unfold restartPresence; (try dsimp only) <;> (try (repeat' split) <;> first | exact hs | (simp (maxDischargeDepth := 40) [*]; done) | (simp +contextual (maxDischargeDepth := 40) [*]; done))
@[simp] theorem removeCurrent_lanes (c : CurrentFrame) (wasSent : Bool) (s : State) (hs : LanesInv s) : LanesInv (removeCurrent c wasSent s) := by
  unfold removeCurrent; (try dsimp only) <;> (try (repeat' split) <;> first | exact hs | (simp (maxDischargeDepth := 40) [*]; done) | (simp +contextual (maxDischargeDepth := 40) [*]; done))
@[simp] theorem tellOutcome_lanes (c : CurrentFrame) (wasSent : Bool) (stamp : Tag) (s : State) (hs : LanesInv s) : LanesInv (tellOutcome c wasSent stamp s) := by
  unfold tellOutcome; (try dsimp only) <;> (try (repeat' split) <;> first | exact hs | (simp (maxDischargeDepth := 40) [*]; done) | (simp +contextual (maxDischargeDepth := 40) [*]; done))
@[simp] theorem tellSent_lanes (c : CurrentFrame) (stamp : Tag) (s : State) (hs : LanesInv s) : LanesInv (tellSent c stamp s) := by
  unfold tellSent; (try dsimp only) <;> (try (repeat' split) <;> first | exact hs | (simp (maxDischargeDepth := 40) [*]; done) | (simp +contextual (maxDischargeDepth := 40) [*]; done))
@[simp] theorem endSent_lanes (c : CurrentFrame) (stamp : Tag) (s : State) (hs : LanesInv s) : LanesInv (endSent c stamp s) := by
  unfold endSent; (try dsimp only) <;> (try (repeat' split) <;> first | exact hs | (simp (maxDischargeDepth := 40) [*]; done) | (simp +contextual (maxDischargeDepth := 40) [*]; done))
@[simp] theorem endDropped_lanes (c : CurrentFrame) (cause : FailCause) (s : State) (hs : LanesInv s) : LanesInv (endDropped c cause s) := by
  unfold endDropped; (try dsimp only) <;> (try (repeat' split) <;> first | exact hs | (simp (maxDischargeDepth := 40) [*]; done) | (simp +contextual (maxDischargeDepth := 40) [*]; done))
@[simp] theorem beginRetry_lanes (c : CurrentFrame) (cause : FailCause) (s : State) (hs : LanesInv s) : LanesInv (beginRetry c cause s) := by
  have hv := hs.view
  unfold beginRetry
  rw [withLink_lanes]
  refine ⟨hv.1, hv.2.1, fun hl c' hc' => ?_⟩
  cases hc'
  have hl : s.link.lost = true := hl
  simp [retryLane, hl]
@[simp] theorem retryOrDrop_lanes (c : CurrentFrame) (cause : FailCause) (s : State) (hs : LanesInv s) : LanesInv (retryOrDrop c cause s) := by
  unfold retryOrDrop; (try dsimp only) <;> (try (repeat' split) <;> first | exact hs | (simp (maxDischargeDepth := 40) [*]; done) | (simp +contextual (maxDischargeDepth := 40) [*]; done))
@[simp] theorem attemptFailed_lanes (c : CurrentFrame) (cause : FailCause) (s : State) (hs : LanesInv s) (hc : s.link.current = some c) : LanesInv (attemptFailed c cause s) := by
  unfold attemptFailed; dsimp only
  have h1 := laneFailed_lanes c.lane s hs c hc rfl
  split
  · exact endDropped_lanes _ _ _ h1
  · exact readingConfig_lanes _ _ _ _ (fun t ht => removeCurrent_lanes _ _ _ ht) (fun t ht => retryOrDrop_lanes _ _ _ ht) h1
@[simp] theorem attemptSucceeded_lanes (c : CurrentFrame) (stamp : Tag) (s : State) (hs : LanesInv s) (hc : s.link.current = some c) : LanesInv (attemptSucceeded c stamp s) := by
  unfold attemptSucceeded
  have := laneSent_lanes c.lane s hs c hc rfl
  simp [*]
@[simp] theorem breakFrame_lanes (l : Lane) (idleFrom : Nat) (s : State) (hs : LanesInv s) : LanesInv (breakFrame l idleFrom s) := by
  unfold breakFrame; (try dsimp only) <;> (try (repeat' split) <;> first | exact hs | (simp (maxDischargeDepth := 40) [*]; done) | (simp +contextual (maxDischargeDepth := 40) [*]; done))
@[simp] theorem startFrame_lanes (l : Lane) (s : State) (hs : LanesInv s) : LanesInv (startFrame l s) := by
  unfold startFrame; (try dsimp only) <;> (try (repeat' split) <;> first | exact hs | (simp (maxDischargeDepth := 40) [*]; done) | (simp +contextual (maxDischargeDepth := 40) [*]; done))
@[simp] theorem completeFrame_lanes (l : Lane) (f : RxFrame) (s : State) (hs : LanesInv s) : LanesInv (completeFrame l f s) := by
  unfold completeFrame; dsimp only
  split
  · have h := setLane_lanes s l { s.link.lanes.get l with receiver := .hunting, hold := some f, idleFrom := s.clock } hs rfl
    rw [withLink_lanes]; exact h.view
  · exact setLane_lanes _ _ _ hs rfl
@[simp] theorem unmarkEcho_lanes (l : Lane) (s : State) (hs : LanesInv s) : LanesInv (unmarkEcho l s) := by
  unfold unmarkEcho; dsimp only
  split
  · exact setLane_lanes _ _ _ hs rfl
  · exact hs
theorem unmarkEcho_current (l : Lane) (s : State) : (unmarkEcho l s).link.current = s.link.current := by
  unfold unmarkEcho; dsimp only
  split <;> rfl
@[simp] theorem echoFailed_lanes (c : CurrentFrame) (cause : FailCause) (s : State) (hs : LanesInv s) (hc : s.link.current = some c) : LanesInv (echoFailed c cause s) :=
  attemptFailed_lanes _ _ _ (unmarkEcho_lanes _ _ hs) ((unmarkEcho_current _ _).trans hc)
@[simp] theorem hearBytes_lanes (r : RestingLane) (s : State) (hs : LanesInv s) : LanesInv (hearBytes r s) := by
  unfold hearBytes; dsimp only
  split
  · exact setLane_lanes _ _ _ hs rfl
  · exact hs
theorem hearBytes_current (r : RestingLane) (s : State) : (hearBytes r s).link.current = s.link.current := by
  unfold hearBytes; dsimp only
  split <;> rfl
@[simp] theorem beginTransmit_lanes (c : CurrentFrame) (s : State) (hs : LanesInv s) (hc : s.link.current = some c) : LanesInv (beginTransmit c s) := by
  have hv := hs.view
  unfold beginTransmit
  rw [withLink_lanes]
  exact ⟨hv.1, hv.2.1, fun hl c' hc' => by cases hc'; exact hv.2.2 hl c hc⟩
@[simp] theorem strayEdge_lanes (s : State) (hs : LanesInv s) : LanesInv (strayEdge s) := by
  unfold strayEdge; (try dsimp only) <;> (try (repeat' split) <;> first | exact hs | (simp (maxDischargeDepth := 40) [*]; done) | (simp +contextual (maxDischargeDepth := 40) [*]; done))
@[simp] theorem enterPhase_lanes (p : Phase) (s : State) (hs : LanesInv s) : LanesInv (enterPhase p s) := by
  unfold enterPhase; (try dsimp only) <;> (try (repeat' split) <;> first | exact hs | (simp (maxDischargeDepth := 40) [*]; done) | (simp +contextual (maxDischargeDepth := 40) [*]; done))
@[simp] theorem beginCycle_lanes (s : State) (hs : LanesInv s) : LanesInv (beginCycle s) := by
  unfold beginCycle; (try dsimp only) <;> (try (repeat' split) <;> first | exact hs | (simp (maxDischargeDepth := 40) [*]; done) | (simp +contextual (maxDischargeDepth := 40) [*]; done))
@[simp] theorem cutHitFrame_lanes (s : State) (hs : LanesInv s) : LanesInv (cutHitFrame s) := by
  have hv := hs.view
  unfold cutHitFrame
  split
  · rename_i c hc
    split
    · split
      · rw [withLink_lanes]; exact ⟨hv.1, hv.2.1, fun hl c' hc' => by cases hc'; exact hv.2.2 hl c hc⟩
      · rw [withLink_lanes]; exact view_none hv
    · exact hs
  · exact hs
@[simp] theorem cycleFlagNotice_lanes (t : Tracker) (cause : CloseCause) (s : State) (hs : LanesInv s) : LanesInv (cycleFlagNotice t cause s) := by
  unfold cycleFlagNotice; (try dsimp only) <;> (try (repeat' split) <;> first | exact hs | (simp (maxDischargeDepth := 40) [*]; done) | (simp +contextual (maxDischargeDepth := 40) [*]; done))
@[simp] theorem closeHits_lanes (s : State) (hs : LanesInv s) : LanesInv (closeHits s) := by
  unfold closeHits; (try dsimp only) <;> (try (repeat' split) <;> first | exact hs | (simp (maxDischargeDepth := 40) [*]; done) | (simp +contextual (maxDischargeDepth := 40) [*]; done))
@[simp] theorem closeTables_lanes (closed : Option CycleNo) (kind : CloseKind) (s : State) (hs : LanesInv s) : LanesInv (closeTables closed kind s) := by
  unfold closeTables; (try dsimp only) <;> (try (repeat' split) <;> first | exact hs | (simp (maxDischargeDepth := 40) [*]; done) | (simp +contextual (maxDischargeDepth := 40) [*]; done))
@[simp] theorem closeCycle_lanes (cause : CloseCause) (s : State) (hs : LanesInv s) : LanesInv (closeCycle cause s) := by
  unfold closeCycle; (try dsimp only) <;> (try (repeat' split) <;> first | exact hs | (simp (maxDischargeDepth := 40) [*]; done) | (simp +contextual (maxDischargeDepth := 40) [*]; done))
@[simp] theorem earlyClose_lanes (s : State) (hs : LanesInv s) : LanesInv (earlyClose s) := by
  unfold earlyClose; (try dsimp only) <;> (try (repeat' split) <;> first | exact hs | (simp (maxDischargeDepth := 40) [*]; done) | (simp +contextual (maxDischargeDepth := 40) [*]; done))
@[simp] theorem countCycle_lanes (s : State) (hs : LanesInv s) : LanesInv (countCycle s) := by
  unfold countCycle; (try dsimp only) <;> (try (repeat' split) <;> first | exact hs | (simp (maxDischargeDepth := 40) [*]; done) | (simp +contextual (maxDischargeDepth := 40) [*]; done))
@[simp] theorem startCycle_lanes (s : State) (hs : LanesInv s) : LanesInv (startCycle s) := by
  unfold startCycle; (try dsimp only) <;> (try (repeat' split) <;> first | exact hs | (simp (maxDischargeDepth := 40) [*]; done) | (simp +contextual (maxDischargeDepth := 40) [*]; done))
@[simp] theorem cycEdge_lanes (s : State) (hs : LanesInv s) : LanesInv (cycEdge s) := by
  unfold cycEdge; (try dsimp only) <;> (try (repeat' split) <;> first | exact hs | (simp (maxDischargeDepth := 40) [*]; done) | (simp +contextual (maxDischargeDepth := 40) [*]; done))
@[simp] theorem setSettle_lanes (s : State) (hs : LanesInv s) : LanesInv (setSettle s) := by
  unfold setSettle; (try dsimp only) <;> (try (repeat' split) <;> first | exact hs | (simp (maxDischargeDepth := 40) [*]; done) | (simp +contextual (maxDischargeDepth := 40) [*]; done))
@[simp] theorem startSettle_lanes (s : State) (hs : LanesInv s) : LanesInv (startSettle s) := by
  unfold startSettle; (try dsimp only) <;> (try (repeat' split) <;> first | exact hs | (simp (maxDischargeDepth := 40) [*]; done) | (simp +contextual (maxDischargeDepth := 40) [*]; done))
@[simp] theorem enterReturn_lanes (s : State) (hs : LanesInv s) : LanesInv (enterReturn s) := by
  unfold enterReturn; (try dsimp only) <;> (try (repeat' split) <;> first | exact hs | (simp (maxDischargeDepth := 40) [*]; done) | (simp +contextual (maxDischargeDepth := 40) [*]; done))
@[simp] theorem flagDisordered_lanes (s : State) (hs : LanesInv s) : LanesInv (flagDisordered s) := by
  unfold flagDisordered; (try dsimp only) <;> (try (repeat' split) <;> first | exact hs | (simp (maxDischargeDepth := 40) [*]; done) | (simp +contextual (maxDischargeDepth := 40) [*]; done))
@[simp] theorem disorderly_lanes (s : State) (hs : LanesInv s) : LanesInv (disorderly s) := by
  unfold disorderly; (try dsimp only) <;> (try (repeat' split) <;> first | exact hs | (simp (maxDischargeDepth := 40) [*]; done) | (simp +contextual (maxDischargeDepth := 40) [*]; done))
@[simp] theorem goIdle_lanes (s : State) (hs : LanesInv s) : LanesInv (goIdle s) := by
  unfold goIdle; (try dsimp only) <;> (try (repeat' split) <;> first | exact hs | (simp (maxDischargeDepth := 40) [*]; done) | (simp +contextual (maxDischargeDepth := 40) [*]; done))
@[simp] theorem idleIfExpired_lanes (s : State) (hs : LanesInv s) : LanesInv (idleIfExpired s) := by
  unfold idleIfExpired; (try dsimp only) <;> (try (repeat' split) <;> first | exact hs | (simp (maxDischargeDepth := 40) [*]; done) | (simp +contextual (maxDischargeDepth := 40) [*]; done))
@[simp] theorem settleClose_lanes (s : State) (hs : LanesInv s) : LanesInv (settleClose s) := by
  unfold settleClose; (try dsimp only) <;> (try (repeat' split) <;> first | exact hs | (simp (maxDischargeDepth := 40) [*]; done) | (simp +contextual (maxDischargeDepth := 40) [*]; done))
@[simp] theorem closeByTimer_lanes (s : State) (hs : LanesInv s) : LanesInv (closeByTimer s) := by
  unfold closeByTimer; (try dsimp only) <;> (try (repeat' split) <;> first | exact hs | (simp (maxDischargeDepth := 40) [*]; done) | (simp +contextual (maxDischargeDepth := 40) [*]; done))
@[simp] theorem markExpired_lanes (s : State) (hs : LanesInv s) : LanesInv (markExpired s) := by
  unfold markExpired; (try dsimp only) <;> (try (repeat' split) <;> first | exact hs | (simp (maxDischargeDepth := 40) [*]; done) | (simp +contextual (maxDischargeDepth := 40) [*]; done))
@[simp] theorem cycleExpired_lanes (s : State) (hs : LanesInv s) : LanesInv (cycleExpired s) := by
  unfold cycleExpired; (try dsimp only) <;> (try (repeat' split) <;> first | exact hs | (simp (maxDischargeDepth := 40) [*]; done) | (simp +contextual (maxDischargeDepth := 40) [*]; done))
@[simp] theorem adoptFirst_lanes (n : CycleNo) (s : State) (hs : LanesInv s) : LanesInv (adoptFirst n s) := by
  unfold adoptFirst; (try dsimp only) <;> (try (repeat' split) <;> first | exact hs | (simp (maxDischargeDepth := 40) [*]; done) | (simp +contextual (maxDischargeDepth := 40) [*]; done))
@[simp] theorem joinAdopt_lanes (n : CycleNo) (s : State) (hs : LanesInv s) : LanesInv (joinAdopt n s) := by
  unfold joinAdopt; (try dsimp only) <;> (try (repeat' split) <;> first | exact hs | (simp (maxDischargeDepth := 40) [*]; done) | (simp +contextual (maxDischargeDepth := 40) [*]; done))
@[simp] theorem holdBack_lanes (st : Station) (s : State) (hs : LanesInv s) : LanesInv (holdBack st s) := by
  unfold holdBack; (try dsimp only) <;> (try (repeat' split) <;> first | exact hs | (simp (maxDischargeDepth := 40) [*]; done) | (simp +contextual (maxDischargeDepth := 40) [*]; done))
@[simp] theorem setSilence_lanes (st : Station) (s : State) (hs : LanesInv s) : LanesInv (setSilence st s) := by
  unfold setSilence; (try dsimp only) <;> (try (repeat' split) <;> first | exact hs | (simp (maxDischargeDepth := 40) [*]; done) | (simp +contextual (maxDischargeDepth := 40) [*]; done))
@[simp] theorem restartSilence_lanes (st : Station) (s : State) (hs : LanesInv s) : LanesInv (restartSilence st s) := by
  unfold restartSilence; (try dsimp only) <;> (try (repeat' split) <;> first | exact hs | (simp (maxDischargeDepth := 40) [*]; done) | (simp +contextual (maxDischargeDepth := 40) [*]; done))
@[simp] theorem recordChanged_lanes (st : Station) (old new : PeerState) (s : State) (hs : LanesInv s) : LanesInv (recordChanged st old new s) := by
  unfold recordChanged; (try dsimp only) <;> (try (repeat' split) <;> first | exact hs | (simp (maxDischargeDepth := 40) [*]; done) | (simp +contextual (maxDischargeDepth := 40) [*]; done))
@[simp] theorem storeTaken_lanes (k : FrameKind) (st : Station) (f : RxFrame) (s : State) (hs : LanesInv s) : LanesInv (storeTaken k st f s) := by
  unfold storeTaken; (try dsimp only) <;> (try (repeat' split) <;> first | exact hs | (simp (maxDischargeDepth := 40) [*]; done) | (simp +contextual (maxDischargeDepth := 40) [*]; done))
@[simp] theorem enterRecord_lanes (k : FrameKind) (st : Station) (f : RxFrame) (s : State) (hs : LanesInv s) : LanesInv (enterRecord k st f s) := by
  unfold enterRecord; (try dsimp only) <;> (try (repeat' split) <;> first | exact hs | (simp (maxDischargeDepth := 40) [*]; done) | (simp +contextual (maxDischargeDepth := 40) [*]; done))
@[simp] theorem takeRecord_lanes (k : FrameKind) (st : Station) (f : RxFrame) (s : State) (hs : LanesInv s) : LanesInv (takeRecord k st f s) := by
  unfold takeRecord; (try dsimp only) <;> (try (repeat' split) <;> first | exact hs | (simp (maxDischargeDepth := 40) [*]; done) | (simp +contextual (maxDischargeDepth := 40) [*]; done))
@[simp] theorem handToBlocks_lanes (k : FrameKind) (st : Station) (f : RxFrame) (s : State) (hs : LanesInv s) : LanesInv (handToBlocks k st f s) := by
  unfold handToBlocks; (try dsimp only) <;> (try (repeat' split) <;> first | exact hs | (simp (maxDischargeDepth := 40) [*]; done) | (simp +contextual (maxDischargeDepth := 40) [*]; done))
@[simp] theorem handOn_lanes (k : FrameKind) (st : Station) (f : RxFrame) (s : State) (hs : LanesInv s) : LanesInv (handOn k st f s) := by
  unfold handOn; (try dsimp only) <;> (try (repeat' split) <;> first | exact hs | (simp (maxDischargeDepth := 40) [*]; done) | (simp +contextual (maxDischargeDepth := 40) [*]; done))
@[simp] theorem joinAndHandOn_lanes (k : FrameKind) (st : Station) (f : RxFrame) (s : State) (hs : LanesInv s) : LanesInv (joinAndHandOn k st f s) := by
  unfold joinAndHandOn; (try dsimp only) <;> (try (repeat' split) <;> first | exact hs | (simp (maxDischargeDepth := 40) [*]; done) | (simp +contextual (maxDischargeDepth := 40) [*]; done))
@[simp] theorem memberFrame_lanes (k : FrameKind) (st : Station) (f : RxFrame) (s : State) (hs : LanesInv s) : LanesInv (memberFrame k st f s) := by
  unfold memberFrame; (try dsimp only) <;> (try (repeat' split) <;> first | exact hs | (simp (maxDischargeDepth := 40) [*]; done) | (simp +contextual (maxDischargeDepth := 40) [*]; done))
@[simp] theorem rejectFrame_lanes (l : Lane) (s : State) (hs : LanesInv s) : LanesInv (rejectFrame l s) := by
  unfold rejectFrame; (try dsimp only) <;> (try (repeat' split) <;> first | exact hs | (simp (maxDischargeDepth := 40) [*]; done) | (simp +contextual (maxDischargeDepth := 40) [*]; done))
@[simp] theorem countAccepted_lanes (l : Lane) (k : FrameKind) (st : Station) (s : State) (hs : LanesInv s) : LanesInv (countAccepted l k st s) := by
  unfold countAccepted; dsimp only
  have h := setLane_lanes s l { s.link.lanes.get l with accepted := raised (s.link.lanes.get l).accepted } hs rfl
  rw [withLink_lanes]; exact h.view
@[simp] theorem acceptFrame_lanes (l : Lane) (f : RxFrame) (s : State) (hs : LanesInv s) : LanesInv (acceptFrame l f s) := by
  unfold acceptFrame; (try dsimp only) <;> (try (repeat' split) <;> first | exact hs | (simp (maxDischargeDepth := 40) [*]; done) | (simp +contextual (maxDischargeDepth := 40) [*]; done))
@[simp] theorem beginHandling_lanes (l : Lane) (f : RxFrame) (s : State) (hs : LanesInv s) : LanesInv (beginHandling l f s) := by
  unfold beginHandling; dsimp only
  have h := setLane_lanes s l { s.link.lanes.get l with hold := none } hs rfl
  rw [withLink_lanes]; exact h.view
@[simp] theorem endHandling_lanes (s : State) (hs : LanesInv s) : LanesInv (endHandling s) := by
  unfold endHandling; (try dsimp only) <;> (try (repeat' split) <;> first | exact hs | (simp (maxDischargeDepth := 40) [*]; done) | (simp +contextual (maxDischargeDepth := 40) [*]; done))
@[simp] theorem handOut_lanes (l : Lane) (f : RxFrame) (s : State) (hs : LanesInv s) : LanesInv (handOut l f s) := by
  unfold handOut; (try dsimp only) <;> (try (repeat' split) <;> first | exact hs | (simp (maxDischargeDepth := 40) [*]; done) | (simp +contextual (maxDischargeDepth := 40) [*]; done))
@[simp] theorem handleFrame_lanes (l : Lane) (f : RxFrame) (s : State) (hs : LanesInv s) : LanesInv (handleFrame l f s) := by
  unfold handleFrame; (try dsimp only) <;> (try (repeat' split) <;> first | exact hs | (simp (maxDischargeDepth := 40) [*]; done) | (simp +contextual (maxDischargeDepth := 40) [*]; done))
@[simp] theorem judgeCommand_lanes (c : PortCommand) (inRange : Bool) (reply : List Byte) (s : State) (hs : LanesInv s) : LanesInv (judgeCommand c inRange reply s) := by
  unfold judgeCommand; (try dsimp only) <;> (try (repeat' split) <;> first | exact hs | (simp (maxDischargeDepth := 40) [*]; done) | (simp +contextual (maxDischargeDepth := 40) [*]; done))
@[simp] theorem loadFailed_lanes (check index : Nat) (s : State) (hs : LanesInv s) : LanesInv (loadFailed check index s) := by
  unfold loadFailed; (try dsimp only) <;> (try (repeat' split) <;> first | exact hs | (simp (maxDischargeDepth := 40) [*]; done) | (simp +contextual (maxDischargeDepth := 40) [*]; done))
@[simp] theorem loadPassed_lanes (b : List Byte) (s : State) (hs : LanesInv s) : LanesInv (loadPassed b s) := by
  unfold loadPassed; (try dsimp only) <;> (try (repeat' split) <;> first | exact hs | (simp (maxDischargeDepth := 40) [*]; done) | (simp +contextual (maxDischargeDepth := 40) [*]; done))
@[simp] theorem endCheck_lanes (s : State) (hs : LanesInv s) : LanesInv (endCheck s) := by
  unfold endCheck; (try dsimp only) <;> (try (repeat' split) <;> first | exact hs | (simp (maxDischargeDepth := 40) [*]; done) | (simp +contextual (maxDischargeDepth := 40) [*]; done))
@[simp] theorem beginCheck_lanes (b : List Byte) (s : State) (hs : LanesInv s) : LanesInv (beginCheck b s) := by
  unfold beginCheck; (try dsimp only) <;> (try (repeat' split) <;> first | exact hs | (simp (maxDischargeDepth := 40) [*]; done) | (simp +contextual (maxDischargeDepth := 40) [*]; done))
@[simp] theorem commandRestart_lanes (s : State) (hs : LanesInv s) : LanesInv (commandRestart s) := by
  unfold commandRestart; (try dsimp only) <;> (try (repeat' split) <;> first | exact hs | (simp (maxDischargeDepth := 40) [*]; done) | (simp +contextual (maxDischargeDepth := 40) [*]; done))
@[simp] theorem removeNotice_lanes (returned : Bool) (bytesOut : Nat) (s : State) (hs : LanesInv s) : LanesInv (removeNotice returned bytesOut s) := by
  unfold removeNotice; (try dsimp only) <;> (try (repeat' split) <;> first | exact hs | (simp (maxDischargeDepth := 40) [*]; done) | (simp +contextual (maxDischargeDepth := 40) [*]; done))
@[simp] theorem controlTaken_lanes (c : Control) (ref : Nat) (s : State) (hs : LanesInv s) : LanesInv (controlTaken c ref s) := by
  unfold controlTaken; (try dsimp only) <;> (try (repeat' split) <;> first | exact hs | (simp (maxDischargeDepth := 40) [*]; done) | (simp +contextual (maxDischargeDepth := 40) [*]; done))
@[simp] theorem requestControl_lanes (c : Control) (s : State) (hs : LanesInv s) : LanesInv (requestControl c s) := by
  unfold requestControl; (try dsimp only) <;> (try (repeat' split) <;> first | exact hs | (simp (maxDischargeDepth := 40) [*]; done) | (simp +contextual (maxDischargeDepth := 40) [*]; done))
@[simp] theorem clearRecord_lanes (s : State) (hs : LanesInv s) : LanesInv (clearRecord s) := by
  unfold clearRecord; (try dsimp only) <;> (try (repeat' split) <;> first | exact hs | (simp (maxDischargeDepth := 40) [*]; done) | (simp +contextual (maxDischargeDepth := 40) [*]; done))
@[simp] theorem applyCommand_lanes (c : PortCommand) (bytesOut : Nat) (s : State) (hs : LanesInv s) : LanesInv (applyCommand c bytesOut s) := by
  unfold applyCommand; (try dsimp only) <;> (try (repeat' split) <;> first | exact hs | (simp (maxDischargeDepth := 40) [*]; done) | (simp +contextual (maxDischargeDepth := 40) [*]; done))
@[simp] theorem lateCommand_lanes (c : PortCommand) (s : State) (hs : LanesInv s) : LanesInv (lateCommand c s) := by
  unfold lateCommand; (try dsimp only) <;> (try (repeat' split) <;> first | exact hs | (simp (maxDischargeDepth := 40) [*]; done) | (simp +contextual (maxDischargeDepth := 40) [*]; done))
@[simp] theorem deselect_lanes (bytesOut : Nat) (s : State) (hs : LanesInv s) : LanesInv (deselect bytesOut s) := by
  unfold deselect; (try dsimp only) <;> (try (repeat' split) <;> first | exact hs | (simp (maxDischargeDepth := 40) [*]; done) | (simp +contextual (maxDischargeDepth := 40) [*]; done))
@[simp] theorem takeEdge_lanes (f : State → State) (s : State) (hf : ∀  t, LanesInv t → LanesInv (f t)) (hs : LanesInv s) : LanesInv (takeEdge f s) := by
  unfold takeEdge; (try dsimp only) <;> (try (repeat' split) <;> first | exact hs | (simp (maxDischargeDepth := 40) [*]; done) | (simp +contextual (maxDischargeDepth := 40) [*]; done))
@[simp] theorem filEdge_lanes (s : State) (hs : LanesInv s) : LanesInv (filEdge s) := by
  unfold filEdge; (try dsimp only) <;> (try (repeat' split) <;> first | exact hs | (simp (maxDischargeDepth := 40) [*]; done) | (simp +contextual (maxDischargeDepth := 40) [*]; done))
@[simp] theorem firstShake_lanes (s : State) (hs : LanesInv s) : LanesInv (firstShake s) := by
  unfold firstShake; (try dsimp only) <;> (try (repeat' split) <;> first | exact hs | (simp (maxDischargeDepth := 40) [*]; done) | (simp +contextual (maxDischargeDepth := 40) [*]; done))
@[simp] theorem vibEdge_lanes (s : State) (hs : LanesInv s) : LanesInv (vibEdge s) := by
  unfold vibEdge; (try dsimp only) <;> (try (repeat' split) <;> first | exact hs | (simp (maxDischargeDepth := 40) [*]; done) | (simp +contextual (maxDischargeDepth := 40) [*]; done))
@[simp] theorem strEdge_lanes (s : State) (hs : LanesInv s) : LanesInv (strEdge s) := by
  unfold strEdge; (try dsimp only) <;> (try (repeat' split) <;> first | exact hs | (simp (maxDischargeDepth := 40) [*]; done) | (simp +contextual (maxDischargeDepth := 40) [*]; done))
@[simp] theorem strFall_lanes (s : State) (hs : LanesInv s) : LanesInv (strFall s) := by
  unfold strFall; (try dsimp only) <;> (try (repeat' split) <;> first | exact hs | (simp (maxDischargeDepth := 40) [*]; done) | (simp +contextual (maxDischargeDepth := 40) [*]; done))
@[simp] theorem keepCapture_lanes (c : Channel) (s : State) (hs : LanesInv s) : LanesInv (keepCapture c s) := by
  unfold keepCapture; (try dsimp only) <;> (try (repeat' split) <;> first | exact hs | (simp (maxDischargeDepth := 40) [*]; done) | (simp +contextual (maxDischargeDepth := 40) [*]; done))
@[simp] theorem countDetected_lanes (s : State) (hs : LanesInv s) : LanesInv (countDetected s) := by
  unfold countDetected; (try dsimp only) <;> (try (repeat' split) <;> first | exact hs | (simp (maxDischargeDepth := 40) [*]; done) | (simp +contextual (maxDischargeDepth := 40) [*]; done))
@[simp] theorem startHit_lanes (c : Channel) (h : OpenHit) (s : State) (hs : LanesInv s) : LanesInv (startHit c h s) := by
  unfold startHit; (try dsimp only) <;> (try (repeat' split) <;> first | exact hs | (simp (maxDischargeDepth := 40) [*]; done) | (simp +contextual (maxDischargeDepth := 40) [*]; done))
@[simp] theorem appendOwnHit_lanes (c : Channel) (h : OpenHit) (f : Features) (s : State) (hs : LanesInv s) : LanesInv (appendOwnHit c h f s) := by
  unfold appendOwnHit; (try dsimp only) <;> (try (repeat' split) <;> first | exact hs | (simp (maxDischargeDepth := 40) [*]; done) | (simp +contextual (maxDischargeDepth := 40) [*]; done))
@[simp] theorem completeHit_lanes (c : Channel) (h : OpenHit) (f : Features) (s : State) (hs : LanesInv s) : LanesInv (completeHit c h f s) := by
  unfold completeHit; (try dsimp only) <;> (try (repeat' split) <;> first | exact hs | (simp (maxDischargeDepth := 40) [*]; done) | (simp +contextual (maxDischargeDepth := 40) [*]; done))
@[simp] theorem endHit_lanes (c : Channel) (long : Bool) (h : OpenHit) (s : State) (hs : LanesInv s) : LanesInv (endHit c long h s) := by
  unfold endHit; (try dsimp only) <;> (try (repeat' split) <;> first | exact hs | (simp (maxDischargeDepth := 40) [*]; done) | (simp +contextual (maxDischargeDepth := 40) [*]; done))
@[simp] theorem hitSample_lanes (c : Channel) (env : Nat) (h : OpenHit) (s : State) (hs : LanesInv s) : LanesInv (hitSample c env h s) := by
  unfold hitSample; (try dsimp only) <;> (try (repeat' split) <;> first | exact hs | (simp (maxDischargeDepth := 40) [*]; done) | (simp +contextual (maxDischargeDepth := 40) [*]; done))
@[simp] theorem quietSample_lanes (c : Channel) (env : Nat) (s : State) (hs : LanesInv s) : LanesInv (quietSample c env s) := by
  unfold quietSample; (try dsimp only) <;> (try (repeat' split) <;> first | exact hs | (simp (maxDischargeDepth := 40) [*]; done) | (simp +contextual (maxDischargeDepth := 40) [*]; done))
@[simp] theorem sampleStep_lanes (c : Channel) (env : Nat) (s : State) (hs : LanesInv s) : LanesInv (sampleStep c env s) := by
  unfold sampleStep; (try dsimp only) <;> (try (repeat' split) <;> first | exact hs | (simp (maxDischargeDepth := 40) [*]; done) | (simp +contextual (maxDischargeDepth := 40) [*]; done))
@[simp] theorem takeSample_lanes (c : Channel) (value : Half) (s : State) (hs : LanesInv s) : LanesInv (takeSample c value s) := by
  unfold takeSample; (try dsimp only) <;> (try (repeat' split) <;> first | exact hs | (simp (maxDischargeDepth := 40) [*]; done) | (simp +contextual (maxDischargeDepth := 40) [*]; done))
@[simp] theorem endLockout_lanes (c : Channel) (s : State) (hs : LanesInv s) : LanesInv (endLockout c s) := by
  unfold endLockout; (try dsimp only) <;> (try (repeat' split) <;> first | exact hs | (simp (maxDischargeDepth := 40) [*]; done) | (simp +contextual (maxDischargeDepth := 40) [*]; done))
@[simp] theorem tellLoss_lanes (u : ChannelUnit) (s : State) (hs : LanesInv s) : LanesInv (tellLoss u s) := by
  unfold tellLoss; (try dsimp only) <;> (try (repeat' split) <;> first | exact hs | (simp (maxDischargeDepth := 40) [*]; done) | (simp +contextual (maxDischargeDepth := 40) [*]; done))
@[simp] theorem loseChannel_lanes (c : Channel) (s : State) (hs : LanesInv s) : LanesInv (loseChannel c s) := by
  unfold loseChannel; (try dsimp only) <;> (try (repeat' split) <;> first | exact hs | (simp (maxDischargeDepth := 40) [*]; done) | (simp +contextual (maxDischargeDepth := 40) [*]; done))
@[simp] theorem afterLoss_lanes (c : Channel) (u : ChannelUnit) (s : State) (hs : LanesInv s) : LanesInv (afterLoss c u s) := by
  unfold afterLoss; (try dsimp only) <;> (try (repeat' split) <;> first | exact hs | (simp (maxDischargeDepth := 40) [*]; done) | (simp +contextual (maxDischargeDepth := 40) [*]; done))
@[simp] theorem sampleLost_lanes (c : Channel) (s : State) (hs : LanesInv s) : LanesInv (sampleLost c s) := by
  unfold sampleLost; (try dsimp only) <;> (try (repeat' split) <;> first | exact hs | (simp (maxDischargeDepth := 40) [*]; done) | (simp +contextual (maxDischargeDepth := 40) [*]; done))
@[simp] theorem recoverChannel_lanes (c : Channel) (last : Tag) (s : State) (hs : LanesInv s) : LanesInv (recoverChannel c last s) := by
  unfold recoverChannel; (try dsimp only) <;> (try (repeat' split) <;> first | exact hs | (simp (maxDischargeDepth := 40) [*]; done) | (simp +contextual (maxDischargeDepth := 40) [*]; done))
@[simp] theorem afterRecovery_lanes (c : Channel) (s : State) (hs : LanesInv s) : LanesInv (afterRecovery c s) := by
  unfold afterRecovery; (try dsimp only) <;> (try (repeat' split) <;> first | exact hs | (simp (maxDischargeDepth := 40) [*]; done) | (simp +contextual (maxDischargeDepth := 40) [*]; done))
@[simp] theorem sampleRecovered_lanes (c : Channel) (last : Tag) (s : State) (hs : LanesInv s) : LanesInv (sampleRecovered c last s) := by
  unfold sampleRecovered; (try dsimp only) <;> (try (repeat' split) <;> first | exact hs | (simp (maxDischargeDepth := 40) [*]; done) | (simp +contextual (maxDischargeDepth := 40) [*]; done))
@[simp] theorem endPulseWidth_lanes (c : Channel) (s : State) (hs : LanesInv s) : LanesInv (endPulseWidth c s) := by
  unfold endPulseWidth; (try dsimp only) <;> (try (repeat' split) <;> first | exact hs | (simp (maxDischargeDepth := 40) [*]; done) | (simp +contextual (maxDischargeDepth := 40) [*]; done))
@[simp] theorem endRecovery_lanes (c : Channel) (s : State) (hs : LanesInv s) : LanesInv (endRecovery c s) := by
  unfold endRecovery; (try dsimp only) <;> (try (repeat' split) <;> first | exact hs | (simp (maxDischargeDepth := 40) [*]; done) | (simp +contextual (maxDischargeDepth := 40) [*]; done))
@[simp] theorem whileWaiting_lanes (f : CurrentFrame → Tag → State → State) (s : State) (hf : ∀ a b t, LanesInv t → LanesInv (f a b t)) (hs : LanesInv s) : LanesInv (whileWaiting f s) := by
  unfold whileWaiting; (try dsimp only) <;> (try (repeat' split) <;> first | exact hs | (simp (maxDischargeDepth := 40) [*]; done) | (simp +contextual (maxDischargeDepth := 40) [*]; done))
@[simp] theorem whileTransmitting_lanes (f : CurrentFrame → Tag → State → State) (s : State) (hf : ∀ a b t, LanesInv t → LanesInv (f a b t)) (hs : LanesInv s) : LanesInv (whileTransmitting f s) := by
  unfold whileTransmitting; (try dsimp only) <;> (try (repeat' split) <;> first | exact hs | (simp (maxDischargeDepth := 40) [*]; done) | (simp +contextual (maxDischargeDepth := 40) [*]; done))
@[simp] theorem takeGap_lanes (l : Lane) (c : CurrentFrame) (s : State) (hs : LanesInv s) (hc : s.link.current = some c) : LanesInv (takeGap l c s) := by
  unfold takeGap
  split
  · exact beginTransmit_lanes _ _ hs hc
  · exact hs
@[simp] theorem starve_lanes (c : CurrentFrame) (d : Tag) (s : State) (hs : LanesInv s) (hc : s.link.current = some c) : LanesInv (starve c d s) := by
  unfold starve
  split
  · exact attemptFailed_lanes _ _ _ hs hc
  · exact hs

@[simp] theorem closeExpired_lanes (s : State) (hs : LanesInv s) : LanesInv (closeExpired s) := by
  unfold closeExpired; (try dsimp only) <;> (try (repeat' split) <;> first | exact hs | (simp (maxDischargeDepth := 40) [*]; done) | (simp +contextual (maxDischargeDepth := 40) [*]; done))
@[simp] theorem takeCloseExpiry_lanes (s : State) (hs : LanesInv s) : LanesInv (takeCloseExpiry s) := by
  unfold takeCloseExpiry; (try dsimp only) <;> (try (repeat' split) <;> first | exact hs | (simp (maxDischargeDepth := 40) [*]; done) | (simp +contextual (maxDischargeDepth := 40) [*]; done))
@[simp] theorem takeSlot_lanes (tag : Tag) (s : State) (hs : LanesInv s) : LanesInv (takeSlot tag s) := by
  unfold takeSlot; (try dsimp only) <;> (try (repeat' split) <;> first | exact hs | (simp (maxDischargeDepth := 40) [*]; done) | (simp +contextual (maxDischargeDepth := 40) [*]; done))
@[simp] theorem endWait_lanes (s : State) (hs : LanesInv s) : LanesInv (endWait s) := by
  unfold endWait; (try dsimp only) <;> (try (repeat' split) <;> first | exact hs | (simp (maxDischargeDepth := 40) [*]; done) | (simp +contextual (maxDischargeDepth := 40) [*]; done))
@[simp] theorem fireChannel_lanes (c : Channel) (s : State) (hs : LanesInv s) : LanesInv (fireChannel c s) := by
  unfold fireChannel; (try dsimp only) <;> (try (repeat' split) <;> first | exact hs | (simp (maxDischargeDepth := 40) [*]; done) | (simp +contextual (maxDischargeDepth := 40) [*]; done))
@[simp] theorem notFired_lanes (s : State) (hs : LanesInv s) : LanesInv (notFired s) := by
  unfold notFired; (try dsimp only) <;> (try (repeat' split) <;> first | exact hs | (simp (maxDischargeDepth := 40) [*]; done) | (simp +contextual (maxDischargeDepth := 40) [*]; done))
@[simp] theorem takeFire_lanes (s : State) (hs : LanesInv s) : LanesInv (takeFire s) := by
  unfold takeFire; (try dsimp only) <;> (try (repeat' split) <;> first | exact hs | (simp (maxDischargeDepth := 40) [*]; done) | (simp +contextual (maxDischargeDepth := 40) [*]; done))
@[simp] theorem beginJudging_lanes (s : State) (hs : LanesInv s) : LanesInv (beginJudging s) := by
  unfold beginJudging; (try dsimp only) <;> (try (repeat' split) <;> first | exact hs | (simp (maxDischargeDepth := 40) [*]; done) | (simp +contextual (maxDischargeDepth := 40) [*]; done))
@[simp] theorem takeEndTag_lanes (s : State) (hs : LanesInv s) : LanesInv (takeEndTag s) := by
  unfold takeEndTag; (try dsimp only) <;> (try (repeat' split) <;> first | exact hs | (simp (maxDischargeDepth := 40) [*]; done) | (simp +contextual (maxDischargeDepth := 40) [*]; done))
@[simp] theorem scrubStep_lanes (s : State) (hs : LanesInv s) : LanesInv (scrubStep s) := by
  unfold scrubStep; (try dsimp only) <;> (try (repeat' split) <;> first | exact hs | (simp (maxDischargeDepth := 40) [*]; done) | (simp +contextual (maxDischargeDepth := 40) [*]; done))
@[simp] theorem beginFrameOn_lanes (l : Lane) (s : State) (hs : LanesInv s) : LanesInv (beginFrameOn l s) := by
  unfold beginFrameOn; (try dsimp only) <;> (try (repeat' split) <;> first | exact hs | (simp (maxDischargeDepth := 40) [*]; done) | (simp +contextual (maxDischargeDepth := 40) [*]; done))
@[simp] theorem goMissing_lanes (st : Station) (s : State) (hs : LanesInv s) : LanesInv (goMissing st s) := by
  unfold goMissing; (try dsimp only) <;> (try (repeat' split) <;> first | exact hs | (simp (maxDischargeDepth := 40) [*]; done) | (simp +contextual (maxDischargeDepth := 40) [*]; done))
@[simp] theorem askPresence_lanes (s : State) (hs : LanesInv s) : LanesInv (askPresence s) := by
  unfold askPresence; (try dsimp only) <;> (try (repeat' split) <;> first | exact hs | (simp (maxDischargeDepth := 40) [*]; done) | (simp +contextual (maxDischargeDepth := 40) [*]; done))
@[simp] theorem judgeReadSegment_lanes (n : Nat) (s : State) (hs : LanesInv s) : LanesInv (judgeReadSegment n s) := by
  unfold judgeReadSegment; (try dsimp only) <;> (try (repeat' split) <;> first | exact hs | (simp (maxDischargeDepth := 40) [*]; done) | (simp +contextual (maxDischargeDepth := 40) [*]; done))
@[simp] theorem readSegmentStep_lanes (n : Nat) (s : State) (hs : LanesInv s) : LanesInv (readSegmentStep n s) := by
  unfold readSegmentStep; (try dsimp only) <;> (try (repeat' split) <;> first | exact hs | (simp (maxDischargeDepth := 40) [*]; done) | (simp +contextual (maxDischargeDepth := 40) [*]; done))
@[simp] theorem judgeControl_lanes (kind group value mask : Byte) (s : State) (hs : LanesInv s) : LanesInv (judgeControl kind group value mask s) := by
  unfold judgeControl; (try dsimp only) <;> (try (repeat' split) <;> first | exact hs | (simp (maxDischargeDepth := 40) [*]; done) | (simp +contextual (maxDischargeDepth := 40) [*]; done))
@[simp] theorem segmentControlStep_lanes (kind group value mask : Byte) (s : State) (hs : LanesInv s) : LanesInv (segmentControlStep kind group value mask s) := by
  unfold segmentControlStep; (try dsimp only) <;> (try (repeat' split) <;> first | exact hs | (simp (maxDischargeDepth := 40) [*]; done) | (simp +contextual (maxDischargeDepth := 40) [*]; done))
@[simp] theorem powerOnValues_lanes (held : Bool) (s : State) (hs : LanesInv s) : LanesInv (powerOnValues held s) := by
  unfold powerOnValues; (try dsimp only) <;> (try (repeat' split) <;> first | exact hs | (simp (maxDischargeDepth := 40) [*]; done) | (simp +contextual (maxDischargeDepth := 40) [*]; done))
end Sys2Proof.Machine
end

