-- ==== Sys2Proof/Laws/Layouts.lean ====
section
/-! SUPPORT. What the readers give of what the writers have laid down: bytes, values of two to four bytes, parts of a concatenation;
and the shape of the records a layout speaks of. -/

namespace Sys2Proof.Machine

/-! ## Values -/

theorem byte_toNat (n : Nat) : (byte n).toNat = n % 256 := by simp [byte]

theorem bit_le_one (b : Bool) : bit b ≤ 1 := by cases b <;> decide

theorem cycleValue_lt (c : Option CycleNo) : cycleValue c < 65536 := by
  cases c with
  | none => decide
  | some c => exact Nat.lt_of_lt_of_le c.isLt (by decide)

theorem u8_of_byte {r : List Byte} {i n : Nat} (h : r.getD i 0 = byte n) : u8 r i = n % 256 := by
  unfold u8; rw [h, byte_toNat]

theorem u8_of_lt {r : List Byte} {i n : Nat} (hn : n < 256) (h : r.getD i 0 = byte n) : u8 r i = n := by
  rw [u8_of_byte h, Nat.mod_eq_of_lt hn]

theorem u16_of_bytes {r : List Byte} {i n : Nat} (h0 : r.getD i 0 = byte (n / 256)) (h1 : r.getD (i + 1) 0 = byte n) :
    u16 r i = n % 65536 := by
  unfold u16 u8; rw [h0, h1, byte_toNat, byte_toNat]; omega

theorem u16_of_cycle {r : List Byte} {i : Nat} {c : Option CycleNo} (h0 : r.getD i 0 = byte (cycleValue c / 256))
    (h1 : r.getD (i + 1) 0 = byte (cycleValue c)) : u16 r i = cycleValue c := by
  rw [u16_of_bytes h0 h1, Nat.mod_eq_of_lt (cycleValue_lt c)]

theorem u24_of_slice {r : List Byte} {i n : Nat} (h : slice r i 3 = be24 n) : u24 r i = n % 16777216 := by
  unfold slice be24 at h
  simp [List.range_succ] at h
  obtain ⟨h0, h1, h2⟩ := h
  unfold u24 u16 u8
  simp [h0, h1, h2, byte_toNat]
  omega

theorem u32_of_slice {r : List Byte} {i : Nat} {v : BitVec 32} (h : slice r i 4 = be32 v) : u32 r i = v := by
  unfold slice be32 at h
  simp [List.range_succ] at h
  obtain ⟨h0, h1, h2, h3⟩ := h
  unfold u32 u16 u8
  apply BitVec.eq_of_toNat_eq
  simp [h0, h1, h2, h3, byte_toNat, show i + 2 + 1 = i + 3 from rfl]
  have := v.isLt
  omega

/-! ## Parts of a concatenation -/

theorem slice_length (bs : List Byte) (i n : Nat) : (slice bs i n).length = n := by simp [slice]

theorem getD_slice {bs : List Byte} {i n k : Nat} (h : k < n) : (slice bs i n).getD k 0 = bs.getD (i + k) 0 := by
  rw [List.getD_eq_getElem _ _ (by rw [slice_length]; exact h)]; simp [slice]

theorem getD_of_slice {bs x : List Byte} {i n k : Nat} (h : slice bs i n = x) (hk : k < n) :
    bs.getD (i + k) 0 = x.getD k 0 := by rw [← h, getD_slice hk]

theorem getD_append_at {l m : List Byte} {i : Nat} (k : Nat) (h : i = l.length + k) : (l ++ m).getD i 0 = m.getD k 0 := by
  subst h; rw [List.getD_append_right _ _ _ _ (by omega)]; congr 1; omega

theorem u16_append {bs cs : List Byte} {i k : Nat} (h : i = bs.length + k) : u16 (bs ++ cs) i = u16 cs k := by
  unfold u16 u8
  rw [getD_append_at k h, getD_append_at (k + 1) (by omega)]

/-- The part of `n` bytes that stands between `i` bytes and the rest. -/
theorem slice_of_append {bs x cs : List Byte} {i n : Nat} (hi : bs.length = i) (hx : x.length = n) :
    slice (bs ++ x ++ cs) i n = x := by
  subst hi hx
  apply List.ext_getElem
  · simp [slice]
  · intro k h1 h2
    simp only [slice, List.getElem_map, List.getElem_range]
    rw [List.append_assoc, getD_append_at k rfl, List.getD_append _ _ _ _ (by omega), List.getD_eq_getElem _ _ (by omega)]

/-- A part from the start, with the bytes beyond the end as 0. -/
theorem slice_zero (bs : List Byte) (n : Nat) : slice bs 0 n = bs.take n ++ List.replicate (n - bs.length) 0 := by
  apply List.ext_getElem
  · simp [slice]; omega
  · intro i h1 h2
    have hi : i < n := by simpa [slice] using h1
    simp only [slice, List.getElem_map, List.getElem_range, Nat.zero_add, List.getElem_append, List.length_take,
      List.getElem_take, List.getElem_replicate]
    split
    · rw [List.getD_eq_getElem _ _ (by omega)]
    · rw [List.getD_eq_default _ _ (by omega)]

/-! ## Optional fields -/

theorem optBytes_length {α : Type} (n : Nat) (f : α → List Byte) (o : Option α) (h : ∀ a, (f a).length = n) :
    (optBytes n f o).length = n := by cases o <;> simp [optBytes, h]

theorem optBytes_be32 (o : Option (BitVec 32)) : optBytes 4 be32 o = be32 (o.getD 0) := by cases o <;> rfl

theorem optBytes_slice (n : Nat) (o : Option (List Byte)) :
    optBytes n (fun x => slice x 0 n) o = slice (o.getD []) 0 n := by
  cases o with
  | none => apply List.ext_getElem <;> simp [optBytes, slice]
  | some x => rfl

/-! ## Bytes of flags -/

theorem flags_of_byte (a b c d e f g h : Bool) :
    let r := byte (bit a + 2 * bit b + 4 * bit c + 8 * bit d + 16 * bit e + 32 * bit f + 64 * bit g + 128 * bit h)
    r.getLsbD 0 = a ∧ r.getLsbD 1 = b ∧ r.getLsbD 2 = c ∧ r.getLsbD 3 = d ∧ r.getLsbD 4 = e ∧ r.getLsbD 5 = f ∧
      r.getLsbD 6 = g ∧ r.getLsbD 7 = h := by
  cases a <;> cases b <;> cases c <;> cases d <;> cases e <;> cases f <;> cases g <;> cases h <;> decide

theorem five_flags_lt (a b c d e : Bool) :
    (byte (bit a + 2 * bit b + 4 * bit c + 8 * bit d + 16 * bit e)).toNat < 32 := by
  cases a <;> cases b <;> cases c <;> cases d <;> cases e <;> decide

theorem fields_of_laneByte (x y : LaneHealth) (h : Lane) (l : Bool) :
    let r := byte (healthCode x + 4 * healthCode y + 16 * laneCode h + 32 * bit l)
    r.toNat % 4 = healthCode x ∧ r.toNat / 4 % 4 = healthCode y ∧ r.getLsbD 4 = decide (h = .y) ∧ r.getLsbD 5 = l ∧
      r.toNat < 64 := by
  cases x <;> cases y <;> cases h <;> cases l <;> decide

theorem fields_of_channelByte (u : ChannelUnit) :
    (channelByte u).toNat % 16 = channelStateCode u.state ∧ (channelByte u).toNat / 16 = roleCode u.role := by
  unfold channelByte; cases u.state <;> cases u.role <;> decide

/-! ## Records -/

theorem countBytes_length (ns : List Nat) : (countBytes ns).length = 2 * ns.length := by
  induction ns with
  | nil => rfl
  | cons a as ih =>
    rw [show countBytes (a :: as) = be16 a ++ countBytes as from rfl, List.length_append, ih]; simp [be16]; omega

theorem u16_countBytes (ns : List Nat) : ∀ k n : Nat, ns[k]? = some n → u16 (countBytes ns) (2 * k) = n % 65536 := by
  induction ns with
  | nil => intro k n h; simp at h
  | cons a as ih =>
    intro k n h
    rw [show countBytes (a :: as) = be16 a ++ countBytes as from rfl]
    cases k with
    | zero => simp at h; rw [← h]; exact u16_of_bytes rfl rfl
    | succ k => rw [u16_append (k := 2 * k) (by simp [be16]; omega)]; exact ih k n (by simpa using h)

/-- The status reply is 27 bytes and the counts it reports. -/
theorem statusReply_eq (s : State) : ∃ a b c d, loadResultBytes s.port.loadResult = [a, b, c, d] ∧ statusReply s =
    [byte (stationStateCode s.member.station), byte (phaseCode s.tracker.phase),
      byte (cycleValue s.tracker.cycle / 256), byte (cycleValue s.tracker.cycle),
      byte (cycleValue s.tracker.lastClosed / 256), byte (cycleValue s.tracker.lastClosed),
      flagByte s.tracker, byte (standingCode s.agree.standing), laneByte s.link, byte (bit s.evid.warn + 2 * bit s.evid.stop),
      a, b, c, d, channelByte s.channels.units.c1, channelByte s.channels.units.c2, channelByte s.channels.units.c3,
      channelByte s.channels.units.c4, byte s.port.notices.length, byte (s.tracker.stray / 256), byte s.tracker.stray,
      byte (s.channels.lost / 256), byte s.channels.lost, byte s.channels.units.c1.losses, byte s.channels.units.c2.losses,
      byte s.channels.units.c3.losses, byte s.channels.units.c4.losses] ++ countBytes (reportedCounts s) := by
  obtain ⟨a, b, c, d, h⟩ : ∃ a b c d, loadResultBytes s.port.loadResult = [a, b, c, d] := by
    cases s.port.loadResult <;> exact ⟨_, _, _, _, rfl⟩
  refine ⟨a, b, c, d, h, ?_⟩
  unfold statusReply
  rw [h]
  simp only [reportedCounts, linkCounts, coinCountList, evidCountList, agreeCountList, coupCountList, countBytes, be16,
    channelList, List.map_cons, List.map_nil, Four.get, List.cons_append, List.nil_append, List.flatMap_cons,
    List.flatMap_nil]

theorem segmentBytes_length (hLen : Nat) (g : SegmentRecord) : (segmentBytes hLen g).length = 8 + 2 * hLen := by
  unfold segmentBytes
  simp only [List.length_append, slice_length]
  rfl

/-! ## The amplitude scale and the lead hits -/

/-- Step `a + 1` of the scale is reached exactly when ten to the `a + 1` is at most the twentieth power of the ratio. -/
theorem lt_amplitudeOfRatio_iff (num den a : Nat) (h : a < 90) :
    a < amplitudeOfRatio num den ↔ 10 ^ (a + 1) * den ^ 20 ≤ num ^ 20 := by
  have key : ∀ n, let k := ((List.range n).filter fun a => decide (10 ^ (a + 1) * den ^ 20 ≤ num ^ 20)).length
      k ≤ n ∧ ∀ a, a < n → (10 ^ (a + 1) * den ^ 20 ≤ num ^ 20 ↔ a < k) := by
    intro n
    induction n with
    | zero => exact ⟨Nat.le_refl _, fun a h => by omega⟩
    | succ n ih =>
      dsimp only at ih ⊢
      rw [List.range_succ, List.filter_append, List.length_append]
      obtain ⟨h1, h2⟩ := ih
      generalize ((List.range n).filter fun a => decide (10 ^ (a + 1) * den ^ 20 ≤ num ^ 20)).length = k at *
      have hlast : ∀ j, (n < k + j ↔ 10 ^ (n + 1) * den ^ 20 ≤ num ^ 20) → k + j ≤ n + 1 →
          (k + j ≤ n → j = 0) → k + j ≤ n + 1 ∧ ∀ a, a < n + 1 → (10 ^ (a + 1) * den ^ 20 ≤ num ^ 20 ↔ a < k + j) := by
        intro j hj hle hz
        refine ⟨hle, fun a ha => ?_⟩
        rcases Nat.lt_or_ge a n with h | h
        · rw [h2 a h]
          rcases Nat.lt_or_ge n (k + j) with hn | hn
          · have := Nat.le_trans (Nat.mul_le_mul_right (den ^ 20) (Nat.pow_le_pow_right (n := 10) (by decide)
              (show a + 1 ≤ n + 1 by omega))) (hj.mp hn)
            have := (h2 a h).mp this
            omega
          · rw [hz hn]; omega
        · rw [show a = n by omega]; exact hj.symm
      by_cases hn : 10 ^ (n + 1) * den ^ 20 ≤ num ^ 20
      · have hk : k = n := by
          rcases Nat.lt_or_ge k n with h | h
          · have := (h2 k h).mp (Nat.le_trans (Nat.mul_le_mul_right _ (Nat.pow_le_pow_right (by decide) (by omega))) hn)
            omega
          · omega
        rw [show (List.filter (fun a => decide (10 ^ (a + 1) * den ^ 20 ≤ num ^ 20)) [n]).length = 1 by simp [hn]]
        exact hlast 1 ⟨fun _ => hn, fun _ => by omega⟩ (by omega) (by omega)
      · rw [show (List.filter (fun a => decide (10 ^ (a + 1) * den ^ 20 ≤ num ^ 20)) [n]).length = 0 by simp [hn]]
        exact hlast 0 ⟨fun h => by omega, fun h => absurd h hn⟩ (by omega) (fun _ => rfl)
  exact ((key 90).2 a h).symm

/-- Every sensor of a group has a lead hit, and every lead hit is a member. -/
theorem leadHits_cover (ms : List HitEntry) : (leadHits ms).length ≤ ms.length ∧
    (∀ x ∈ ms, ∃ y ∈ leadHits ms, sensorOf y = sensorOf x) ∧ ∀ x ∈ leadHits ms, x ∈ ms := by
  induction ms with
  | nil => simp [leadHits]
  | cons a as ih =>
    unfold leadHits
    refine ⟨?_, ?_, ?_⟩
    · have := List.length_filter_le (fun h => sensorOf h != sensorOf a) (leadHits as); simp; omega
    · intro x hx
      by_cases hh : sensorOf x = sensorOf a
      · exact ⟨a, List.mem_cons_self, hh.symm⟩
      · rcases List.mem_cons.mp hx with h | h
        · subst h; exact absurd rfl hh
        · obtain ⟨y, hy, e⟩ := ih.2.1 x h
          exact ⟨y, List.mem_cons_of_mem _ (List.mem_filter.mpr ⟨hy, by simp [e, hh]⟩), e⟩
    · intro x hx
      rcases List.mem_cons.mp hx with h | h
      · exact h ▸ List.mem_cons_self
      · exact List.mem_cons_of_mem _ (ih.2.2 x (List.mem_filter.mp h).1)

end Sys2Proof.Machine
end

