-- ==== Sys2Proof/Laws/Pending.lean ====
section
/-! SUPPORT. No operation touches the queue of waiting commands: one lemma for each operation. -/

namespace Sys2Proof.Machine

@[simp] theorem foldl_pending {α : Type} (f : State → α → State) (h : ∀ t a, (f t a).pending = t.pending) (l : List α) (s : State) : (l.foldl f s).pending = s.pending := by
  induction l generalizing s with
  | nil => rfl
  | cons a l ih => simp [ih, h]
@[simp] theorem unlessFrozen_pending (s : State) (f : State → State) (hf : ∀ t, (f t).pending = t.pending) : (State.unlessFrozen s f).pending = s.pending := by
  unfold State.unlessFrozen; (try dsimp only) <;> (try (repeat' split) <;> first | rfl | simp [*])
@[simp] theorem rewrite_pending (p : StoreWord → Bool) (s : State) : (rewrite p s).pending = s.pending := by
  unfold rewrite; (try dsimp only) <;> (try (repeat' split) <;> first | rfl | simp [*])
@[simp] theorem arrive_pending (m : Moment) (s : State) : (arrive m s).pending = s.pending := by
  unfold arrive; (try dsimp only) <;> (try (repeat' split) <;> first | rfl | simp [*])
@[simp] theorem raise_pending (n : Notice) (s : State) : (raise n s).pending = s.pending := by
  unfold raise; (try dsimp only) <;> (try (repeat' split) <;> first | rfl | simp [*])
@[simp] theorem raiseNow_pending (subject : Nat) (d : NoticeDetail) (s : State) : (raiseNow subject d s).pending = s.pending := by
  unfold raiseNow; (try dsimp only) <;> (try (repeat' split) <;> first | rfl | simp [*])
@[simp] theorem offerStacked_pending (s : State) : (offerStacked s).pending = s.pending := by
  unfold offerStacked; (try dsimp only) <;> (try (repeat' split) <;> first | rfl | simp [*])
@[simp] theorem beginFrame_pending (ref : Option Nat) (kind : FrameKind) (payload : List Byte) (s : State) : (beginFrame ref kind payload s).pending = s.pending := by
  unfold beginFrame; (try dsimp only) <;> (try (repeat' split) <;> first | rfl | simp [*])
@[simp] theorem selectEntry_pending (c : Candidate) (s : State) : (selectEntry c s).pending = s.pending := by
  unfold selectEntry; (try dsimp only) <;> (try (repeat' split) <;> first | rfl | simp [*])
@[simp] theorem selectFrame_pending (s : State) : (selectFrame s).pending = s.pending := by
  unfold selectFrame; (try dsimp only) <;> (try (repeat' split) <;> first | rfl | simp [*])
@[simp] theorem enqueue_pending (kind : FrameKind) (payload : List Byte) (s : State) : (enqueue kind payload s).pending = s.pending := by
  unfold enqueue; (try dsimp only) <;> (try (repeat' split) <;> first | rfl | simp [*])
@[simp] theorem requestUnchecked_pending (kind : FrameKind) (payload : List Byte) (s : State) : (requestUnchecked kind payload s).pending = s.pending := by
  unfold requestUnchecked; (try dsimp only) <;> (try (repeat' split) <;> first | rfl | simp [*])
@[simp] theorem withdraw_pending (ref : Nat) (s : State) : (withdraw ref s).pending = s.pending := by
  unfold withdraw; (try dsimp only) <;> (try (repeat' split) <;> first | rfl | simp [*])
@[simp] theorem removeHit_pending (id : HitId) (s : State) : (removeHit id s).pending = s.pending := by
  unfold removeHit; (try dsimp only) <;> (try (repeat' split) <;> first | rfl | simp [*])
@[simp] theorem settleCapture_pending (c : Channel) (arrival : Tag) (new : Capture) (s : State) : (settleCapture c arrival new s).pending = s.pending := by
  unfold settleCapture; (try dsimp only) <;> (try (repeat' split) <;> first | rfl | simp [*])
@[simp] theorem offerPolicy_pending (s : State) : (offerPolicy s).pending = s.pending := by
  unfold offerPolicy; (try dsimp only) <;> (try (repeat' split) <;> first | rfl | simp [*])
@[simp] theorem channelsWindowOpened_pending (s : State) : (channelsWindowOpened s).pending = s.pending := by
  unfold channelsWindowOpened; (try dsimp only) <;> (try (repeat' split) <;> first | rfl | simp [*])
@[simp] theorem stopStation_pending (kind : FaultKind) (w : StoreWord) (s : State) : (stopStation kind w s).pending = s.pending := by
  unfold stopStation; (try dsimp only) <;> (try (repeat' split) <;> first | rfl | simp [*])
@[simp] theorem freeze_pending (kind : FaultKind) (w : StoreWord) (s : State) : (freeze kind w s).pending = s.pending := by
  unfold freeze; (try dsimp only) <;> (try (repeat' split) <;> first | rfl | simp [*])
@[simp] theorem resetBlocks_pending (why : RestartCause) (s : State) : (resetBlocks why s).pending = s.pending := by
  unfold resetBlocks; (try dsimp only) <;> (try (repeat' split) <;> first | rfl | simp [*])
@[simp] theorem startBlocks_pending (s : State) : (startBlocks s).pending = s.pending := by
  unfold startBlocks; (try dsimp only) <;> (try (repeat' split) <;> first | rfl | simp [*])
@[simp] theorem enterJoining_pending (s : State) : (enterJoining s).pending = s.pending := by
  unfold enterJoining; (try dsimp only) <;> (try (repeat' split) <;> first | rfl | simp [*])
@[simp] theorem selfRestart_pending (why : RestartCause) (s : State) : (selfRestart why s).pending = s.pending := by
  unfold selfRestart; (try dsimp only) <;> (try (repeat' split) <;> first | rfl | simp [*])
@[simp] theorem secondFault_pending (s : State) : (secondFault s).pending = s.pending := by
  unfold secondFault; (try dsimp only) <;> (try (repeat' split) <;> first | rfl | simp [*])
@[simp] theorem lookAgain_pending (s t : State) : (lookAgain s t).pending = t.pending := by
  unfold lookAgain
  split
  · exact secondFault_pending _
  · rfl
@[simp] theorem readFault_pending (kind : FaultKind) (w : StoreWord) (s : State) : (readFault kind w s).pending = s.pending := by
  unfold readFault; (try dsimp only) <;> (try (repeat' split) <;> first | rfl | simp [*])
@[simp] theorem readingConfig_pending (offsets : List Nat) (stop f : State → State) (s : State) (hstop : ∀ t, (stop t).pending = t.pending) (hf : ∀ t, (f t).pending = t.pending) : (readingConfig offsets stop f s).pending = s.pending := by
  unfold readingConfig; (try dsimp only) <;> (try (repeat' split) <;> first | rfl | simp [*])
@[simp] theorem usingConfig_pending (offsets : List Nat) (f : State → State) (s : State) (hf : ∀ t, (f t).pending = t.pending) : (usingConfig offsets f s).pending = s.pending := by
  unfold usingConfig; (try dsimp only) <;> (try (repeat' split) <;> first | rfl | simp [*])
@[simp] theorem usingWords_pending (words : List StoreWord) (f : State → State) (s : State) (hf : ∀ t, (f t).pending = t.pending) : (usingWords words f s).pending = s.pending := by
  unfold usingWords; (try dsimp only) <;> (try (repeat' split) <;> first | rfl | simp [*])
@[simp] theorem boardReads_pending (words : List StoreWord) (f : State → State) (s : State) (hf : ∀ t, (f t).pending = t.pending) : (boardReads words f s).pending = s.pending := by
  unfold boardReads; (try dsimp only) <;> (try (repeat' split) <;> first | rfl | simp [*])
@[simp] theorem selectNext_pending (s : State) : (selectNext s).pending = s.pending := by
  unfold selectNext; (try dsimp only) <;> (try (repeat' split) <;> first | rfl | simp [*])
@[simp] theorem request_pending (kind : FrameKind) (payload : List Byte) (taken : Nat → State → State) (refused : State → State) (s : State) (htaken : ∀ a t, (taken a t).pending = t.pending) (hrefused : ∀ t, (refused t).pending = t.pending) : (request kind payload taken refused s).pending = s.pending := by
  unfold request; (try dsimp only) <;> (try (repeat' split) <;> first | rfl | simp [*])
@[simp] theorem keepNoRef_pending (_ref : Nat) (s : State) : (keepNoRef _ref s).pending = s.pending := by
  unfold keepNoRef; (try dsimp only) <;> (try (repeat' split) <;> first | rfl | simp [*])
@[simp] theorem requestLogout_pending (p : LogoutPart) (s : State) : (requestLogout p s).pending = s.pending := by
  unfold requestLogout; (try dsimp only) <;> (try (repeat' split) <;> first | rfl | simp [*])
@[simp] theorem softFault_pending (s : State) : (softFault s).pending = s.pending := by
  unfold softFault; (try dsimp only) <;> (try (repeat' split) <;> first | rfl | simp [*])
@[simp] theorem checkWindow_pending (s : State) : (checkWindow s).pending = s.pending := by
  unfold checkWindow; (try dsimp only) <;> (try (repeat' split) <;> first | rfl | simp [*])
@[simp] theorem formGroup_pending (s : State) : (formGroup s).pending = s.pending := by
  unfold formGroup; (try dsimp only) <;> (try (repeat' split) <;> first | rfl | simp [*])
@[simp] theorem readWindow_pending (s : State) : (readWindow s).pending = s.pending := by
  unfold readWindow; (try dsimp only) <;> (try (repeat' split) <;> first | rfl | simp [*])
@[simp] theorem hitEntered_pending (id : HitId) (s : State) : (hitEntered id s).pending = s.pending := by
  unfold hitEntered; (try dsimp only) <;> (try (repeat' split) <;> first | rfl | simp [*])
@[simp] theorem requestRemoval_pending (id : HitId) (s : State) : (requestRemoval id s).pending = s.pending := by
  unfold requestRemoval; (try dsimp only) <;> (try (repeat' split) <;> first | rfl | simp [*])
@[simp] theorem discardHit_pending (c : Channel) (hit : Option OpenHit) (s : State) : (discardHit c hit s).pending = s.pending := by
  unfold discardHit; (try dsimp only) <;> (try (repeat' split) <;> first | rfl | simp [*])
@[simp] theorem disableInto_pending (c : Channel) (u : ChannelUnit) (s : State) : (disableInto c u s).pending = s.pending := by
  unfold disableInto; (try dsimp only) <;> (try (repeat' split) <;> first | rfl | simp [*])
@[simp] theorem disableChannel_pending (c : Channel) (state : ChannelState) (role : Role) (s : State) : (disableChannel c state role s).pending = s.pending := by
  unfold disableChannel; (try dsimp only) <;> (try (repeat' split) <;> first | rfl | simp [*])
@[simp] theorem checkApplied_pending (s : State) : (checkApplied s).pending = s.pending := by
  unfold checkApplied; (try dsimp only) <;> (try (repeat' split) <;> first | rfl | simp [*])
@[simp] theorem muteChannel_pending (c : Channel) (s : State) : (muteChannel c s).pending = s.pending := by
  unfold muteChannel; (try dsimp only) <;> (try (repeat' split) <;> first | rfl | simp [*])
@[simp] theorem listenAgain_pending (c : Channel) (s : State) : (listenAgain c s).pending = s.pending := by
  unfold listenAgain; (try dsimp only) <;> (try (repeat' split) <;> first | rfl | simp [*])
@[simp] theorem unmuteChannel_pending (c : Channel) (s : State) : (unmuteChannel c s).pending = s.pending := by
  unfold unmuteChannel; (try dsimp only) <;> (try (repeat' split) <;> first | rfl | simp [*])
@[simp] theorem remute_pending (c : Channel) (s : State) : (remute c s).pending = s.pending := by
  unfold remute; (try dsimp only) <;> (try (repeat' split) <;> first | rfl | simp [*])
@[simp] theorem listenAfterPulse_pending (c : Channel) (s : State) : (listenAfterPulse c s).pending = s.pending := by
  unfold listenAfterPulse; (try dsimp only) <;> (try (repeat' split) <;> first | rfl | simp [*])
@[simp] theorem returnToListen_pending (c : Channel) (s : State) : (returnToListen c s).pending = s.pending := by
  unfold returnToListen; (try dsimp only) <;> (try (repeat' split) <;> first | rfl | simp [*])
@[simp] theorem releaseChannel_pending (c : Channel) (s : State) : (releaseChannel c s).pending = s.pending := by
  unfold releaseChannel; (try dsimp only) <;> (try (repeat' split) <;> first | rfl | simp [*])
@[simp] theorem setSlot_pending (v : Slot) (s : State) : (setSlot v s).pending = s.pending := by
  unfold setSlot; (try dsimp only) <;> (try (repeat' split) <;> first | rfl | simp [*])
@[simp] theorem skipSlot_pending (s : State) : (skipSlot s).pending = s.pending := by
  unfold skipSlot; (try dsimp only) <;> (try (repeat' split) <;> first | rfl | simp [*])
@[simp] theorem slotQueued_pending (ref : Nat) (s : State) : (slotQueued ref s).pending = s.pending := by
  unfold slotQueued; (try dsimp only) <;> (try (repeat' split) <;> first | rfl | simp [*])
@[simp] theorem pulseRefused_pending (c : Channel) (s : State) : (pulseRefused c s).pending = s.pending := by
  unfold pulseRefused; (try dsimp only) <;> (try (repeat' split) <;> first | rfl | simp [*])
@[simp] theorem armChannel_pending (c : Channel) (s : State) : (armChannel c s).pending = s.pending := by
  unfold armChannel; (try dsimp only) <;> (try (repeat' split) <;> first | rfl | simp [*])
@[simp] theorem offerPulse_pending (s : State) : (offerPulse s).pending = s.pending := by
  unfold offerPulse; (try dsimp only) <;> (try (repeat' split) <;> first | rfl | simp [*])
@[simp] theorem offerInTime_pending (tag : Tag) (s : State) : (offerInTime tag s).pending = s.pending := by
  unfold offerInTime; (try dsimp only) <;> (try (repeat' split) <;> first | rfl | simp [*])
@[simp] theorem reofferPulse_pending (s : State) : (reofferPulse s).pending = s.pending := by
  unfold reofferPulse; (try dsimp only) <;> (try (repeat' split) <;> first | rfl | simp [*])
@[simp] theorem releaseNamed_pending (s : State) : (releaseNamed s).pending = s.pending := by
  unfold releaseNamed; (try dsimp only) <;> (try (repeat' split) <;> first | rfl | simp [*])
@[simp] theorem releasePulse_pending (s : State) : (releasePulse s).pending = s.pending := by
  unfold releasePulse; (try dsimp only) <;> (try (repeat' split) <;> first | rfl | simp [*])
@[simp] theorem askChannel_pending (c : Channel) (ask : MuteRequest) (s : State) : (askChannel c ask s).pending = s.pending := by
  unfold askChannel; (try dsimp only) <;> (try (repeat' split) <;> first | rfl | simp [*])
@[simp] theorem judgeRecordOf_pending (w : PulseWindow) (c : Channel) (s : State) : (judgeRecordOf w c s).pending = s.pending := by
  unfold judgeRecordOf; (try dsimp only) <;> (try (repeat' split) <;> first | rfl | simp [*])
@[simp] theorem judgeIfReferred_pending (w : PulseWindow) (c : Channel) (s : State) : (judgeIfReferred w c s).pending = s.pending := by
  unfold judgeIfReferred; (try dsimp only) <;> (try (repeat' split) <;> first | rfl | simp [*])
@[simp] theorem judgeSensor_pending (w : PulseWindow) (c : Channel) (s : State) : (judgeSensor w c s).pending = s.pending := by
  unfold judgeSensor; (try dsimp only) <;> (try (repeat' split) <;> first | rfl | simp [*])
@[simp] theorem judgeSensors_pending (w : PulseWindow) (l : List Channel) (s : State) : (judgeSensors w l s).pending = s.pending := by
  induction l generalizing s with
  | nil => rfl
  | cons a l ih => unfold judgeSensors; simp [*]
@[simp] theorem judgeWindow_pending (w : PulseWindow) (s : State) : (judgeWindow w s).pending = s.pending := by
  unfold judgeWindow; (try dsimp only) <;> (try (repeat' split) <;> first | rfl | simp [*])
@[simp] theorem judgeIfReady_pending (s : State) : (judgeIfReady s).pending = s.pending := by
  unfold judgeIfReady; (try dsimp only) <;> (try (repeat' split) <;> first | rfl | simp [*])
@[simp] theorem reofferThenJudge_pending (s : State) : (reofferThenJudge s).pending = s.pending := by
  unfold reofferThenJudge; (try dsimp only) <;> (try (repeat' split) <;> first | rfl | simp [*])
@[simp] theorem closeWindowUnits_pending (s : State) : (closeWindowUnits s).pending = s.pending := by
  unfold closeWindowUnits; (try dsimp only) <;> (try (repeat' split) <;> first | rfl | simp [*])
@[simp] theorem channelsWindowClosed_pending (s : State) : (channelsWindowClosed s).pending = s.pending := by
  unfold channelsWindowClosed; (try dsimp only) <;> (try (repeat' split) <;> first | rfl | simp [*])
@[simp] theorem abandonWindow_pending (s : State) : (abandonWindow s).pending = s.pending := by
  unfold abandonWindow; (try dsimp only) <;> (try (repeat' split) <;> first | rfl | simp [*])
@[simp] theorem openWindow_pending (s : State) : (openWindow s).pending = s.pending := by
  unfold openWindow; (try dsimp only) <;> (try (repeat' split) <;> first | rfl | simp [*])
@[simp] theorem ignoreWindow_pending (s : State) : (ignoreWindow s).pending = s.pending := by
  unfold ignoreWindow; (try dsimp only) <;> (try (repeat' split) <;> first | rfl | simp [*])
@[simp] theorem placeWindow_pending (pulser : Station) (fire finish : Tag) (s : State) : (placeWindow pulser fire finish s).pending = s.pending := by
  unfold placeWindow; (try dsimp only) <;> (try (repeat' split) <;> first | rfl | simp [*])
@[simp] theorem takePulse_pending (pulser : Station) (stamp : Tag) (s : State) : (takePulse pulser stamp s).pending = s.pending := by
  unfold takePulse; (try dsimp only) <;> (try (repeat' split) <;> first | rfl | simp [*])
@[simp] theorem pulseFrame_pending (pulser : Station) (cycle : Option CycleNo) (stamp : Tag) (s : State) : (pulseFrame pulser cycle stamp s).pending = s.pending := by
  unfold pulseFrame; (try dsimp only) <;> (try (repeat' split) <;> first | rfl | simp [*])
@[simp] theorem pulseReported_pending (s : State) : (pulseReported s).pending = s.pending := by
  unfold pulseReported; (try dsimp only) <;> (try (repeat' split) <;> first | rfl | simp [*])
@[simp] theorem armedChannelLost_pending (s : State) : (armedChannelLost s).pending = s.pending := by
  unfold armedChannelLost; (try dsimp only) <;> (try (repeat' split) <;> first | rfl | simp [*])
@[simp] theorem endSlotAtCyc_pending (s : State) : (endSlotAtCyc s).pending = s.pending := by
  unfold endSlotAtCyc; (try dsimp only) <;> (try (repeat' split) <;> first | rfl | simp [*])
@[simp] theorem couplingCyc_pending (s : State) : (couplingCyc s).pending = s.pending := by
  unfold couplingCyc; (try dsimp only) <;> (try (repeat' split) <;> first | rfl | simp [*])
@[simp] theorem placeInReturn_pending (s : State) : (placeInReturn s).pending = s.pending := by
  unfold placeInReturn; (try dsimp only) <;> (try (repeat' split) <;> first | rfl | simp [*])
@[simp] theorem placeIfDue_pending (s : State) : (placeIfDue s).pending = s.pending := by
  unfold placeIfDue; (try dsimp only) <;> (try (repeat' split) <;> first | rfl | simp [*])
@[simp] theorem placeSlot_pending (s : State) : (placeSlot s).pending = s.pending := by
  unfold placeSlot; (try dsimp only) <;> (try (repeat' split) <;> first | rfl | simp [*])
@[simp] theorem coinCounts_pending (f : CoincidenceCounts → CoincidenceCounts) (s : State) : (coinCounts f s).pending = s.pending := by
  unfold coinCounts; (try dsimp only) <;> (try (repeat' split) <;> first | rfl | simp [*])
@[simp] theorem enterWindow_pending (e : HitEntry) (s : State) : (enterWindow e s).pending = s.pending := by
  unfold enterWindow; (try dsimp only) <;> (try (repeat' split) <;> first | rfl | simp [*])
@[simp] theorem offerOwnHit_pending (c : Channel) (arrival : Tag) (phase : Phase) (s : State) : (offerOwnHit c arrival phase s).pending = s.pending := by
  unfold offerOwnHit; (try dsimp only) <;> (try (repeat' split) <;> first | rfl | simp [*])
@[simp] theorem enterOwnHit_pending (c : Channel) (arrival : Tag) (phase : Phase) (s : State) : (enterOwnHit c arrival phase s).pending = s.pending := by
  unfold enterOwnHit; (try dsimp only) <;> (try (repeat' split) <;> first | rfl | simp [*])
@[simp] theorem fillFeatures_pending (id : HitId) (f : Features) (s : State) : (fillFeatures id f s).pending = s.pending := by
  unfold fillFeatures; (try dsimp only) <;> (try (repeat' split) <;> first | rfl | simp [*])
@[simp] theorem eventDropped_pending (s : State) : (eventDropped s).pending = s.pending := by
  unfold eventDropped; (try dsimp only) <;> (try (repeat' split) <;> first | rfl | simp [*])
@[simp] theorem ownerTaken_pending (ref : Nat) (s : State) : (ownerTaken ref s).pending = s.pending := by
  unfold ownerTaken; (try dsimp only) <;> (try (repeat' split) <;> first | rfl | simp [*])
@[simp] theorem requestAsOwner_pending (members : List HitEntry) (crowded : Bool) (s : State) : (requestAsOwner members crowded s).pending = s.pending := by
  unfold requestAsOwner; (try dsimp only) <;> (try (repeat' split) <;> first | rfl | simp [*])
@[simp] theorem publishAsOwner_pending (members : List HitEntry) (crowded : Bool) (s : State) : (publishAsOwner members crowded s).pending = s.pending := by
  unfold publishAsOwner; (try dsimp only) <;> (try (repeat' split) <;> first | rfl | simp [*])
@[simp] theorem addPending_pending (members : List HitEntry) (crowded : Bool) (rank : Nat) (s : State) : (addPending members crowded rank s).pending = s.pending := by
  unfold addPending; (try dsimp only) <;> (try (repeat' split) <;> first | rfl | simp [*])
@[simp] theorem pendGroup_pending (members : List HitEntry) (crowded : Bool) (rank : Nat) (s : State) : (pendGroup members crowded rank s).pending = s.pending := by
  unfold pendGroup; (try dsimp only) <;> (try (repeat' split) <;> first | rfl | simp [*])
@[simp] theorem closeGroup_pending (g : OpenGroup) (s : State) : (closeGroup g s).pending = s.pending := by
  unfold closeGroup; (try dsimp only) <;> (try (repeat' split) <;> first | rfl | simp [*])
@[simp] theorem closeDueGroups_pending (n : Nat) (s : State) : (closeDueGroups n s).pending = s.pending := by
  induction n generalizing s with
  | zero => rfl
  | succ n ih => unfold closeDueGroups; (repeat' split) <;> first | rfl | simp [*]
@[simp] theorem standInTaken_pending (p : PendingGroup) (ref : Nat) (s : State) : (standInTaken p ref s).pending = s.pending := by
  unfold standInTaken; (try dsimp only) <;> (try (repeat' split) <;> first | rfl | simp [*])
@[simp] theorem standInRefused_pending (p : PendingGroup) (s : State) : (standInRefused p s).pending = s.pending := by
  unfold standInRefused; (try dsimp only) <;> (try (repeat' split) <;> first | rfl | simp [*])
@[simp] theorem requestAsStandIn_pending (p : PendingGroup) (s : State) : (requestAsStandIn p s).pending = s.pending := by
  unfold requestAsStandIn; (try dsimp only) <;> (try (repeat' split) <;> first | rfl | simp [*])
@[simp] theorem publishAsStandIn_pending (p : PendingGroup) (s : State) : (publishAsStandIn p s).pending = s.pending := by
  unfold publishAsStandIn; (try dsimp only) <;> (try (repeat' split) <;> first | rfl | simp [*])
@[simp] theorem eventOutcome_pending (ref : Nat) (wasSent : Bool) (s : State) : (eventOutcome ref wasSent s).pending = s.pending := by
  unfold eventOutcome; (try dsimp only) <;> (try (repeat' split) <;> first | rfl | simp [*])
@[simp] theorem peerHit_pending (sender : Station) (offset : Tag) (s : State) (h : HitRecord) : (peerHit sender offset s h).pending = s.pending := by
  unfold peerHit; (try dsimp only) <;> (try (repeat' split) <;> first | rfl | simp [*])
@[simp] theorem takePeerHit_pending (sender : Station) (offset : Tag) (h : HitRecord) (s : State) : (takePeerHit sender offset h s).pending = s.pending := by
  unfold takePeerHit; (try dsimp only) <;> (try (repeat' split) <;> first | rfl | simp [*])
@[simp] theorem takePeerHits_pending (sender : Station) (offset : Tag) (hs : List HitRecord) (s : State) : (takePeerHits sender offset hs s).pending = s.pending := by
  induction hs generalizing s with
  | nil => rfl
  | cons h t ih => unfold takePeerHits; simp [ih]
@[simp] theorem closeIfMoved_pending (old : Option Tag) (s : State) : (closeIfMoved old s).pending = s.pending := by
  unfold closeIfMoved; (try dsimp only) <;> (try (repeat' split) <;> first | rfl | simp [*])
@[simp] theorem takeHits_pending (sender : Station) (f : RxFrame) (s : State) : (takeHits sender f s).pending = s.pending := by
  unfold takeHits; (try dsimp only) <;> (try (repeat' split) <;> first | rfl | simp [*])
@[simp] theorem readForHits_pending (sender : Station) (f : RxFrame) (s : State) : (readForHits sender f s).pending = s.pending := by
  unfold readForHits; (try dsimp only) <;> (try (repeat' split) <;> first | rfl | simp [*])
@[simp] theorem hitFrame_pending (sender : Station) (f : RxFrame) (s : State) : (hitFrame sender f s).pending = s.pending := by
  unfold hitFrame; (try dsimp only) <;> (try (repeat' split) <;> first | rfl | simp [*])
@[simp] theorem withdrawPending_pending (p : PendingGroup) (s : State) : (withdrawPending p s).pending = s.pending := by
  unfold withdrawPending; (try dsimp only) <;> (try (repeat' split) <;> first | rfl | simp [*])
@[simp] theorem eventReceipt_pending (e : EventRecord) (s : State) : (eventReceipt e s).pending = s.pending := by
  unfold eventReceipt; (try dsimp only) <;> (try (repeat' split) <;> first | rfl | simp [*])
@[simp] theorem discardCoincidence_pending (s : State) : (discardCoincidence s).pending = s.pending := by
  unfold discardCoincidence; (try dsimp only) <;> (try (repeat' split) <;> first | rfl | simp [*])
@[simp] theorem evidCounts_pending (f : EvidenceCounts → EvidenceCounts) (s : State) : (evidCounts f s).pending = s.pending := by
  unfold evidCounts; (try dsimp only) <;> (try (repeat' split) <;> first | rfl | simp [*])
@[simp] theorem judgeApplied_pending (sender : Station) (e : EventRecord) (s : State) : (judgeApplied sender e s).pending = s.pending := by
  unfold judgeApplied; (try dsimp only) <;> (try (repeat' split) <;> first | rfl | simp [*])
@[simp] theorem applyEvent_pending (sender : Station) (e : EventRecord) (s : State) : (applyEvent sender e s).pending = s.pending := by
  unfold applyEvent; (try dsimp only) <;> (try (repeat' split) <;> first | rfl | simp [*])
@[simp] theorem foldOne_pending (closed : Option CycleNo) (n : Nat) (s : State) : (foldOne closed n s).pending = s.pending := by
  unfold foldOne; (try dsimp only) <;> (try (repeat' split) <;> first | rfl | simp [*])
@[simp] theorem foldSegment_pending (closed : Option CycleNo) (n : Nat) (s : State) : (foldSegment closed n s).pending = s.pending := by
  unfold foldSegment; (try dsimp only) <;> (try (repeat' split) <;> first | rfl | simp [*])
@[simp] theorem foldSegments_pending (cl : Option CycleNo) (l : List Nat) (s : State) : (foldSegments cl l s).pending = s.pending := by
  induction l generalizing s with
  | nil => rfl
  | cons a l ih => unfold foldSegments; simp [*]

@[simp] theorem noticeChange_pending (cycle : Option CycleNo) (cause : SegCause) (n : Nat) (old new : SegmentRecord) (s : State) : (noticeChange cycle cause n old new s).pending = s.pending := by
  unfold noticeChange; (try dsimp only) <;> (try (repeat' split) <;> first | rfl | simp [*])
@[simp] theorem raiseChanges_pending (cycle : Option CycleNo) (cause : SegCause) (old new : List SegmentRecord) (s : State) : (raiseChanges cycle cause old new s).pending = s.pending := by
  unfold raiseChanges; (try dsimp only) <;> (try (repeat' split) <;> first | rfl | simp [*])
@[simp] theorem setOutputs_pending (s : State) : (setOutputs s).pending = s.pending := by
  unfold setOutputs; (try dsimp only) <;> (try (repeat' split) <;> first | rfl | simp [*])
@[simp] theorem deriveOutputs_pending (s : State) : (deriveOutputs s).pending = s.pending := by
  unfold deriveOutputs; (try dsimp only) <;> (try (repeat' split) <;> first | rfl | simp [*])
@[simp] theorem deriveUnlessHeld_pending (s : State) : (deriveUnlessHeld s).pending = s.pending := by
  unfold deriveUnlessHeld; (try dsimp only) <;> (try (repeat' split) <;> first | rfl | simp [*])
@[simp] theorem standingChanged_pending (s : State) : (standingChanged s).pending = s.pending := by
  unfold standingChanged; (try dsimp only) <;> (try (repeat' split) <;> first | rfl | simp [*])
@[simp] theorem emptyApplied_pending (s : State) : (emptyApplied s).pending = s.pending := by
  unfold emptyApplied; (try dsimp only) <;> (try (repeat' split) <;> first | rfl | simp [*])
@[simp] theorem raiseAge_pending (s : State) : (raiseAge s).pending = s.pending := by
  unfold raiseAge; (try dsimp only) <;> (try (repeat' split) <;> first | rfl | simp [*])
@[simp] theorem afterFold_pending (closed : Option CycleNo) (old : List SegmentRecord) (s : State) : (afterFold closed old s).pending = s.pending := by
  unfold afterFold; (try dsimp only) <;> (try (repeat' split) <;> first | rfl | simp [*])
@[simp] theorem foldTable_pending (closed : Option CycleNo) (s : State) : (foldTable closed s).pending = s.pending := by
  unfold foldTable; (try dsimp only) <;> (try (repeat' split) <;> first | rfl | simp [*])
@[simp] theorem evidenceClose_pending (closed : Option CycleNo) (kind : CloseKind) (s : State) : (evidenceClose closed kind s).pending = s.pending := by
  unfold evidenceClose; (try dsimp only) <;> (try (repeat' split) <;> first | rfl | simp [*])
@[simp] theorem controlOne_pending (c : Control) (n : Nat) (s : State) : (controlOne c n s).pending = s.pending := by
  unfold controlOne; (try dsimp only) <;> (try (repeat' split) <;> first | rfl | simp [*])
@[simp] theorem controlSegments_pending (c : Control) (l : List Nat) (s : State) : (controlSegments c l s).pending = s.pending := by
  induction l generalizing s with
  | nil => rfl
  | cons a l ih => unfold controlSegments; simp [*]
@[simp] theorem afterControl_pending (cause : SegCause) (old : List SegmentRecord) (s : State) : (afterControl cause old s).pending = s.pending := by
  unfold afterControl; (try dsimp only) <;> (try (repeat' split) <;> first | rfl | simp [*])
@[simp] theorem applyControl_pending (c : Control) (s : State) : (applyControl c s).pending = s.pending := by
  unfold applyControl; (try dsimp only) <;> (try (repeat' split) <;> first | rfl | simp [*])
@[simp] theorem agreeCounts_pending (f : AgreementCounts → AgreementCounts) (s : State) : (agreeCounts f s).pending = s.pending := by
  unfold agreeCounts; (try dsimp only) <;> (try (repeat' split) <;> first | rfl | simp [*])
@[simp] theorem setTransfer_pending (t : Transfer) (s : State) : (setTransfer t s).pending = s.pending := by
  unfold setTransfer; (try dsimp only) <;> (try (repeat' split) <;> first | rfl | simp [*])
@[simp] theorem abandonTransfer_pending (cause : AbandonCause) (s : State) : (abandonTransfer cause s).pending = s.pending := by
  unfold abandonTransfer; (try dsimp only) <;> (try (repeat' split) <;> first | rfl | simp [*])
@[simp] theorem donorGone_pending (st : Station) (s : State) : (donorGone st s).pending = s.pending := by
  unfold donorGone; (try dsimp only) <;> (try (repeat' split) <;> first | rfl | simp [*])
@[simp] theorem abortTransfer_pending (s : State) : (abortTransfer s).pending = s.pending := by
  unfold abortTransfer; (try dsimp only) <;> (try (repeat' split) <;> first | rfl | simp [*])
@[simp] theorem rowTaken_pending (row : RowFrame) (ref : Nat) (s : State) : (rowTaken row ref s).pending = s.pending := by
  unfold rowTaken; (try dsimp only) <;> (try (repeat' split) <;> first | rfl | simp [*])
@[simp] theorem requestRow_pending (row : RowFrame) (s : State) : (requestRow row s).pending = s.pending := by
  unfold requestRow; (try dsimp only) <;> (try (repeat' split) <;> first | rfl | simp [*])
@[simp] theorem makeRow_pending (row : RowFrame) (s : State) : (makeRow row s).pending = s.pending := by
  unfold makeRow; (try dsimp only) <;> (try (repeat' split) <;> first | rfl | simp [*])
@[simp] theorem sendRow_pending (first : Nat) (s : State) : (sendRow first s).pending = s.pending := by
  unfold sendRow; (try dsimp only) <;> (try (repeat' split) <;> first | rfl | simp [*])
@[simp] theorem rowOutcome_pending (ref : Nat) (wasSent : Bool) (s : State) : (rowOutcome ref wasSent s).pending = s.pending := by
  unfold rowOutcome; (try dsimp only) <;> (try (repeat' split) <;> first | rfl | simp [*])
@[simp] theorem digestNotSent_pending (s : State) : (digestNotSent s).pending = s.pending := by
  unfold digestNotSent; (try dsimp only) <;> (try (repeat' split) <;> first | rfl | simp [*])
@[simp] theorem stopSending_pending (s : State) : (stopSending s).pending = s.pending := by
  unfold stopSending; (try dsimp only) <;> (try (repeat' split) <;> first | rfl | simp [*])
@[simp] theorem storeSnapshot_pending (closed : Option CycleNo) (s : State) : (storeSnapshot closed s).pending = s.pending := by
  unfold storeSnapshot; (try dsimp only) <;> (try (repeat' split) <;> first | rfl | simp [*])
@[simp] theorem requestDigest_pending (snap : Snapshot) (digest : BitVec 32) (s : State) : (requestDigest snap digest s).pending = s.pending := by
  unfold requestDigest; (try dsimp only) <;> (try (repeat' split) <;> first | rfl | simp [*])
@[simp] theorem digestSnapshot_pending (snap : Snapshot) (s : State) : (digestSnapshot snap s).pending = s.pending := by
  unfold digestSnapshot; (try dsimp only) <;> (try (repeat' split) <;> first | rfl | simp [*])
@[simp] theorem startDigestWindow_pending (s : State) : (startDigestWindow s).pending = s.pending := by
  unfold startDigestWindow; (try dsimp only) <;> (try (repeat' split) <;> first | rfl | simp [*])
@[simp] theorem takeSnapshot_pending (closed : Option CycleNo) (s : State) : (takeSnapshot closed s).pending = s.pending := by
  unfold takeSnapshot; (try dsimp only) <;> (try (repeat' split) <;> first | rfl | simp [*])
@[simp] theorem copyTable_pending (closed : Option CycleNo) (s : State) : (copyTable closed s).pending = s.pending := by
  unfold copyTable; (try dsimp only) <;> (try (repeat' split) <;> first | rfl | simp [*])
@[simp] theorem agreementClose_pending (closed : Option CycleNo) (s : State) : (agreementClose closed s).pending = s.pending := by
  unfold agreementClose; (try dsimp only) <;> (try (repeat' split) <;> first | rfl | simp [*])
@[simp] theorem setStanding_pending (v : Standing) (s : State) : (setStanding v s).pending = s.pending := by
  unfold setStanding; (try dsimp only) <;> (try (repeat' split) <;> first | rfl | simp [*])
@[simp] theorem decideAs_pending (v : Standing) (s : State) : (decideAs v s).pending = s.pending :=
  setStanding_pending v _
@[simp] theorem enterAwaiting_pending (donor : Station) (cycle : Option CycleNo) (v : BitVec 32) (s : State) : (enterAwaiting donor cycle v s).pending = s.pending := by
  unfold enterAwaiting; (try dsimp only) <;> (try (repeat' split) <;> first | rfl | simp [*])
@[simp] theorem actOnStanding_pending (own : Station) (standing : Standing) (cycle : Option CycleNo) (verdict : Option (BitVec 32 × Station)) (senders : List DigestSender) (s : State) : (actOnStanding own standing cycle verdict senders s).pending = s.pending := by
  unfold actOnStanding; (try dsimp only) <;> (try (repeat' split) <;> first | rfl | simp [*])
@[simp] theorem decideStanding_pending (own : Station) (snap : Snapshot) (digest : BitVec 32) (senders : List DigestSender) (s : State) : (decideStanding own snap digest senders s).pending = s.pending := by
  unfold decideStanding; (try dsimp only) <;> (try (repeat' split) <;> first | rfl | simp [*])
@[simp] theorem decideAdoption_pending (m : CycleNo) (senders : List DigestSender) (s : State) : (decideAdoption m senders s).pending = s.pending := by
  unfold decideAdoption; (try dsimp only) <;> (try (repeat' split) <;> first | rfl | simp [*])
@[simp] theorem decide__pending (s : State) : (decide_ s).pending = s.pending := by
  unfold decide_; (try dsimp only) <;> (try (repeat' split) <;> first | rfl | simp [*])
@[simp] theorem carryControl_pending (c : Control) (s : State) : (carryControl c s).pending = s.pending := by
  unfold carryControl; (try dsimp only) <;> (try (repeat' split) <;> first | rfl | simp [*])
@[simp] theorem malformedControl_pending (s : State) : (malformedControl s).pending = s.pending := by
  unfold malformedControl; (try dsimp only) <;> (try (repeat' split) <;> first | rfl | simp [*])
@[simp] theorem takeControl_pending (c : Control) (s : State) : (takeControl c s).pending = s.pending := by
  unfold takeControl; (try dsimp only) <;> (try (repeat' split) <;> first | rfl | simp [*])
@[simp] theorem controlFrame_pending (sender : Station) (p : List Byte) (s : State) : (controlFrame sender p s).pending = s.pending := by
  unfold controlFrame; (try dsimp only) <;> (try (repeat' split) <;> first | rfl | simp [*])
@[simp] theorem reapplyControls_pending (l : List Control) (s : State) : (reapplyControls l s).pending = s.pending := by
  induction l generalizing s with
  | nil => rfl
  | cons a l ih => unfold reapplyControls; simp [*]
@[simp] theorem replaceTable_pending (records : List SegmentRecord) (age : Nat) (s : State) : (replaceTable records age s).pending = s.pending := by
  unfold replaceTable; (try dsimp only) <;> (try (repeat' split) <;> first | rfl | simp [*])
@[simp] theorem endTransfer_pending (donor : Station) (s : State) : (endTransfer donor s).pending = s.pending := by
  unfold endTransfer; (try dsimp only) <;> (try (repeat' split) <;> first | rfl | simp [*])
@[simp] theorem completeTransfer_pending (donor : Station) (row : RowFrame) (buffer : List SegmentRecord) (s : State) : (completeTransfer donor row buffer s).pending = s.pending := by
  unfold completeTransfer; (try dsimp only) <;> (try (repeat' split) <;> first | rfl | simp [*])
@[simp] theorem ignoreRow_pending (s : State) : (ignoreRow s).pending = s.pending := by
  unfold ignoreRow; (try dsimp only) <;> (try (repeat' split) <;> first | rfl | simp [*])
@[simp] theorem takeRow_pending (donor : Station) (cycle : Option CycleNo) (digest : BitVec 32) (nextFirst : Nat) (buffer : List SegmentRecord) (row : RowFrame) (s : State) : (takeRow donor cycle digest nextFirst buffer row s).pending = s.pending := by
  unfold takeRow; (try dsimp only) <;> (try (repeat' split) <;> first | rfl | simp [*])
@[simp] theorem rowFrame_pending (sender : Station) (own : Bool) (p : List Byte) (s : State) : (rowFrame sender own p s).pending = s.pending := by
  unfold rowFrame; (try dsimp only) <;> (try (repeat' split) <;> first | rfl | simp [*])
@[simp] theorem laneNotice_pending (l : Lane) (e : LaneEvent) (s : State) : (laneNotice l e s).pending = s.pending := by
  unfold laneNotice; (try dsimp only) <;> (try (repeat' split) <;> first | rfl | simp [*])
@[simp] theorem setRun_pending (l : Lane) (run : Nat) (s : State) : (setRun l run s).pending = s.pending := by
  unfold setRun; (try dsimp only) <;> (try (repeat' split) <;> first | rfl | simp [*])
@[simp] theorem laneFailed_pending (l : Lane) (s : State) : (laneFailed l s).pending = s.pending := by
  unfold laneFailed; (try dsimp only) <;> (try (repeat' split) <;> first | rfl | simp [*])
@[simp] theorem laneSent_pending (l : Lane) (s : State) : (laneSent l s).pending = s.pending := by
  unfold laneSent; (try dsimp only) <;> (try (repeat' split) <;> first | rfl | simp [*])
@[simp] theorem logoutOutcome_pending (wasSent : Bool) (s : State) : (logoutOutcome wasSent s).pending = s.pending := by
  unfold logoutOutcome; (try dsimp only) <;> (try (repeat' split) <;> first | rfl | simp [*])
@[simp] theorem raiseResult_pending (delivered : Bool) (c : Control) (cause : Option FailCause) (retries : Nat) (s : State) : (raiseResult delivered c cause retries s).pending = s.pending := by
  unfold raiseResult; (try dsimp only) <;> (try (repeat' split) <;> first | rfl | simp [*])
@[simp] theorem controlResult_pending (delivered : Bool) (c : Control) (cause : Option FailCause) (retries : Nat) (s : State) : (controlResult delivered c cause retries s).pending = s.pending := by
  unfold controlResult; (try dsimp only) <;> (try (repeat' split) <;> first | rfl | simp [*])
@[simp] theorem controlOutcome_pending (ref : Nat) (wasSent : Bool) (cause : Option FailCause) (retries : Nat) (s : State) : (controlOutcome ref wasSent cause retries s).pending = s.pending := by
  unfold controlOutcome; (try dsimp only) <;> (try (repeat' split) <;> first | rfl | simp [*])
@[simp] theorem pulseOutcome_pending (ref : Nat) (wasSent : Bool) (stamp : Tag) (s : State) : (pulseOutcome ref wasSent stamp s).pending = s.pending := by
  unfold pulseOutcome; (try dsimp only) <;> (try (repeat' split) <;> first | rfl | simp [*])
@[simp] theorem digestOutcome_pending (wasSent : Bool) (s : State) : (digestOutcome wasSent s).pending = s.pending := by
  unfold digestOutcome; (try dsimp only) <;> (try (repeat' split) <;> first | rfl | simp [*])
@[simp] theorem reportOutcome_pending (c : CurrentFrame) (wasSent : Bool) (stamp : Tag) (s : State) : (reportOutcome c wasSent stamp s).pending = s.pending := by
  unfold reportOutcome; (try dsimp only) <;> (try (repeat' split) <;> first | rfl | simp [*])
@[simp] theorem restartPresence_pending (s : State) : (restartPresence s).pending = s.pending := by
  unfold restartPresence; (try dsimp only) <;> (try (repeat' split) <;> first | rfl | simp [*])
@[simp] theorem removeCurrent_pending (c : CurrentFrame) (wasSent : Bool) (s : State) : (removeCurrent c wasSent s).pending = s.pending := by
  unfold removeCurrent; (try dsimp only) <;> (try (repeat' split) <;> first | rfl | simp [*])
@[simp] theorem tellOutcome_pending (c : CurrentFrame) (wasSent : Bool) (stamp : Tag) (s : State) : (tellOutcome c wasSent stamp s).pending = s.pending := by
  unfold tellOutcome; (try dsimp only) <;> (try (repeat' split) <;> first | rfl | simp [*])
@[simp] theorem tellSent_pending (c : CurrentFrame) (stamp : Tag) (s : State) : (tellSent c stamp s).pending = s.pending := by
  unfold tellSent; (try dsimp only) <;> (try (repeat' split) <;> first | rfl | simp [*])
@[simp] theorem endSent_pending (c : CurrentFrame) (stamp : Tag) (s : State) : (endSent c stamp s).pending = s.pending := by
  unfold endSent; (try dsimp only) <;> (try (repeat' split) <;> first | rfl | simp [*])
@[simp] theorem endDropped_pending (c : CurrentFrame) (cause : FailCause) (s : State) : (endDropped c cause s).pending = s.pending := by
  unfold endDropped; (try dsimp only) <;> (try (repeat' split) <;> first | rfl | simp [*])
@[simp] theorem beginRetry_pending (c : CurrentFrame) (cause : FailCause) (s : State) : (beginRetry c cause s).pending = s.pending := by
  unfold beginRetry; (try dsimp only) <;> (try (repeat' split) <;> first | rfl | simp [*])
@[simp] theorem retryOrDrop_pending (c : CurrentFrame) (cause : FailCause) (s : State) : (retryOrDrop c cause s).pending = s.pending := by
  unfold retryOrDrop; (try dsimp only) <;> (try (repeat' split) <;> first | rfl | simp [*])
@[simp] theorem attemptFailed_pending (c : CurrentFrame) (cause : FailCause) (s : State) : (attemptFailed c cause s).pending = s.pending := by
  unfold attemptFailed; (try dsimp only) <;> (try (repeat' split) <;> first | rfl | simp [*])
@[simp] theorem attemptSucceeded_pending (c : CurrentFrame) (stamp : Tag) (s : State) : (attemptSucceeded c stamp s).pending = s.pending := by
  unfold attemptSucceeded; (try dsimp only) <;> (try (repeat' split) <;> first | rfl | simp [*])
@[simp] theorem breakFrame_pending (l : Lane) (idleFrom : Nat) (s : State) : (breakFrame l idleFrom s).pending = s.pending := by
  unfold breakFrame; (try dsimp only) <;> (try (repeat' split) <;> first | rfl | simp [*])
@[simp] theorem startFrame_pending (l : Lane) (s : State) : (startFrame l s).pending = s.pending := by
  unfold startFrame; (try dsimp only) <;> (try (repeat' split) <;> first | rfl | simp [*])
@[simp] theorem completeFrame_pending (l : Lane) (f : RxFrame) (s : State) : (completeFrame l f s).pending = s.pending := by
  unfold completeFrame; (try dsimp only) <;> (try (repeat' split) <;> first | rfl | simp [*])
@[simp] theorem unmarkEcho_pending (l : Lane) (s : State) : (unmarkEcho l s).pending = s.pending := by
  unfold unmarkEcho; (try dsimp only) <;> (try (repeat' split) <;> first | rfl | simp [*])
@[simp] theorem echoFailed_pending (c : CurrentFrame) (cause : FailCause) (s : State) : (echoFailed c cause s).pending = s.pending := by
  unfold echoFailed; (try dsimp only) <;> (try (repeat' split) <;> first | rfl | simp [*])
@[simp] theorem hearBytes_pending (rest : RestingLane) (s : State) : (hearBytes rest s).pending = s.pending := by
  unfold hearBytes; (try dsimp only) <;> (try (repeat' split) <;> first | rfl | simp [*])
@[simp] theorem beginTransmit_pending (c : CurrentFrame) (s : State) : (beginTransmit c s).pending = s.pending := by
  unfold beginTransmit; (try dsimp only) <;> (try (repeat' split) <;> first | rfl | simp [*])
@[simp] theorem strayEdge_pending (s : State) : (strayEdge s).pending = s.pending := by
  unfold strayEdge; (try dsimp only) <;> (try (repeat' split) <;> first | rfl | simp [*])
@[simp] theorem enterPhase_pending (p : Phase) (s : State) : (enterPhase p s).pending = s.pending := by
  unfold enterPhase; (try dsimp only) <;> (try (repeat' split) <;> first | rfl | simp [*])
@[simp] theorem beginCycle_pending (s : State) : (beginCycle s).pending = s.pending := by
  unfold beginCycle; (try dsimp only) <;> (try (repeat' split) <;> first | rfl | simp [*])
@[simp] theorem cutHitFrame_pending (s : State) : (cutHitFrame s).pending = s.pending := by
  unfold cutHitFrame; (try dsimp only) <;> (try (repeat' split) <;> first | rfl | simp [*])
@[simp] theorem cycleFlagNotice_pending (t : Tracker) (cause : CloseCause) (s : State) : (cycleFlagNotice t cause s).pending = s.pending := by
  unfold cycleFlagNotice; (try dsimp only) <;> (try (repeat' split) <;> first | rfl | simp [*])
@[simp] theorem closeHits_pending (s : State) : (closeHits s).pending = s.pending := by
  unfold closeHits; (try dsimp only) <;> (try (repeat' split) <;> first | rfl | simp [*])
@[simp] theorem closeTables_pending (closed : Option CycleNo) (kind : CloseKind) (s : State) : (closeTables closed kind s).pending = s.pending := by
  unfold closeTables; (try dsimp only) <;> (try (repeat' split) <;> first | rfl | simp [*])
@[simp] theorem closeCycle_pending (cause : CloseCause) (s : State) : (closeCycle cause s).pending = s.pending := by
  unfold closeCycle; (try dsimp only) <;> (try (repeat' split) <;> first | rfl | simp [*])
@[simp] theorem earlyClose_pending (s : State) : (earlyClose s).pending = s.pending := by
  unfold earlyClose; (try dsimp only) <;> (try (repeat' split) <;> first | rfl | simp [*])
@[simp] theorem countCycle_pending (s : State) : (countCycle s).pending = s.pending := by
  unfold countCycle; (try dsimp only) <;> (try (repeat' split) <;> first | rfl | simp [*])
@[simp] theorem startCycle_pending (s : State) : (startCycle s).pending = s.pending := by
  unfold startCycle; (try dsimp only) <;> (try (repeat' split) <;> first | rfl | simp [*])
@[simp] theorem cycEdge_pending (s : State) : (cycEdge s).pending = s.pending := by
  unfold cycEdge; (try dsimp only) <;> (try (repeat' split) <;> first | rfl | simp [*])
@[simp] theorem setSettle_pending (s : State) : (setSettle s).pending = s.pending := by
  unfold setSettle; (try dsimp only) <;> (try (repeat' split) <;> first | rfl | simp [*])
@[simp] theorem startSettle_pending (s : State) : (startSettle s).pending = s.pending := by
  unfold startSettle; (try dsimp only) <;> (try (repeat' split) <;> first | rfl | simp [*])
@[simp] theorem enterReturn_pending (s : State) : (enterReturn s).pending = s.pending := by
  unfold enterReturn; (try dsimp only) <;> (try (repeat' split) <;> first | rfl | simp [*])
@[simp] theorem flagDisordered_pending (s : State) : (flagDisordered s).pending = s.pending := by
  unfold flagDisordered; (try dsimp only) <;> (try (repeat' split) <;> first | rfl | simp [*])
@[simp] theorem disorderly_pending (s : State) : (disorderly s).pending = s.pending := by
  unfold disorderly; (try dsimp only) <;> (try (repeat' split) <;> first | rfl | simp [*])
@[simp] theorem goIdle_pending (s : State) : (goIdle s).pending = s.pending := by
  unfold goIdle; (try dsimp only) <;> (try (repeat' split) <;> first | rfl | simp [*])
@[simp] theorem idleIfExpired_pending (s : State) : (idleIfExpired s).pending = s.pending := by
  unfold idleIfExpired; (try dsimp only) <;> (try (repeat' split) <;> first | rfl | simp [*])
@[simp] theorem settleClose_pending (s : State) : (settleClose s).pending = s.pending := by
  unfold settleClose; (try dsimp only) <;> (try (repeat' split) <;> first | rfl | simp [*])
@[simp] theorem closeByTimer_pending (s : State) : (closeByTimer s).pending = s.pending := by
  unfold closeByTimer; (try dsimp only) <;> (try (repeat' split) <;> first | rfl | simp [*])
@[simp] theorem markExpired_pending (s : State) : (markExpired s).pending = s.pending := by
  unfold markExpired; (try dsimp only) <;> (try (repeat' split) <;> first | rfl | simp [*])
@[simp] theorem cycleExpired_pending (s : State) : (cycleExpired s).pending = s.pending := by
  unfold cycleExpired; (try dsimp only) <;> (try (repeat' split) <;> first | rfl | simp [*])
@[simp] theorem adoptFirst_pending (n : CycleNo) (s : State) : (adoptFirst n s).pending = s.pending := by
  unfold adoptFirst; (try dsimp only) <;> (try (repeat' split) <;> first | rfl | simp [*])
@[simp] theorem joinAdopt_pending (n : CycleNo) (s : State) : (joinAdopt n s).pending = s.pending := by
  unfold joinAdopt; (try dsimp only) <;> (try (repeat' split) <;> first | rfl | simp [*])
@[simp] theorem holdBack_pending (st : Station) (s : State) : (holdBack st s).pending = s.pending := by
  unfold holdBack; (try dsimp only) <;> (try (repeat' split) <;> first | rfl | simp [*])
@[simp] theorem setSilence_pending (st : Station) (s : State) : (setSilence st s).pending = s.pending := by
  unfold setSilence; (try dsimp only) <;> (try (repeat' split) <;> first | rfl | simp [*])
@[simp] theorem restartSilence_pending (st : Station) (s : State) : (restartSilence st s).pending = s.pending := by
  unfold restartSilence; (try dsimp only) <;> (try (repeat' split) <;> first | rfl | simp [*])
@[simp] theorem recordChanged_pending (st : Station) (old new : PeerState) (s : State) : (recordChanged st old new s).pending = s.pending := by
  unfold recordChanged; (try dsimp only) <;> (try (repeat' split) <;> first | rfl | simp [*])
@[simp] theorem storeTaken_pending (k : FrameKind) (st : Station) (f : RxFrame) (s : State) : (storeTaken k st f s).pending = s.pending := by
  unfold storeTaken; (try dsimp only) <;> (try (repeat' split) <;> first | rfl | simp [*])
@[simp] theorem enterRecord_pending (k : FrameKind) (st : Station) (f : RxFrame) (s : State) : (enterRecord k st f s).pending = s.pending := by
  unfold enterRecord; (try dsimp only) <;> (try (repeat' split) <;> first | rfl | simp [*])
@[simp] theorem takeRecord_pending (k : FrameKind) (st : Station) (f : RxFrame) (s : State) : (takeRecord k st f s).pending = s.pending := by
  unfold takeRecord; (try dsimp only) <;> (try (repeat' split) <;> first | rfl | simp [*])
@[simp] theorem handToBlocks_pending (k : FrameKind) (st : Station) (f : RxFrame) (s : State) : (handToBlocks k st f s).pending = s.pending := by
  unfold handToBlocks; (try dsimp only) <;> (try (repeat' split) <;> first | rfl | simp [*])
@[simp] theorem handOn_pending (k : FrameKind) (st : Station) (f : RxFrame) (s : State) : (handOn k st f s).pending = s.pending := by
  unfold handOn; (try dsimp only) <;> (try (repeat' split) <;> first | rfl | simp [*])
@[simp] theorem joinAndHandOn_pending (k : FrameKind) (st : Station) (f : RxFrame) (s : State) : (joinAndHandOn k st f s).pending = s.pending := by
  unfold joinAndHandOn; (try dsimp only) <;> (try (repeat' split) <;> first | rfl | simp [*])
@[simp] theorem memberFrame_pending (k : FrameKind) (st : Station) (f : RxFrame) (s : State) : (memberFrame k st f s).pending = s.pending := by
  unfold memberFrame; (try dsimp only) <;> (try (repeat' split) <;> first | rfl | simp [*])
@[simp] theorem rejectFrame_pending (l : Lane) (s : State) : (rejectFrame l s).pending = s.pending := by
  unfold rejectFrame; (try dsimp only) <;> (try (repeat' split) <;> first | rfl | simp [*])
@[simp] theorem countAccepted_pending (l : Lane) (k : FrameKind) (st : Station) (s : State) : (countAccepted l k st s).pending = s.pending := by
  unfold countAccepted; (try dsimp only) <;> (try (repeat' split) <;> first | rfl | simp [*])
@[simp] theorem acceptFrame_pending (l : Lane) (f : RxFrame) (s : State) : (acceptFrame l f s).pending = s.pending := by
  unfold acceptFrame; (try dsimp only) <;> (try (repeat' split) <;> first | rfl | simp [*])
@[simp] theorem beginHandling_pending (l : Lane) (f : RxFrame) (s : State) : (beginHandling l f s).pending = s.pending := by
  unfold beginHandling; (try dsimp only) <;> (try (repeat' split) <;> first | rfl | simp [*])
@[simp] theorem endHandling_pending (s : State) : (endHandling s).pending = s.pending := by
  unfold endHandling; (try dsimp only) <;> (try (repeat' split) <;> first | rfl | simp [*])
@[simp] theorem handOut_pending (l : Lane) (f : RxFrame) (s : State) : (handOut l f s).pending = s.pending := by
  unfold handOut; (try dsimp only) <;> (try (repeat' split) <;> first | rfl | simp [*])
@[simp] theorem handleFrame_pending (l : Lane) (f : RxFrame) (s : State) : (handleFrame l f s).pending = s.pending := by
  unfold handleFrame; (try dsimp only) <;> (try (repeat' split) <;> first | rfl | simp [*])
@[simp] theorem judgeCommand_pending (c : PortCommand) (inRange : Bool) (reply : List Byte) (s : State) : (judgeCommand c inRange reply s).pending = s.pending := by
  unfold judgeCommand; (try dsimp only) <;> (try (repeat' split) <;> first | rfl | simp [*])
@[simp] theorem loadFailed_pending (check index : Nat) (s : State) : (loadFailed check index s).pending = s.pending := by
  unfold loadFailed; (try dsimp only) <;> (try (repeat' split) <;> first | rfl | simp [*])
@[simp] theorem loadPassed_pending (b : List Byte) (s : State) : (loadPassed b s).pending = s.pending := by
  unfold loadPassed; (try dsimp only) <;> (try (repeat' split) <;> first | rfl | simp [*])
@[simp] theorem endCheck_pending (s : State) : (endCheck s).pending = s.pending := by
  unfold endCheck; (try dsimp only) <;> (try (repeat' split) <;> first | rfl | simp [*])
@[simp] theorem beginCheck_pending (b : List Byte) (s : State) : (beginCheck b s).pending = s.pending := by
  unfold beginCheck; (try dsimp only) <;> (try (repeat' split) <;> first | rfl | simp [*])
@[simp] theorem commandRestart_pending (s : State) : (commandRestart s).pending = s.pending := by
  unfold commandRestart; (try dsimp only) <;> (try (repeat' split) <;> first | rfl | simp [*])
@[simp] theorem removeNotice_pending (returned : Bool) (bytesOut : Nat) (s : State) : (removeNotice returned bytesOut s).pending = s.pending := by
  unfold removeNotice; (try dsimp only) <;> (try (repeat' split) <;> first | rfl | simp [*])
@[simp] theorem controlTaken_pending (c : Control) (ref : Nat) (s : State) : (controlTaken c ref s).pending = s.pending := by
  unfold controlTaken; (try dsimp only) <;> (try (repeat' split) <;> first | rfl | simp [*])
@[simp] theorem requestControl_pending (c : Control) (s : State) : (requestControl c s).pending = s.pending := by
  unfold requestControl; (try dsimp only) <;> (try (repeat' split) <;> first | rfl | simp [*])
@[simp] theorem clearRecord_pending (s : State) : (clearRecord s).pending = s.pending := by
  unfold clearRecord; (try dsimp only) <;> (try (repeat' split) <;> first | rfl | simp [*])
@[simp] theorem applyCommand_pending (c : PortCommand) (bytesOut : Nat) (s : State) : (applyCommand c bytesOut s).pending = s.pending := by
  unfold applyCommand; (try dsimp only) <;> (try (repeat' split) <;> first | rfl | simp [*])
@[simp] theorem lateCommand_pending (c : PortCommand) (s : State) : (lateCommand c s).pending = s.pending := by
  unfold lateCommand; (try dsimp only) <;> (try (repeat' split) <;> first | rfl | simp [*])
@[simp] theorem deselect_pending (bytesOut : Nat) (s : State) : (deselect bytesOut s).pending = s.pending := by
  unfold deselect; (try dsimp only) <;> (try (repeat' split) <;> first | rfl | simp [*])
@[simp] theorem takeEdge_pending (f : State → State) (s : State) (hf : ∀ t, (f t).pending = t.pending) : (takeEdge f s).pending = s.pending := by
  unfold takeEdge; (try dsimp only) <;> (try (repeat' split) <;> first | rfl | simp [*])
@[simp] theorem filEdge_pending (s : State) : (filEdge s).pending = s.pending := by
  unfold filEdge; (try dsimp only) <;> (try (repeat' split) <;> first | rfl | simp [*])
@[simp] theorem firstShake_pending (s : State) : (firstShake s).pending = s.pending := by
  unfold firstShake; (try dsimp only) <;> (try (repeat' split) <;> first | rfl | simp [*])
@[simp] theorem vibEdge_pending (s : State) : (vibEdge s).pending = s.pending := by
  unfold vibEdge; (try dsimp only) <;> (try (repeat' split) <;> first | rfl | simp [*])
@[simp] theorem strEdge_pending (s : State) : (strEdge s).pending = s.pending := by
  unfold strEdge; (try dsimp only) <;> (try (repeat' split) <;> first | rfl | simp [*])
@[simp] theorem strFall_pending (s : State) : (strFall s).pending = s.pending := by
  unfold strFall; (try dsimp only) <;> (try (repeat' split) <;> first | rfl | simp [*])
@[simp] theorem keepCapture_pending (c : Channel) (s : State) : (keepCapture c s).pending = s.pending := by
  unfold keepCapture; (try dsimp only) <;> (try (repeat' split) <;> first | rfl | simp [*])
@[simp] theorem countDetected_pending (s : State) : (countDetected s).pending = s.pending := by
  unfold countDetected; (try dsimp only) <;> (try (repeat' split) <;> first | rfl | simp [*])
@[simp] theorem startHit_pending (c : Channel) (h : OpenHit) (s : State) : (startHit c h s).pending = s.pending := by
  unfold startHit; (try dsimp only) <;> (try (repeat' split) <;> first | rfl | simp [*])
@[simp] theorem appendOwnHit_pending (c : Channel) (h : OpenHit) (f : Features) (s : State) : (appendOwnHit c h f s).pending = s.pending := by
  unfold appendOwnHit; (try dsimp only) <;> (try (repeat' split) <;> first | rfl | simp [*])
@[simp] theorem completeHit_pending (c : Channel) (h : OpenHit) (f : Features) (s : State) : (completeHit c h f s).pending = s.pending := by
  unfold completeHit; (try dsimp only) <;> (try (repeat' split) <;> first | rfl | simp [*])
@[simp] theorem endHit_pending (c : Channel) (long : Bool) (h : OpenHit) (s : State) : (endHit c long h s).pending = s.pending := by
  unfold endHit; (try dsimp only) <;> (try (repeat' split) <;> first | rfl | simp [*])
@[simp] theorem hitSample_pending (c : Channel) (env : Nat) (h : OpenHit) (s : State) : (hitSample c env h s).pending = s.pending := by
  unfold hitSample; (try dsimp only) <;> (try (repeat' split) <;> first | rfl | simp [*])
@[simp] theorem quietSample_pending (c : Channel) (env : Nat) (s : State) : (quietSample c env s).pending = s.pending := by
  unfold quietSample; (try dsimp only) <;> (try (repeat' split) <;> first | rfl | simp [*])
@[simp] theorem sampleStep_pending (c : Channel) (env : Nat) (s : State) : (sampleStep c env s).pending = s.pending := by
  unfold sampleStep; (try dsimp only) <;> (try (repeat' split) <;> first | rfl | simp [*])
@[simp] theorem takeSample_pending (c : Channel) (value : Half) (s : State) : (takeSample c value s).pending = s.pending := by
  unfold takeSample; (try dsimp only) <;> (try (repeat' split) <;> first | rfl | simp [*])
@[simp] theorem endLockout_pending (c : Channel) (s : State) : (endLockout c s).pending = s.pending := by
  unfold endLockout; (try dsimp only) <;> (try (repeat' split) <;> first | rfl | simp [*])
@[simp] theorem tellLoss_pending (u : ChannelUnit) (s : State) : (tellLoss u s).pending = s.pending := by
  unfold tellLoss; (try dsimp only) <;> (try (repeat' split) <;> first | rfl | simp [*])
@[simp] theorem loseChannel_pending (c : Channel) (s : State) : (loseChannel c s).pending = s.pending := by
  unfold loseChannel; (try dsimp only) <;> (try (repeat' split) <;> first | rfl | simp [*])
@[simp] theorem afterLoss_pending (c : Channel) (u : ChannelUnit) (s : State) : (afterLoss c u s).pending = s.pending := by
  unfold afterLoss; (try dsimp only) <;> (try (repeat' split) <;> first | rfl | simp [*])
@[simp] theorem sampleLost_pending (c : Channel) (s : State) : (sampleLost c s).pending = s.pending := by
  unfold sampleLost; (try dsimp only) <;> (try (repeat' split) <;> first | rfl | simp [*])
@[simp] theorem recoverChannel_pending (c : Channel) (last : Tag) (s : State) : (recoverChannel c last s).pending = s.pending := by
  unfold recoverChannel; (try dsimp only) <;> (try (repeat' split) <;> first | rfl | simp [*])
@[simp] theorem afterRecovery_pending (c : Channel) (s : State) : (afterRecovery c s).pending = s.pending := by
  unfold afterRecovery; (try dsimp only) <;> (try (repeat' split) <;> first | rfl | simp [*])
@[simp] theorem sampleRecovered_pending (c : Channel) (last : Tag) (s : State) : (sampleRecovered c last s).pending = s.pending := by
  unfold sampleRecovered; (try dsimp only) <;> (try (repeat' split) <;> first | rfl | simp [*])
@[simp] theorem endPulseWidth_pending (c : Channel) (s : State) : (endPulseWidth c s).pending = s.pending := by
  unfold endPulseWidth; (try dsimp only) <;> (try (repeat' split) <;> first | rfl | simp [*])
@[simp] theorem endRecovery_pending (c : Channel) (s : State) : (endRecovery c s).pending = s.pending := by
  unfold endRecovery; (try dsimp only) <;> (try (repeat' split) <;> first | rfl | simp [*])
@[simp] theorem whileWaiting_pending (f : CurrentFrame → Tag → State → State) (s : State) (hf : ∀ a b t, (f a b t).pending = t.pending) : (whileWaiting f s).pending = s.pending := by
  unfold whileWaiting; (try dsimp only) <;> (try (repeat' split) <;> first | rfl | simp [*])
@[simp] theorem whileTransmitting_pending (f : CurrentFrame → Tag → State → State) (s : State) (hf : ∀ a b t, (f a b t).pending = t.pending) : (whileTransmitting f s).pending = s.pending := by
  unfold whileTransmitting; (try dsimp only) <;> (try (repeat' split) <;> first | rfl | simp [*])
@[simp] theorem takeGap_pending (lane : Lane) (c : CurrentFrame) (s : State) : (takeGap lane c s).pending = s.pending := by
  unfold takeGap; (try dsimp only) <;> (try (repeat' split) <;> first | rfl | simp [*])
@[simp] theorem starve_pending (c : CurrentFrame) (dueTag : Tag) (s : State) : (starve c dueTag s).pending = s.pending := by
  unfold starve; (try dsimp only) <;> (try (repeat' split) <;> first | rfl | simp [*])
@[simp] theorem closeExpired_pending (s : State) : (closeExpired s).pending = s.pending := by
  unfold closeExpired; (try dsimp only) <;> (try (repeat' split) <;> first | rfl | simp [*])
@[simp] theorem takeCloseExpiry_pending (s : State) : (takeCloseExpiry s).pending = s.pending := by
  unfold takeCloseExpiry; (try dsimp only) <;> (try (repeat' split) <;> first | rfl | simp [*])
@[simp] theorem takeSlot_pending (tag : Tag) (s : State) : (takeSlot tag s).pending = s.pending := by
  unfold takeSlot; (try dsimp only) <;> (try (repeat' split) <;> first | rfl | simp [*])
@[simp] theorem endWait_pending (s : State) : (endWait s).pending = s.pending := by
  unfold endWait; (try dsimp only) <;> (try (repeat' split) <;> first | rfl | simp [*])
@[simp] theorem fireChannel_pending (c : Channel) (s : State) : (fireChannel c s).pending = s.pending := by
  unfold fireChannel; (try dsimp only) <;> (try (repeat' split) <;> first | rfl | simp [*])
@[simp] theorem notFired_pending (s : State) : (notFired s).pending = s.pending := by
  unfold notFired; (try dsimp only) <;> (try (repeat' split) <;> first | rfl | simp [*])
@[simp] theorem takeFire_pending (s : State) : (takeFire s).pending = s.pending := by
  unfold takeFire; (try dsimp only) <;> (try (repeat' split) <;> first | rfl | simp [*])
@[simp] theorem beginJudging_pending (s : State) : (beginJudging s).pending = s.pending := by
  unfold beginJudging; (try dsimp only) <;> (try (repeat' split) <;> first | rfl | simp [*])
@[simp] theorem takeEndTag_pending (s : State) : (takeEndTag s).pending = s.pending := by
  unfold takeEndTag; (try dsimp only) <;> (try (repeat' split) <;> first | rfl | simp [*])
@[simp] theorem scrubStep_pending (s : State) : (scrubStep s).pending = s.pending := by
  unfold scrubStep; (try dsimp only) <;> (try (repeat' split) <;> first | rfl | simp [*])
@[simp] theorem beginFrameOn_pending (l : Lane) (s : State) : (beginFrameOn l s).pending = s.pending := by
  unfold beginFrameOn; (try dsimp only) <;> (try (repeat' split) <;> first | rfl | simp [*])
@[simp] theorem goMissing_pending (st : Station) (s : State) : (goMissing st s).pending = s.pending := by
  unfold goMissing; (try dsimp only) <;> (try (repeat' split) <;> first | rfl | simp [*])
@[simp] theorem askPresence_pending (s : State) : (askPresence s).pending = s.pending := by
  unfold askPresence; (try dsimp only) <;> (try (repeat' split) <;> first | rfl | simp [*])
@[simp] theorem judgeReadSegment_pending (n : Nat) (s : State) : (judgeReadSegment n s).pending = s.pending := by
  unfold judgeReadSegment; (try dsimp only) <;> (try (repeat' split) <;> first | rfl | simp [*])
@[simp] theorem readSegmentStep_pending (n : Nat) (s : State) : (readSegmentStep n s).pending = s.pending := by
  unfold readSegmentStep; (try dsimp only) <;> (try (repeat' split) <;> first | rfl | simp [*])
@[simp] theorem judgeControl_pending (kind group value mask : Byte) (s : State) : (judgeControl kind group value mask s).pending = s.pending := by
  unfold judgeControl; (try dsimp only) <;> (try (repeat' split) <;> first | rfl | simp [*])
@[simp] theorem segmentControlStep_pending (kind group value mask : Byte) (s : State) : (segmentControlStep kind group value mask s).pending = s.pending := by
  unfold segmentControlStep; (try dsimp only) <;> (try (repeat' split) <;> first | rfl | simp [*])
@[simp] theorem powerOnValues_pending (held : Bool) (s : State) : (powerOnValues held s).pending = s.pending := by
  unfold powerOnValues; (try dsimp only) <;> (try (repeat' split) <;> first | rfl | simp [*])
end Sys2Proof.Machine
end

