-- ==== Sys2Proof/Laws/Restart.lean ====
section
/-! SUPPORT. What a restart leaves, whatever bits have flipped: the station JOINING, or FROZEN again at once (R64, R65, R163, R165). -/

namespace Sys2Proof.Machine

/-- A lone candidate is the one selected (R48). -/
theorem bestCandidates_single (c : Candidate) : bestCandidates [c] = [c] := by
  unfold bestCandidates
  cases h : later c.tag c.tag <;> simp [h]

/-- With no current frame and one descriptor waiting, its frame is selected (R48). -/
theorem selectFrame_single {s : State} (d : Descriptor) (hc : s.link.current = none) (hq : s.link.queue = [d])
    (hh : s.channels.queue = []) : selectFrame s = beginFrame (some d.ref) d.kind d.payload s := by
  have hs : candidates s = [⟨some d.ref, frameClass d.kind, d.tag⟩] := by
    unfold candidates
    rw [hq, hh]
    rfl
  unfold selectFrame
  rw [hs, bestCandidates_single, hc]
  simp [selectEntry, hq]

/-- A restart keeps the flipped bits of the configuration store, and no others. -/
theorem keptFlips_any (s : State) (i : Nat) :
    ((keptFlips s).any fun u => u.word == .config i) = s.fault.flipped.any fun u => u.word == .config i := by
  unfold keptFlips
  rw [List.any_filter]
  congr 1
  funext u
  cases u.word <;> simp

/-- After the blocks' reset a word of the configuration store is bad if it has a flipped bit: nothing is set aside. -/
theorem badConfig_reset (s : State) {t : State} (hf : t.fault.flipped = keptFlips s) (hw : t.fault.faultedWord = none) :
    badConfig joinWords t = joinFault s := by
  unfold badConfig joinFault joinWords badParity
  rw [hf, hw]
  simp only [keptFlips_any]
  rw [show Block.policyAt 0 = 0x40 from rfl]
  congr 1
  funext i
  exact Bool.and_true _

/-- The moment a command is at is its own. -/
theorem withNow_self (s : State) : s.withNow s.now = s := by
  unfold State.withNow elapsed
  simp [State.withClock]

/-- The first PRESENCE after a restart (R65, R76). -/
theorem presence_afterReset (why : RestartCause) (s : State) :
    (startBlocks (resetBlocks why s)).presencePayload = firstPresence s := by
  unfold firstPresence State.presencePayload
  rw [List.append_assoc, List.append_assoc]
  change be32 (s.member.fingerprint.getD 0) ++ ([byte (phaseCode .idle)] ++ (be16 0 ++
    [byte (standingCode .novice),
     byte (couplingCode .unchecked + 4 * couplingCode .unchecked + 16 * couplingCode .unchecked + 64 * couplingCode .unchecked),
     byte (healthCode (healthOf 0) + 4 * healthCode (healthOf 0))])) = _
  congr 1

/-- The blocks at their reset values and at work, with the first PRESENCE asked for and selected (R65). -/
theorem startBlocks_requests (why : RestartCause) (s : State) (h : s.member.station ≠ .unconfigured) :
    requestUnchecked .presence (startBlocks (resetBlocks why s)).presencePayload (startBlocks (resetBlocks why s)) =
      restarted why s.fault.record s.now s := by
  rw [presence_afterReset]
  unfold requestUnchecked
  rw [show canRequest .presence (startBlocks (resetBlocks why s)) = true from rfl, if_pos rfl,
    selectFrame_single (s := enqueue _ _ _) ⟨0, .presence, firstPresence s, s.now⟩ rfl rfl rfl]
  have hu : (Four.all ChannelUnit.reset).map (fun _ u => startUnit (resetBlocks why s).listening s.now u) =
      Four.all { ChannelUnit.reset with
        role := .listen, state := if Block.listen s.block 0 = 1 then .quiet else .hush, watch := .watching s.now } := by
    change Four.all (startUnit (Block.listen s.block 0 == 1) s.now ChannelUnit.reset) = _
    unfold startUnit
    simp
  have hm : (match s.member.number with
      | some n => (Eight.all PeerRecord.reset).set n (ownRecord (resetBlocks why s))
      | none => .all .reset) = peersAtStart s.member := by
    unfold peersAtStart
    rfl
  refine state_ext (withNow_clock s s.now ▸ ?_) rfl rfl ?_ ?_ ?_ rfl ?_ rfl rfl rfl rfl rfl rfl
  · simp [elapsed]; rfl
  · exact congrArg (fun u => ({ Channels.reset with units := u } : Channels)) hu
  · unfold restarted
    rw [withNow_self]
    rfl
  · exact congrArg (fun p => ({ (restarted why s.fault.record s.now s).member with peers := p } : Membership)) hm
  · change Evidence.reset (if s.member.station = .unconfigured then 0 else Block.nSeg s.block) = _
    rw [if_neg h]
    rfl

/-- The payload of LOGOUT part 1 when the restarted station freezes at once (R164). -/
theorem logout_afterRestart (why : RestartCause) (record : FaultRecord) (i : Nat) (s : State) :
    logoutPayload .part1 (stopStation .read (.config i) (restarted why record s.now s)) = joinLogout s.now := by
  change [1, byte (faultKindCode .read), byte (storeCode .configuration)] ++ be16 (cycleValue none) ++ [byte (phaseCode .idle)]
    ++ be32 (s.withNow s.now).now = _
  rw [withNow_now]
  congr 1

/-- Entry to JOINING after the blocks' reset. -/
theorem enterJoining_reset (why : RestartCause) (s : State) (h : s.member.station ≠ .unconfigured) :
    enterJoining (resetBlocks why s) = afterRestart why s.fault.record s.now s := by
  unfold enterJoining afterRestart
  dsimp only
  rw [startBlocks_requests why s h, badConfig_reset (s := s) (t := restarted why s.fault.record s.now s) rfl rfl]
  cases hj : joinFault s with
  | none => rfl
  | some i =>
    dsimp only
    unfold freeze requestUnchecked
    dsimp only
    have hnow : (restarted why s.fault.record s.now s).now = s.now := withNow_now s s.now
    rw [logout_afterRestart, show canRequest .logout (stopStation .read (.config i) (restarted why s.fault.record s.now s)) = true from rfl,
      if_pos rfl, selectFrame_single (s := enqueue _ _ _) ⟨1, .logout, joinLogout s.now, (restarted why s.fault.record s.now s).now⟩ rfl rfl rfl]
    refine state_ext rfl rfl rfl rfl ?_ rfl rfl rfl rfl rfl ?_ rfl rfl rfl
    · change ({ (restarted why s.fault.record s.now s).link with
        queue := [⟨1, .logout, joinLogout s.now, (restarted why s.fault.record s.now s).now⟩], nextRef := 2
        current := some
          { ref := some 1, kind := .logout, payload := joinLogout s.now, cycle := none, lane := .x
            attempt := .waiting ((restarted why s.fault.record s.now s).now + span (Block.accessTimeoutMs s.block * 1000))
            retries := 0, lastFailure := none, noRetry := false, unreported := false } } : Link) = _
      rw [hnow]
      rfl
    · have hk : ((keptFlips s).filter fun u => match u.word with | .window _ => false | _ => true) = keptFlips s := by
        rw [List.filter_eq_self]
        intro u hu
        have hc := (List.mem_filter.mp hu).2
        cases hw : u.word <;> simp_all
      change ({ FaultUnit.reset with
        flipped := (keptFlips s).filter fun u => match u.word with | .window _ => false | _ => true
        faultedWord := some (.config i), logout := some .part1
        logoutTimer := some ((restarted why s.fault.record s.now s).now + span logoutLimit)
        record := { kind := some .read, store := some .configuration, cycle := some none, phase := some .idle
                    tag := some (restarted why s.fault.record s.now s).now, partsSent := 0, doubleFault := false
                    restarts := s.fault.record.restarts } } : FaultUnit) = _
      rw [hk, hnow]
      rfl

/-- A self-restart: the restart count is raised, and the blocks return to their reset values and to work (R165). -/
theorem selfRestart_eq (why : RestartCause) (s : State) (h : s.member.station ≠ .unconfigured) :
    selfRestart why s = afterRestart why { s.fault.record with restarts := raised255 s.fault.record.restarts } s.now s := by
  unfold selfRestart
  rw [enterJoining_reset _ _ (by exact h)]
  rfl

/-- A second fault while FROZEN is marked in the record and restarts the station (R166). -/
theorem secondFault_eq (s : State) (h : s.member.station ≠ .unconfigured) :
    secondFault s = afterRestart .double
      { s.fault.record with doubleFault := true, restarts := raised255 s.fault.record.restarts } s.now s := by
  unfold secondFault
  rw [selfRestart_eq _ _ (by exact h)]
  rfl

/-- A restart is at its own moment, whether the time tag has moved on to it before or not. -/
theorem afterRestart_withNow (why : RestartCause) (record : FaultRecord) (tag : Tag) (s : State) :
    afterRestart why record tag (s.withNow tag) = afterRestart why record tag s := by
  have hn : (s.withNow tag).withNow tag = s.withNow tag := by
    rw [show (s.withNow tag).withNow tag = (s.withNow tag).withNow (s.withNow tag).now by rw [withNow_now], withNow_self]
  unfold afterRestart refrozen restarted
  rw [hn]
  rfl

end Sys2Proof.Machine
end

