-- ==== Sys2Proof/Laws/Segments.lean ====
section
/-! SUPPORT. Every operation keeps the segment records as R115 says (`SegmentsInv`): one lemma for each operation, those that write records
first; a frame's way to the Agreement Unit last, where the records of a ROW come in. -/

namespace Sys2Proof.Machine

@[simp] theorem foldl_segs {α : Type} (f : State → α → State) (h : ∀ t a, SegmentsInv t → SegmentsInv (f t a)) (l : List α) (s : State) (hs : SegmentsInv s) : SegmentsInv (l.foldl f s) := by
  induction l generalizing s with
  | nil => exact hs
  | cons a l ih => exact ih _ (h _ _ hs)
/-- What the records that an unfinished transfer has brought must be. -/
def BufferOk (t : Transfer) : Prop :=
  ∀ donor cycle digest n last buffer, t = .awaiting donor cycle digest n last buffer → ∀ r ∈ buffer, RecordOk r
@[simp] theorem bufferOk_idle : BufferOk .idle := fun _ _ _ _ _ _ h => nomatch h
@[simp] theorem bufferOk_sending (n : Nat) (st : SendStage) : BufferOk (.sending n st) := fun _ _ _ _ _ _ h => nomatch h
@[simp] theorem bufferOk_awaiting (d c v n l b) : BufferOk (.awaiting d c v n l b) ↔ ∀ r ∈ b, RecordOk r :=
  ⟨fun h => h d c v n l b rfl, fun h _ _ _ _ _ _ e => by cases e; exact h⟩
@[simp] theorem recordOk_clean (e : Bool) : RecordOk (.clean e) := by unfold RecordOk SegmentRecord.clean; cases e <;> decide
@[simp] theorem withNow_segs (s : State) (v) : SegmentsInv (s.withNow v) ↔ SegmentsInv s := Iff.rfl
@[simp] theorem withClock_segs (s : State) (v) : SegmentsInv (s.withClock v) ↔ SegmentsInv s := Iff.rfl
@[simp] theorem withTracker_segs (s : State) (v) : SegmentsInv (s.withTracker v) ↔ SegmentsInv s := Iff.rfl
@[simp] theorem withChannels_segs (s : State) (v) : SegmentsInv (s.withChannels v) ↔ SegmentsInv s := Iff.rfl
@[simp] theorem withLink_segs (s : State) (v) : SegmentsInv (s.withLink v) ↔ SegmentsInv s := Iff.rfl
@[simp] theorem withMember_segs (s : State) (v) : SegmentsInv (s.withMember v) ↔ SegmentsInv s := Iff.rfl
@[simp] theorem withCoin_segs (s : State) (v) : SegmentsInv (s.withCoin v) ↔ SegmentsInv s := Iff.rfl
@[simp] theorem withFault_segs (s : State) (v) : SegmentsInv (s.withFault v) ↔ SegmentsInv s := Iff.rfl
@[simp] theorem withCoup_segs (s : State) (v) : SegmentsInv (s.withCoup v) ↔ SegmentsInv s := Iff.rfl
@[simp] theorem withPort_segs (s : State) (v) : SegmentsInv (s.withPort v) ↔ SegmentsInv s := Iff.rfl
@[simp] theorem withFreeCount_segs (s : State) (v) : SegmentsInv (s.withFreeCount v) ↔ SegmentsInv s := Iff.rfl
@[simp] theorem withPending_segs (s : State) (v) : SegmentsInv (s.withPending v) ↔ SegmentsInv s := Iff.rfl
@[simp] theorem setUnit_segs (s : State) (c v) : SegmentsInv (s.setUnit c v) ↔ SegmentsInv s := Iff.rfl
@[simp] theorem setLane_segs (s : State) (l v) : SegmentsInv (s.setLane l v) ↔ SegmentsInv s := Iff.rfl
@[simp] theorem setPeer_segs (s : State) (st v) : SegmentsInv (s.setPeer st v) ↔ SegmentsInv s := Iff.rfl
theorem SegmentsInv.table {s : State} (h : SegmentsInv s) : ∀ r ∈ s.evid.table, RecordOk r := h.1
@[simp] theorem SegmentsInv.buffer {s : State} (h : SegmentsInv s) : BufferOk s.agree.transfer := h.2
theorem withEvid_segs {s : State} (hs : SegmentsInv s) (v : Evidence) (h : ∀ r ∈ v.table, RecordOk r) : SegmentsInv (s.withEvid v) :=
  ⟨h, hs.2⟩
@[simp] theorem withEvid_segs_table {s : State} (hs : SegmentsInv s) (v : Evidence) (h : v.table = s.evid.table) : SegmentsInv (s.withEvid v) :=
  ⟨h ▸ hs.1, hs.2⟩
@[simp] theorem withAgree_segs {s : State} (hs : SegmentsInv s) (v : Agreement) (h : BufferOk v.transfer) : SegmentsInv (s.withAgree v) :=
  ⟨hs.1, h⟩
@[simp] theorem mk_segs (a b t ch lk mb co ev ag cu fa po x y) : SegmentsInv (State.mk a b t ch lk mb co ev ag cu fa po x y) ↔
  (∀ r ∈ ev.table, RecordOk r) ∧ BufferOk ag.transfer := Iff.rfl
@[simp] theorem evidReset_table (n : Nat) (r : SegmentRecord) (h : r ∈ (Evidence.reset n).table) : RecordOk r := by
  rw [(List.mem_replicate.mp h).2]; exact recordOk_clean false
@[simp] theorem agreeReset_transfer : Agreement.reset.transfer = .idle := rfl
@[simp] theorem reset_segs : SegmentsInv State.reset := ⟨evidReset_table 0, bufferOk_idle⟩

theorem recordOk_transition {b : List Byte} {closed : Option CycleNo} {active : Bool} {r : SegmentRecord} (he : r.excluded = false)
    (h1 : r.suspectSince.isSome = true ↔ r.state = .suspect ∨ r.state = .cracked) (h2 : r.crackedSince.isSome = true ↔ r.state = .cracked) :
    RecordOk (transition b closed active r) := by
  obtain ⟨st, ex, hist, q, ss, cs⟩ := r
  dsimp only at he h1 h2
  subst he
  unfold transition RecordOk
  cases st <;> dsimp only <;> (repeat' split) <;> simp_all

theorem recordOk_fold {b : List Byte} {closed : Option CycleNo} {es : List AppliedEvent} {r : SegmentRecord} (h : RecordOk r) :
    RecordOk (foldRecord b closed es r) := by
  unfold foldRecord
  split
  · exact h
  · rename_i he
    exact recordOk_transition (by simpa using he) h.1 h.2.1

theorem recordOk_control {c : Control} {n : Nat} {r : SegmentRecord} (h : RecordOk r) : RecordOk (controlRecord c n r) := by
  unfold controlRecord
  split
  · split
    · split
      · exact h
      · exact recordOk_clean true
    · by_cases he : r.excluded = true
      · rw [h.2.2 he]; exact recordOk_clean false
      · refine ⟨h.1, h.2.1, fun h => ?_⟩
        exact Bool.noConfusion h
  · exact recordOk_clean _

theorem recordsOk_modify {t : List SegmentRecord} (f : SegmentRecord → SegmentRecord) (i : Nat) (h : ∀ r ∈ t, RecordOk r)
    (hf : ∀ r, RecordOk r → RecordOk (f r)) : ∀ r ∈ t.modify i f, RecordOk r := by
  intro r hr
  obtain ⟨n, hn⟩ := List.mem_iff_getElem?.mp hr
  rw [List.getElem?_modify] at hn
  cases ht : t[n]? with
  | none => rw [ht] at hn; cases hn
  | some a =>
    rw [ht] at hn
    have ha := h a (List.mem_of_getElem? ht)
    have he : (if i = n then f a else a) = r := by simpa using hn
    rw [← he]
    split
    · exact hf a ha
    · exact ha

@[simp] theorem unlessFrozen_segs (s : State) (f : State → State) (hf : ∀  t, SegmentsInv t → SegmentsInv (f t)) (hs : SegmentsInv s) : SegmentsInv (State.unlessFrozen s f) := by
  unfold State.unlessFrozen; (try dsimp only) <;> (try (repeat' split) <;> first | exact hs | (simp (maxDischargeDepth := 40) [*]; done) | (simp +contextual (maxDischargeDepth := 40) [*]; done))
@[simp] theorem rewrite_segs (p : StoreWord → Bool) (s : State) (hs : SegmentsInv s) : SegmentsInv (rewrite p s) := by
  unfold rewrite; (try dsimp only) <;> (try (repeat' split) <;> first | exact hs | (simp (maxDischargeDepth := 40) [*]; done) | (simp +contextual (maxDischargeDepth := 40) [*]; done))
@[simp] theorem arrive_segs (m : Moment) (s : State) (hs : SegmentsInv s) : SegmentsInv (arrive m s) := by
  unfold arrive; (try dsimp only) <;> (try (repeat' split) <;> first | exact hs | (simp (maxDischargeDepth := 40) [*]; done) | (simp +contextual (maxDischargeDepth := 40) [*]; done))
@[simp] theorem raise_segs (n : Notice) (s : State) (hs : SegmentsInv s) : SegmentsInv (raise n s) := by
  unfold raise; (try dsimp only) <;> (try (repeat' split) <;> first | exact hs | (simp (maxDischargeDepth := 40) [*]; done) | (simp +contextual (maxDischargeDepth := 40) [*]; done))
@[simp] theorem raiseNow_segs (subject : Nat) (d : NoticeDetail) (s : State) (hs : SegmentsInv s) : SegmentsInv (raiseNow subject d s) := by
  unfold raiseNow; (try dsimp only) <;> (try (repeat' split) <;> first | exact hs | (simp (maxDischargeDepth := 40) [*]; done) | (simp +contextual (maxDischargeDepth := 40) [*]; done))
@[simp] theorem offerStacked_segs (s : State) (hs : SegmentsInv s) : SegmentsInv (offerStacked s) := by
  unfold offerStacked; (try dsimp only) <;> (try (repeat' split) <;> first | exact hs | (simp (maxDischargeDepth := 40) [*]; done) | (simp +contextual (maxDischargeDepth := 40) [*]; done))
@[simp] theorem beginFrame_segs (ref : Option Nat) (kind : FrameKind) (payload : List Byte) (s : State) (hs : SegmentsInv s) : SegmentsInv (beginFrame ref kind payload s) := by
  unfold beginFrame; (try dsimp only) <;> (try (repeat' split) <;> first | exact hs | (simp (maxDischargeDepth := 40) [*]; done) | (simp +contextual (maxDischargeDepth := 40) [*]; done))
@[simp] theorem selectEntry_segs (c : Candidate) (s : State) (hs : SegmentsInv s) : SegmentsInv (selectEntry c s) := by
  unfold selectEntry; (try dsimp only) <;> (try (repeat' split) <;> first | exact hs | (simp (maxDischargeDepth := 40) [*]; done) | (simp +contextual (maxDischargeDepth := 40) [*]; done))
@[simp] theorem selectFrame_segs (s : State) (hs : SegmentsInv s) : SegmentsInv (selectFrame s) := by
  unfold selectFrame; (try dsimp only) <;> (try (repeat' split) <;> first | exact hs | (simp (maxDischargeDepth := 40) [*]; done) | (simp +contextual (maxDischargeDepth := 40) [*]; done))
@[simp] theorem enqueue_segs (kind : FrameKind) (payload : List Byte) (s : State) (hs : SegmentsInv s) : SegmentsInv (enqueue kind payload s) := by
  unfold enqueue; (try dsimp only) <;> (try (repeat' split) <;> first | exact hs | (simp (maxDischargeDepth := 40) [*]; done) | (simp +contextual (maxDischargeDepth := 40) [*]; done))
@[simp] theorem requestUnchecked_segs (kind : FrameKind) (payload : List Byte) (s : State) (hs : SegmentsInv s) : SegmentsInv (requestUnchecked kind payload s) := by
  unfold requestUnchecked; (try dsimp only) <;> (try (repeat' split) <;> first | exact hs | (simp (maxDischargeDepth := 40) [*]; done) | (simp +contextual (maxDischargeDepth := 40) [*]; done))
@[simp] theorem withdraw_segs (ref : Nat) (s : State) (hs : SegmentsInv s) : SegmentsInv (withdraw ref s) := by
  unfold withdraw; (try dsimp only) <;> (try (repeat' split) <;> first | exact hs | (simp (maxDischargeDepth := 40) [*]; done) | (simp +contextual (maxDischargeDepth := 40) [*]; done))
@[simp] theorem removeHit_segs (id : HitId) (s : State) (hs : SegmentsInv s) : SegmentsInv (removeHit id s) := by
  unfold removeHit; (try dsimp only) <;> (try (repeat' split) <;> first | exact hs | (simp (maxDischargeDepth := 40) [*]; done) | (simp +contextual (maxDischargeDepth := 40) [*]; done))
@[simp] theorem settleCapture_segs (c : Channel) (arrival : Tag) (new : Capture) (s : State) (hs : SegmentsInv s) : SegmentsInv (settleCapture c arrival new s) := by
  unfold settleCapture; (try dsimp only) <;> (try (repeat' split) <;> first | exact hs | (simp (maxDischargeDepth := 40) [*]; done) | (simp +contextual (maxDischargeDepth := 40) [*]; done))
@[simp] theorem offerPolicy_segs (s : State) (hs : SegmentsInv s) : SegmentsInv (offerPolicy s) := by
  unfold offerPolicy; (try dsimp only) <;> (try (repeat' split) <;> first | exact hs | (simp (maxDischargeDepth := 40) [*]; done) | (simp +contextual (maxDischargeDepth := 40) [*]; done))
@[simp] theorem channelsWindowOpened_segs (s : State) (hs : SegmentsInv s) : SegmentsInv (channelsWindowOpened s) := by
  unfold channelsWindowOpened; (try dsimp only) <;> (try (repeat' split) <;> first | exact hs | (simp (maxDischargeDepth := 40) [*]; done) | (simp +contextual (maxDischargeDepth := 40) [*]; done))
@[simp] theorem stopStation_segs (kind : FaultKind) (w : StoreWord) (s : State) (hs : SegmentsInv s) : SegmentsInv (stopStation kind w s) := by
  unfold stopStation; (try dsimp only) <;> (try (repeat' split) <;> first | exact hs | (simp (maxDischargeDepth := 40) [*]; done) | (simp +contextual (maxDischargeDepth := 40) [*]; done))
@[simp] theorem freeze_segs (kind : FaultKind) (w : StoreWord) (s : State) (hs : SegmentsInv s) : SegmentsInv (freeze kind w s) := by
  unfold freeze; (try dsimp only) <;> (try (repeat' split) <;> first | exact hs | (simp (maxDischargeDepth := 40) [*]; done) | (simp +contextual (maxDischargeDepth := 40) [*]; done))
@[simp] theorem resetBlocks_segs (why : RestartCause) (s : State) (_hs : SegmentsInv s) : SegmentsInv (resetBlocks why s) :=
  ⟨evidReset_table _, bufferOk_idle⟩
@[simp] theorem startBlocks_segs (s : State) (hs : SegmentsInv s) : SegmentsInv (startBlocks s) := by
  unfold startBlocks; (try dsimp only) <;> (try (repeat' split) <;> first | exact hs | (simp (maxDischargeDepth := 40) [*]; done) | (simp +contextual (maxDischargeDepth := 40) [*]; done))
@[simp] theorem enterJoining_segs (s : State) (hs : SegmentsInv s) : SegmentsInv (enterJoining s) := by
  unfold enterJoining; (try dsimp only) <;> (try (repeat' split) <;> first | exact hs | (simp (maxDischargeDepth := 40) [*]; done) | (simp +contextual (maxDischargeDepth := 40) [*]; done))
@[simp] theorem selfRestart_segs (why : RestartCause) (s : State) (hs : SegmentsInv s) : SegmentsInv (selfRestart why s) := by
  unfold selfRestart; (try dsimp only) <;> (try (repeat' split) <;> first | exact hs | (simp (maxDischargeDepth := 40) [*]; done) | (simp +contextual (maxDischargeDepth := 40) [*]; done))
@[simp] theorem secondFault_segs (s : State) (hs : SegmentsInv s) : SegmentsInv (secondFault s) := by
  unfold secondFault; (try dsimp only) <;> (try (repeat' split) <;> first | exact hs | (simp (maxDischargeDepth := 40) [*]; done) | (simp +contextual (maxDischargeDepth := 40) [*]; done))
theorem lookAgain_segs (s t : State) (h : SegmentsInv t) : SegmentsInv (lookAgain s t) := by
  unfold lookAgain
  split
  · exact secondFault_segs _ h
  · exact h
@[simp] theorem readFault_segs (kind : FaultKind) (w : StoreWord) (s : State) (hs : SegmentsInv s) : SegmentsInv (readFault kind w s) := by
  unfold readFault; (try dsimp only) <;> (try (repeat' split) <;> first | exact hs | (simp (maxDischargeDepth := 40) [*]; done) | (simp +contextual (maxDischargeDepth := 40) [*]; done))
@[simp] theorem readingConfig_segs (offsets : List Nat) (stop f : State → State) (s : State) (hstop : ∀  t, SegmentsInv t → SegmentsInv (stop t)) (hf : ∀  t, SegmentsInv t → SegmentsInv (f t)) (hs : SegmentsInv s) : SegmentsInv (readingConfig offsets stop f s) := by
  unfold readingConfig; (try dsimp only) <;> (try (repeat' split) <;> first | exact hs | (simp (maxDischargeDepth := 40) [*]; done) | (simp +contextual (maxDischargeDepth := 40) [*]; done))
@[simp] theorem usingConfig_segs (offsets : List Nat) (f : State → State) (s : State) (hf : ∀  t, SegmentsInv t → SegmentsInv (f t)) (hs : SegmentsInv s) : SegmentsInv (usingConfig offsets f s) := by
  unfold usingConfig; (try dsimp only) <;> (try (repeat' split) <;> first | exact hs | (simp (maxDischargeDepth := 40) [*]; done) | (simp +contextual (maxDischargeDepth := 40) [*]; done))
@[simp] theorem usingWords_segs (words : List StoreWord) (f : State → State) (s : State) (hf : ∀  t, SegmentsInv t → SegmentsInv (f t)) (hs : SegmentsInv s) : SegmentsInv (usingWords words f s) := by
  unfold usingWords; (try dsimp only) <;> (try (repeat' split) <;> first | exact hs | (simp (maxDischargeDepth := 40) [*]; done) | (simp +contextual (maxDischargeDepth := 40) [*]; done))
@[simp] theorem boardReads_segs (words : List StoreWord) (f : State → State) (s : State) (hf : ∀  t, SegmentsInv t → SegmentsInv (f t)) (hs : SegmentsInv s) : SegmentsInv (boardReads words f s) := by
  unfold boardReads; (try dsimp only) <;> (try (repeat' split) <;> first | exact hs | (simp (maxDischargeDepth := 40) [*]; done) | (simp +contextual (maxDischargeDepth := 40) [*]; done))
@[simp] theorem selectNext_segs (s : State) (hs : SegmentsInv s) : SegmentsInv (selectNext s) := by
  unfold selectNext; (try dsimp only) <;> (try (repeat' split) <;> first | exact hs | (simp (maxDischargeDepth := 40) [*]; done) | (simp +contextual (maxDischargeDepth := 40) [*]; done))
@[simp] theorem request_segs (kind : FrameKind) (payload : List Byte) (taken : Nat → State → State) (refused : State → State) (s : State) (htaken : ∀ a t, SegmentsInv t → SegmentsInv (taken a t)) (hrefused : ∀  t, SegmentsInv t → SegmentsInv (refused t)) (hs : SegmentsInv s) : SegmentsInv (request kind payload taken refused s) := by
  unfold request; (try dsimp only) <;> (try (repeat' split) <;> first | exact hs | (simp (maxDischargeDepth := 40) [*]; done) | (simp +contextual (maxDischargeDepth := 40) [*]; done))
@[simp] theorem keepNoRef_segs (_ref : Nat) (s : State) (hs : SegmentsInv s) : SegmentsInv (keepNoRef _ref s) := by
  unfold keepNoRef; (try dsimp only) <;> (try (repeat' split) <;> first | exact hs | (simp (maxDischargeDepth := 40) [*]; done) | (simp +contextual (maxDischargeDepth := 40) [*]; done))
@[simp] theorem requestLogout_segs (p : LogoutPart) (s : State) (hs : SegmentsInv s) : SegmentsInv (requestLogout p s) := by
  unfold requestLogout; (try dsimp only) <;> (try (repeat' split) <;> first | exact hs | (simp (maxDischargeDepth := 40) [*]; done) | (simp +contextual (maxDischargeDepth := 40) [*]; done))
@[simp] theorem softFault_segs (s : State) (hs : SegmentsInv s) : SegmentsInv (softFault s) := by
  unfold softFault; (try dsimp only) <;> (try (repeat' split) <;> first | exact hs | (simp (maxDischargeDepth := 40) [*]; done) | (simp +contextual (maxDischargeDepth := 40) [*]; done))
@[simp] theorem checkWindow_segs (s : State) (hs : SegmentsInv s) : SegmentsInv (checkWindow s) := by
  unfold checkWindow; (try dsimp only) <;> (try (repeat' split) <;> first | exact hs | (simp (maxDischargeDepth := 40) [*]; done) | (simp +contextual (maxDischargeDepth := 40) [*]; done))
@[simp] theorem formGroup_segs (s : State) (hs : SegmentsInv s) : SegmentsInv (formGroup s) := by
  unfold formGroup; (try dsimp only) <;> (try (repeat' split) <;> first | exact hs | (simp (maxDischargeDepth := 40) [*]; done) | (simp +contextual (maxDischargeDepth := 40) [*]; done))
@[simp] theorem readWindow_segs (s : State) (hs : SegmentsInv s) : SegmentsInv (readWindow s) := by
  unfold readWindow; (try dsimp only) <;> (try (repeat' split) <;> first | exact hs | (simp (maxDischargeDepth := 40) [*]; done) | (simp +contextual (maxDischargeDepth := 40) [*]; done))
@[simp] theorem hitEntered_segs (id : HitId) (s : State) (hs : SegmentsInv s) : SegmentsInv (hitEntered id s) := by
  unfold hitEntered; (try dsimp only) <;> (try (repeat' split) <;> first | exact hs | (simp (maxDischargeDepth := 40) [*]; done) | (simp +contextual (maxDischargeDepth := 40) [*]; done))
@[simp] theorem requestRemoval_segs (id : HitId) (s : State) (hs : SegmentsInv s) : SegmentsInv (requestRemoval id s) := by
  unfold requestRemoval; (try dsimp only) <;> (try (repeat' split) <;> first | exact hs | (simp (maxDischargeDepth := 40) [*]; done) | (simp +contextual (maxDischargeDepth := 40) [*]; done))
@[simp] theorem discardHit_segs (c : Channel) (hit : Option OpenHit) (s : State) (hs : SegmentsInv s) : SegmentsInv (discardHit c hit s) := by
  unfold discardHit; (try dsimp only) <;> (try (repeat' split) <;> first | exact hs | (simp (maxDischargeDepth := 40) [*]; done) | (simp +contextual (maxDischargeDepth := 40) [*]; done))
@[simp] theorem disableInto_segs (c : Channel) (u : ChannelUnit) (s : State) (hs : SegmentsInv s) : SegmentsInv (disableInto c u s) := by
  unfold disableInto; (try dsimp only) <;> (try (repeat' split) <;> first | exact hs | (simp (maxDischargeDepth := 40) [*]; done) | (simp +contextual (maxDischargeDepth := 40) [*]; done))
@[simp] theorem disableChannel_segs (c : Channel) (state : ChannelState) (role : Role) (s : State) (hs : SegmentsInv s) : SegmentsInv (disableChannel c state role s) := by
  unfold disableChannel; (try dsimp only) <;> (try (repeat' split) <;> first | exact hs | (simp (maxDischargeDepth := 40) [*]; done) | (simp +contextual (maxDischargeDepth := 40) [*]; done))
@[simp] theorem checkApplied_segs (s : State) (hs : SegmentsInv s) : SegmentsInv (checkApplied s) := by
  unfold checkApplied; (try dsimp only) <;> (try (repeat' split) <;> first | exact hs | (simp (maxDischargeDepth := 40) [*]; done) | (simp +contextual (maxDischargeDepth := 40) [*]; done))
@[simp] theorem muteChannel_segs (c : Channel) (s : State) (hs : SegmentsInv s) : SegmentsInv (muteChannel c s) := by
  unfold muteChannel; (try dsimp only) <;> (try (repeat' split) <;> first | exact hs | (simp (maxDischargeDepth := 40) [*]; done) | (simp +contextual (maxDischargeDepth := 40) [*]; done))
@[simp] theorem listenAgain_segs (c : Channel) (s : State) (hs : SegmentsInv s) : SegmentsInv (listenAgain c s) := by
  unfold listenAgain; (try dsimp only) <;> (try (repeat' split) <;> first | exact hs | (simp (maxDischargeDepth := 40) [*]; done) | (simp +contextual (maxDischargeDepth := 40) [*]; done))
@[simp] theorem unmuteChannel_segs (c : Channel) (s : State) (hs : SegmentsInv s) : SegmentsInv (unmuteChannel c s) := by
  unfold unmuteChannel; (try dsimp only) <;> (try (repeat' split) <;> first | exact hs | (simp (maxDischargeDepth := 40) [*]; done) | (simp +contextual (maxDischargeDepth := 40) [*]; done))
@[simp] theorem remute_segs (c : Channel) (s : State) (hs : SegmentsInv s) : SegmentsInv (remute c s) := by
  unfold remute; (try dsimp only) <;> (try (repeat' split) <;> first | exact hs | (simp (maxDischargeDepth := 40) [*]; done) | (simp +contextual (maxDischargeDepth := 40) [*]; done))
@[simp] theorem listenAfterPulse_segs (c : Channel) (s : State) (hs : SegmentsInv s) : SegmentsInv (listenAfterPulse c s) := by
  unfold listenAfterPulse; (try dsimp only) <;> (try (repeat' split) <;> first | exact hs | (simp (maxDischargeDepth := 40) [*]; done) | (simp +contextual (maxDischargeDepth := 40) [*]; done))
@[simp] theorem returnToListen_segs (c : Channel) (s : State) (hs : SegmentsInv s) : SegmentsInv (returnToListen c s) := by
  unfold returnToListen; (try dsimp only) <;> (try (repeat' split) <;> first | exact hs | (simp (maxDischargeDepth := 40) [*]; done) | (simp +contextual (maxDischargeDepth := 40) [*]; done))
@[simp] theorem releaseChannel_segs (c : Channel) (s : State) (hs : SegmentsInv s) : SegmentsInv (releaseChannel c s) := by
  unfold releaseChannel; (try dsimp only) <;> (try (repeat' split) <;> first | exact hs | (simp (maxDischargeDepth := 40) [*]; done) | (simp +contextual (maxDischargeDepth := 40) [*]; done))
@[simp] theorem setSlot_segs (v : Slot) (s : State) (hs : SegmentsInv s) : SegmentsInv (setSlot v s) := by
  unfold setSlot; (try dsimp only) <;> (try (repeat' split) <;> first | exact hs | (simp (maxDischargeDepth := 40) [*]; done) | (simp +contextual (maxDischargeDepth := 40) [*]; done))
@[simp] theorem skipSlot_segs (s : State) (hs : SegmentsInv s) : SegmentsInv (skipSlot s) := by
  unfold skipSlot; (try dsimp only) <;> (try (repeat' split) <;> first | exact hs | (simp (maxDischargeDepth := 40) [*]; done) | (simp +contextual (maxDischargeDepth := 40) [*]; done))
@[simp] theorem slotQueued_segs (ref : Nat) (s : State) (hs : SegmentsInv s) : SegmentsInv (slotQueued ref s) := by
  unfold slotQueued; (try dsimp only) <;> (try (repeat' split) <;> first | exact hs | (simp (maxDischargeDepth := 40) [*]; done) | (simp +contextual (maxDischargeDepth := 40) [*]; done))
@[simp] theorem pulseRefused_segs (c : Channel) (s : State) (hs : SegmentsInv s) : SegmentsInv (pulseRefused c s) := by
  unfold pulseRefused; (try dsimp only) <;> (try (repeat' split) <;> first | exact hs | (simp (maxDischargeDepth := 40) [*]; done) | (simp +contextual (maxDischargeDepth := 40) [*]; done))
@[simp] theorem armChannel_segs (c : Channel) (s : State) (hs : SegmentsInv s) : SegmentsInv (armChannel c s) := by
  unfold armChannel; (try dsimp only) <;> (try (repeat' split) <;> first | exact hs | (simp (maxDischargeDepth := 40) [*]; done) | (simp +contextual (maxDischargeDepth := 40) [*]; done))
@[simp] theorem offerPulse_segs (s : State) (hs : SegmentsInv s) : SegmentsInv (offerPulse s) := by
  unfold offerPulse; (try dsimp only) <;> (try (repeat' split) <;> first | exact hs | (simp (maxDischargeDepth := 40) [*]; done) | (simp +contextual (maxDischargeDepth := 40) [*]; done))
@[simp] theorem offerInTime_segs (tag : Tag) (s : State) (hs : SegmentsInv s) : SegmentsInv (offerInTime tag s) := by
  unfold offerInTime; (try dsimp only) <;> (try (repeat' split) <;> first | exact hs | (simp (maxDischargeDepth := 40) [*]; done) | (simp +contextual (maxDischargeDepth := 40) [*]; done))
@[simp] theorem reofferPulse_segs (s : State) (hs : SegmentsInv s) : SegmentsInv (reofferPulse s) := by
  unfold reofferPulse; (try dsimp only) <;> (try (repeat' split) <;> first | exact hs | (simp (maxDischargeDepth := 40) [*]; done) | (simp +contextual (maxDischargeDepth := 40) [*]; done))
@[simp] theorem releaseNamed_segs (s : State) (hs : SegmentsInv s) : SegmentsInv (releaseNamed s) := by
  unfold releaseNamed; (try dsimp only) <;> (try (repeat' split) <;> first | exact hs | (simp (maxDischargeDepth := 40) [*]; done) | (simp +contextual (maxDischargeDepth := 40) [*]; done))
@[simp] theorem releasePulse_segs (s : State) (hs : SegmentsInv s) : SegmentsInv (releasePulse s) := by
  unfold releasePulse; (try dsimp only) <;> (try (repeat' split) <;> first | exact hs | (simp (maxDischargeDepth := 40) [*]; done) | (simp +contextual (maxDischargeDepth := 40) [*]; done))
@[simp] theorem askChannel_segs (c : Channel) (ask : MuteRequest) (s : State) (hs : SegmentsInv s) : SegmentsInv (askChannel c ask s) := by
  unfold askChannel; (try dsimp only) <;> (try (repeat' split) <;> first | exact hs | (simp (maxDischargeDepth := 40) [*]; done) | (simp +contextual (maxDischargeDepth := 40) [*]; done))
@[simp] theorem judgeRecordOf_segs (w : PulseWindow) (c : Channel) (s : State) (hs : SegmentsInv s) : SegmentsInv (judgeRecordOf w c s) := by
  unfold judgeRecordOf; (try dsimp only) <;> (try (repeat' split) <;> first | exact hs | (simp (maxDischargeDepth := 40) [*]; done) | (simp +contextual (maxDischargeDepth := 40) [*]; done))
@[simp] theorem judgeIfReferred_segs (w : PulseWindow) (c : Channel) (s : State) (hs : SegmentsInv s) : SegmentsInv (judgeIfReferred w c s) := by
  unfold judgeIfReferred; (try dsimp only) <;> (try (repeat' split) <;> first | exact hs | (simp (maxDischargeDepth := 40) [*]; done) | (simp +contextual (maxDischargeDepth := 40) [*]; done))
@[simp] theorem judgeSensor_segs (w : PulseWindow) (c : Channel) (s : State) (hs : SegmentsInv s) : SegmentsInv (judgeSensor w c s) := by
  unfold judgeSensor; (try dsimp only) <;> (try (repeat' split) <;> first | exact hs | (simp (maxDischargeDepth := 40) [*]; done) | (simp +contextual (maxDischargeDepth := 40) [*]; done))
@[simp] theorem judgeSensors_segs (w : PulseWindow) (l : List Channel) (s : State) (hs : SegmentsInv s) : SegmentsInv (judgeSensors w l s) := by
  induction l generalizing s with
  | nil => exact hs
  | cons a l ih => unfold judgeSensors; simp +contextual (maxDischargeDepth := 40) [*]
@[simp] theorem judgeWindow_segs (w : PulseWindow) (s : State) (hs : SegmentsInv s) : SegmentsInv (judgeWindow w s) := by
  unfold judgeWindow; (try dsimp only) <;> (try (repeat' split) <;> first | exact hs | (simp (maxDischargeDepth := 40) [*]; done) | (simp +contextual (maxDischargeDepth := 40) [*]; done))
@[simp] theorem judgeIfReady_segs (s : State) (hs : SegmentsInv s) : SegmentsInv (judgeIfReady s) := by
  unfold judgeIfReady; (try dsimp only) <;> (try (repeat' split) <;> first | exact hs | (simp (maxDischargeDepth := 40) [*]; done) | (simp +contextual (maxDischargeDepth := 40) [*]; done))
@[simp] theorem reofferThenJudge_segs (s : State) (hs : SegmentsInv s) : SegmentsInv (reofferThenJudge s) := by
  unfold reofferThenJudge; (try dsimp only) <;> (try (repeat' split) <;> first | exact hs | (simp (maxDischargeDepth := 40) [*]; done) | (simp +contextual (maxDischargeDepth := 40) [*]; done))
@[simp] theorem closeWindowUnits_segs (s : State) (hs : SegmentsInv s) : SegmentsInv (closeWindowUnits s) := by
  unfold closeWindowUnits; (try dsimp only) <;> (try (repeat' split) <;> first | exact hs | (simp (maxDischargeDepth := 40) [*]; done) | (simp +contextual (maxDischargeDepth := 40) [*]; done))
@[simp] theorem channelsWindowClosed_segs (s : State) (hs : SegmentsInv s) : SegmentsInv (channelsWindowClosed s) := by
  unfold channelsWindowClosed; (try dsimp only) <;> (try (repeat' split) <;> first | exact hs | (simp (maxDischargeDepth := 40) [*]; done) | (simp +contextual (maxDischargeDepth := 40) [*]; done))
@[simp] theorem abandonWindow_segs (s : State) (hs : SegmentsInv s) : SegmentsInv (abandonWindow s) := by
  unfold abandonWindow; (try dsimp only) <;> (try (repeat' split) <;> first | exact hs | (simp (maxDischargeDepth := 40) [*]; done) | (simp +contextual (maxDischargeDepth := 40) [*]; done))
@[simp] theorem openWindow_segs (s : State) (hs : SegmentsInv s) : SegmentsInv (openWindow s) := by
  unfold openWindow; (try dsimp only) <;> (try (repeat' split) <;> first | exact hs | (simp (maxDischargeDepth := 40) [*]; done) | (simp +contextual (maxDischargeDepth := 40) [*]; done))
@[simp] theorem ignoreWindow_segs (s : State) (hs : SegmentsInv s) : SegmentsInv (ignoreWindow s) := by
  unfold ignoreWindow; (try dsimp only) <;> (try (repeat' split) <;> first | exact hs | (simp (maxDischargeDepth := 40) [*]; done) | (simp +contextual (maxDischargeDepth := 40) [*]; done))
@[simp] theorem placeWindow_segs (pulser : Station) (fire finish : Tag) (s : State) (hs : SegmentsInv s) : SegmentsInv (placeWindow pulser fire finish s) := by
  unfold placeWindow; (try dsimp only) <;> (try (repeat' split) <;> first | exact hs | (simp (maxDischargeDepth := 40) [*]; done) | (simp +contextual (maxDischargeDepth := 40) [*]; done))
@[simp] theorem takePulse_segs (pulser : Station) (stamp : Tag) (s : State) (hs : SegmentsInv s) : SegmentsInv (takePulse pulser stamp s) := by
  unfold takePulse; (try dsimp only) <;> (try (repeat' split) <;> first | exact hs | (simp (maxDischargeDepth := 40) [*]; done) | (simp +contextual (maxDischargeDepth := 40) [*]; done))
@[simp] theorem pulseFrame_segs (pulser : Station) (cycle : Option CycleNo) (stamp : Tag) (s : State) (hs : SegmentsInv s) : SegmentsInv (pulseFrame pulser cycle stamp s) := by
  unfold pulseFrame; (try dsimp only) <;> (try (repeat' split) <;> first | exact hs | (simp (maxDischargeDepth := 40) [*]; done) | (simp +contextual (maxDischargeDepth := 40) [*]; done))
@[simp] theorem pulseReported_segs (s : State) (hs : SegmentsInv s) : SegmentsInv (pulseReported s) := by
  unfold pulseReported; (try dsimp only) <;> (try (repeat' split) <;> first | exact hs | (simp (maxDischargeDepth := 40) [*]; done) | (simp +contextual (maxDischargeDepth := 40) [*]; done))
@[simp] theorem armedChannelLost_segs (s : State) (hs : SegmentsInv s) : SegmentsInv (armedChannelLost s) := by
  unfold armedChannelLost; (try dsimp only) <;> (try (repeat' split) <;> first | exact hs | (simp (maxDischargeDepth := 40) [*]; done) | (simp +contextual (maxDischargeDepth := 40) [*]; done))
@[simp] theorem endSlotAtCyc_segs (s : State) (hs : SegmentsInv s) : SegmentsInv (endSlotAtCyc s) := by
  unfold endSlotAtCyc; (try dsimp only) <;> (try (repeat' split) <;> first | exact hs | (simp (maxDischargeDepth := 40) [*]; done) | (simp +contextual (maxDischargeDepth := 40) [*]; done))
@[simp] theorem couplingCyc_segs (s : State) (hs : SegmentsInv s) : SegmentsInv (couplingCyc s) := by
  unfold couplingCyc; (try dsimp only) <;> (try (repeat' split) <;> first | exact hs | (simp (maxDischargeDepth := 40) [*]; done) | (simp +contextual (maxDischargeDepth := 40) [*]; done))
@[simp] theorem placeInReturn_segs (s : State) (hs : SegmentsInv s) : SegmentsInv (placeInReturn s) := by
  unfold placeInReturn; (try dsimp only) <;> (try (repeat' split) <;> first | exact hs | (simp (maxDischargeDepth := 40) [*]; done) | (simp +contextual (maxDischargeDepth := 40) [*]; done))
@[simp] theorem placeIfDue_segs (s : State) (hs : SegmentsInv s) : SegmentsInv (placeIfDue s) := by
  unfold placeIfDue; (try dsimp only) <;> (try (repeat' split) <;> first | exact hs | (simp (maxDischargeDepth := 40) [*]; done) | (simp +contextual (maxDischargeDepth := 40) [*]; done))
@[simp] theorem placeSlot_segs (s : State) (hs : SegmentsInv s) : SegmentsInv (placeSlot s) := by
  unfold placeSlot; (try dsimp only) <;> (try (repeat' split) <;> first | exact hs | (simp (maxDischargeDepth := 40) [*]; done) | (simp +contextual (maxDischargeDepth := 40) [*]; done))
@[simp] theorem coinCounts_segs (f : CoincidenceCounts → CoincidenceCounts) (s : State) (hs : SegmentsInv s) : SegmentsInv (coinCounts f s) := by
  unfold coinCounts; (try dsimp only) <;> (try (repeat' split) <;> first | exact hs | (simp (maxDischargeDepth := 40) [*]; done) | (simp +contextual (maxDischargeDepth := 40) [*]; done))
@[simp] theorem enterWindow_segs (e : HitEntry) (s : State) (hs : SegmentsInv s) : SegmentsInv (enterWindow e s) := by
  unfold enterWindow; (try dsimp only) <;> (try (repeat' split) <;> first | exact hs | (simp (maxDischargeDepth := 40) [*]; done) | (simp +contextual (maxDischargeDepth := 40) [*]; done))
@[simp] theorem offerOwnHit_segs (c : Channel) (arrival : Tag) (phase : Phase) (s : State) (hs : SegmentsInv s) : SegmentsInv (offerOwnHit c arrival phase s) := by
  unfold offerOwnHit; (try dsimp only) <;> (try (repeat' split) <;> first | exact hs | (simp (maxDischargeDepth := 40) [*]; done) | (simp +contextual (maxDischargeDepth := 40) [*]; done))
@[simp] theorem enterOwnHit_segs (c : Channel) (arrival : Tag) (phase : Phase) (s : State) (hs : SegmentsInv s) : SegmentsInv (enterOwnHit c arrival phase s) := by
  unfold enterOwnHit; (try dsimp only) <;> (try (repeat' split) <;> first | exact hs | (simp (maxDischargeDepth := 40) [*]; done) | (simp +contextual (maxDischargeDepth := 40) [*]; done))
@[simp] theorem fillFeatures_segs (id : HitId) (f : Features) (s : State) (hs : SegmentsInv s) : SegmentsInv (fillFeatures id f s) := by
  unfold fillFeatures; (try dsimp only) <;> (try (repeat' split) <;> first | exact hs | (simp (maxDischargeDepth := 40) [*]; done) | (simp +contextual (maxDischargeDepth := 40) [*]; done))
@[simp] theorem eventDropped_segs (s : State) (hs : SegmentsInv s) : SegmentsInv (eventDropped s) := by
  unfold eventDropped; (try dsimp only) <;> (try (repeat' split) <;> first | exact hs | (simp (maxDischargeDepth := 40) [*]; done) | (simp +contextual (maxDischargeDepth := 40) [*]; done))
@[simp] theorem ownerTaken_segs (ref : Nat) (s : State) (hs : SegmentsInv s) : SegmentsInv (ownerTaken ref s) := by
  unfold ownerTaken; (try dsimp only) <;> (try (repeat' split) <;> first | exact hs | (simp (maxDischargeDepth := 40) [*]; done) | (simp +contextual (maxDischargeDepth := 40) [*]; done))
@[simp] theorem requestAsOwner_segs (members : List HitEntry) (crowded : Bool) (s : State) (hs : SegmentsInv s) : SegmentsInv (requestAsOwner members crowded s) := by
  unfold requestAsOwner; (try dsimp only) <;> (try (repeat' split) <;> first | exact hs | (simp (maxDischargeDepth := 40) [*]; done) | (simp +contextual (maxDischargeDepth := 40) [*]; done))
@[simp] theorem publishAsOwner_segs (members : List HitEntry) (crowded : Bool) (s : State) (hs : SegmentsInv s) : SegmentsInv (publishAsOwner members crowded s) := by
  unfold publishAsOwner; (try dsimp only) <;> (try (repeat' split) <;> first | exact hs | (simp (maxDischargeDepth := 40) [*]; done) | (simp +contextual (maxDischargeDepth := 40) [*]; done))
@[simp] theorem addPending_segs (members : List HitEntry) (crowded : Bool) (rank : Nat) (s : State) (hs : SegmentsInv s) : SegmentsInv (addPending members crowded rank s) := by
  unfold addPending; (try dsimp only) <;> (try (repeat' split) <;> first | exact hs | (simp (maxDischargeDepth := 40) [*]; done) | (simp +contextual (maxDischargeDepth := 40) [*]; done))
@[simp] theorem pendGroup_segs (members : List HitEntry) (crowded : Bool) (rank : Nat) (s : State) (hs : SegmentsInv s) : SegmentsInv (pendGroup members crowded rank s) := by
  unfold pendGroup; (try dsimp only) <;> (try (repeat' split) <;> first | exact hs | (simp (maxDischargeDepth := 40) [*]; done) | (simp +contextual (maxDischargeDepth := 40) [*]; done))
@[simp] theorem closeGroup_segs (g : OpenGroup) (s : State) (hs : SegmentsInv s) : SegmentsInv (closeGroup g s) := by
  unfold closeGroup; (try dsimp only) <;> (try (repeat' split) <;> first | exact hs | (simp (maxDischargeDepth := 40) [*]; done) | (simp +contextual (maxDischargeDepth := 40) [*]; done))
@[simp] theorem closeDueGroups_segs (n : Nat) (s : State) (hs : SegmentsInv s) : SegmentsInv (closeDueGroups n s) := by
  induction n generalizing s with
  | zero => exact hs
  | succ n ih => unfold closeDueGroups; (repeat' split) <;> first | assumption | simp +contextual (maxDischargeDepth := 40) [*]
@[simp] theorem standInTaken_segs (p : PendingGroup) (ref : Nat) (s : State) (hs : SegmentsInv s) : SegmentsInv (standInTaken p ref s) := by
  unfold standInTaken; (try dsimp only) <;> (try (repeat' split) <;> first | exact hs | (simp (maxDischargeDepth := 40) [*]; done) | (simp +contextual (maxDischargeDepth := 40) [*]; done))
@[simp] theorem standInRefused_segs (p : PendingGroup) (s : State) (hs : SegmentsInv s) : SegmentsInv (standInRefused p s) := by
  unfold standInRefused; (try dsimp only) <;> (try (repeat' split) <;> first | exact hs | (simp (maxDischargeDepth := 40) [*]; done) | (simp +contextual (maxDischargeDepth := 40) [*]; done))
@[simp] theorem requestAsStandIn_segs (p : PendingGroup) (s : State) (hs : SegmentsInv s) : SegmentsInv (requestAsStandIn p s) := by
  unfold requestAsStandIn; (try dsimp only) <;> (try (repeat' split) <;> first | exact hs | (simp (maxDischargeDepth := 40) [*]; done) | (simp +contextual (maxDischargeDepth := 40) [*]; done))
@[simp] theorem publishAsStandIn_segs (p : PendingGroup) (s : State) (hs : SegmentsInv s) : SegmentsInv (publishAsStandIn p s) := by
  unfold publishAsStandIn; (try dsimp only) <;> (try (repeat' split) <;> first | exact hs | (simp (maxDischargeDepth := 40) [*]; done) | (simp +contextual (maxDischargeDepth := 40) [*]; done))
@[simp] theorem eventOutcome_segs (ref : Nat) (wasSent : Bool) (s : State) (hs : SegmentsInv s) : SegmentsInv (eventOutcome ref wasSent s) := by
  unfold eventOutcome; (try dsimp only) <;> (try (repeat' split) <;> first | exact hs | (simp (maxDischargeDepth := 40) [*]; done) | (simp +contextual (maxDischargeDepth := 40) [*]; done))
@[simp] theorem peerHit_segs (sender : Station) (offset : Tag) (s : State) (h : HitRecord) (hs : SegmentsInv s) : SegmentsInv (peerHit sender offset s h) := by
  unfold peerHit; (try dsimp only) <;> (try (repeat' split) <;> first | exact hs | (simp (maxDischargeDepth := 40) [*]; done) | (simp +contextual (maxDischargeDepth := 40) [*]; done))
@[simp] theorem takePeerHit_segs (sender : Station) (offset : Tag) (h : HitRecord) (s : State) (hs : SegmentsInv s) : SegmentsInv (takePeerHit sender offset h s) := by
  unfold takePeerHit; (try dsimp only) <;> (try (repeat' split) <;> first | exact hs | (simp (maxDischargeDepth := 40) [*]; done) | (simp +contextual (maxDischargeDepth := 40) [*]; done))
@[simp] theorem takePeerHits_segs (sender : Station) (offset : Tag) (l : List HitRecord) (s : State) (hs : SegmentsInv s) : SegmentsInv (takePeerHits sender offset l s) := by
  induction l generalizing s with
  | nil => exact hs
  | cons h t ih => unfold takePeerHits; exact unlessFrozen_segs _ _ (fun t ht => ih t ht) (takePeerHit_segs sender offset h s hs)
@[simp] theorem closeIfMoved_segs (old : Option Tag) (s : State) (hs : SegmentsInv s) : SegmentsInv (closeIfMoved old s) := by
  unfold closeIfMoved; (try dsimp only) <;> (try (repeat' split) <;> first | exact hs | (simp (maxDischargeDepth := 40) [*]; done) | (simp +contextual (maxDischargeDepth := 40) [*]; done))
@[simp] theorem takeHits_segs (sender : Station) (f : RxFrame) (s : State) (hs : SegmentsInv s) : SegmentsInv (takeHits sender f s) := by
  unfold takeHits; (try dsimp only) <;> (try (repeat' split) <;> first | exact hs | (simp (maxDischargeDepth := 40) [*]; done) | (simp +contextual (maxDischargeDepth := 40) [*]; done))
@[simp] theorem readForHits_segs (sender : Station) (f : RxFrame) (s : State) (hs : SegmentsInv s) : SegmentsInv (readForHits sender f s) := by
  unfold readForHits; (try dsimp only) <;> (try (repeat' split) <;> first | exact hs | (simp (maxDischargeDepth := 40) [*]; done) | (simp +contextual (maxDischargeDepth := 40) [*]; done))
@[simp] theorem hitFrame_segs (sender : Station) (f : RxFrame) (s : State) (hs : SegmentsInv s) : SegmentsInv (hitFrame sender f s) := by
  unfold hitFrame; (try dsimp only) <;> (try (repeat' split) <;> first | exact hs | (simp (maxDischargeDepth := 40) [*]; done) | (simp +contextual (maxDischargeDepth := 40) [*]; done))
@[simp] theorem withdrawPending_segs (p : PendingGroup) (s : State) (hs : SegmentsInv s) : SegmentsInv (withdrawPending p s) := by
  unfold withdrawPending; (try dsimp only) <;> (try (repeat' split) <;> first | exact hs | (simp (maxDischargeDepth := 40) [*]; done) | (simp +contextual (maxDischargeDepth := 40) [*]; done))
@[simp] theorem eventReceipt_segs (e : EventRecord) (s : State) (hs : SegmentsInv s) : SegmentsInv (eventReceipt e s) := by
  unfold eventReceipt; (try dsimp only) <;> (try (repeat' split) <;> first | exact hs | (simp (maxDischargeDepth := 40) [*]; done) | (simp +contextual (maxDischargeDepth := 40) [*]; done))
@[simp] theorem discardCoincidence_segs (s : State) (hs : SegmentsInv s) : SegmentsInv (discardCoincidence s) := by
  unfold discardCoincidence; (try dsimp only) <;> (try (repeat' split) <;> first | exact hs | (simp (maxDischargeDepth := 40) [*]; done) | (simp +contextual (maxDischargeDepth := 40) [*]; done))
@[simp] theorem evidCounts_segs (f : EvidenceCounts → EvidenceCounts) (s : State) (hs : SegmentsInv s) : SegmentsInv (evidCounts f s) := by
  unfold evidCounts; (try dsimp only) <;> (try (repeat' split) <;> first | exact hs | (simp (maxDischargeDepth := 40) [*]; done) | (simp +contextual (maxDischargeDepth := 40) [*]; done))
@[simp] theorem judgeApplied_segs (sender : Station) (e : EventRecord) (s : State) (hs : SegmentsInv s) : SegmentsInv (judgeApplied sender e s) := by
  unfold judgeApplied
  split
  · exact evidCounts_segs _ _ hs
  · split
    · exact evidCounts_segs _ _ hs
    · exact evidCounts_segs _ _ (show SegmentsInv (checkApplied s) from checkApplied_segs _ hs)
@[simp] theorem applyEvent_segs (sender : Station) (e : EventRecord) (s : State) (hs : SegmentsInv s) : SegmentsInv (applyEvent sender e s) := by
  unfold applyEvent; (try dsimp only) <;> (try (repeat' split) <;> first | exact hs | (simp (maxDischargeDepth := 40) [*]; done) | (simp +contextual (maxDischargeDepth := 40) [*]; done))
@[simp] theorem foldOne_segs (closed : Option CycleNo) (n : Nat) (s : State) (hs : SegmentsInv s) : SegmentsInv (foldOne closed n s) :=
  withEvid_segs hs _ (recordsOk_modify _ _ hs.table fun _ h => recordOk_fold h)
@[simp] theorem foldSegment_segs (closed : Option CycleNo) (n : Nat) (s : State) (hs : SegmentsInv s) : SegmentsInv (foldSegment closed n s) := by
  unfold foldSegment; (try dsimp only) <;> (try (repeat' split) <;> first | exact hs | (simp (maxDischargeDepth := 40) [*]; done) | (simp +contextual (maxDischargeDepth := 40) [*]; done))
@[simp] theorem foldSegments_segs (cl : Option CycleNo) (l : List Nat) (s : State) (hs : SegmentsInv s) : SegmentsInv (foldSegments cl l s) := by
  induction l generalizing s with
  | nil => exact hs
  | cons a l ih => unfold foldSegments; simp +contextual (maxDischargeDepth := 40) [*]
@[simp] theorem noticeChange_segs (cycle : Option CycleNo) (cause : SegCause) (n : Nat) (old new : SegmentRecord) (s : State) (hs : SegmentsInv s) : SegmentsInv (noticeChange cycle cause n old new s) := by
  unfold noticeChange; (try dsimp only) <;> (try (repeat' split) <;> first | exact hs | (simp (maxDischargeDepth := 40) [*]; done) | (simp +contextual (maxDischargeDepth := 40) [*]; done))
@[simp] theorem raiseChanges_segs (cycle : Option CycleNo) (cause : SegCause) (old new : List SegmentRecord) (s : State) (hs : SegmentsInv s) : SegmentsInv (raiseChanges cycle cause old new s) := by
  unfold raiseChanges; (try dsimp only) <;> (try (repeat' split) <;> first | exact hs | (simp (maxDischargeDepth := 40) [*]; done) | (simp +contextual (maxDischargeDepth := 40) [*]; done))
@[simp] theorem setOutputs_segs (s : State) (hs : SegmentsInv s) : SegmentsInv (setOutputs s) := by
  unfold setOutputs; (try dsimp only) <;> (try (repeat' split) <;> first | exact hs | (simp (maxDischargeDepth := 40) [*]; done) | (simp +contextual (maxDischargeDepth := 40) [*]; done))
@[simp] theorem deriveOutputs_segs (s : State) (hs : SegmentsInv s) : SegmentsInv (deriveOutputs s) := by
  unfold deriveOutputs; (try dsimp only) <;> (try (repeat' split) <;> first | exact hs | (simp (maxDischargeDepth := 40) [*]; done) | (simp +contextual (maxDischargeDepth := 40) [*]; done))
@[simp] theorem deriveUnlessHeld_segs (s : State) (hs : SegmentsInv s) : SegmentsInv (deriveUnlessHeld s) := by
  unfold deriveUnlessHeld; (try dsimp only) <;> (try (repeat' split) <;> first | exact hs | (simp (maxDischargeDepth := 40) [*]; done) | (simp +contextual (maxDischargeDepth := 40) [*]; done))
@[simp] theorem standingChanged_segs (s : State) (hs : SegmentsInv s) : SegmentsInv (standingChanged s) := by
  unfold standingChanged; (try dsimp only) <;> (try (repeat' split) <;> first | exact hs | (simp (maxDischargeDepth := 40) [*]; done) | (simp +contextual (maxDischargeDepth := 40) [*]; done))
@[simp] theorem emptyApplied_segs (s : State) (hs : SegmentsInv s) : SegmentsInv (emptyApplied s) := by
  unfold emptyApplied; (try dsimp only) <;> (try (repeat' split) <;> first | exact hs | (simp (maxDischargeDepth := 40) [*]; done) | (simp +contextual (maxDischargeDepth := 40) [*]; done))
@[simp] theorem raiseAge_segs (s : State) (hs : SegmentsInv s) : SegmentsInv (raiseAge s) := by
  unfold raiseAge; (try dsimp only) <;> (try (repeat' split) <;> first | exact hs | (simp (maxDischargeDepth := 40) [*]; done) | (simp +contextual (maxDischargeDepth := 40) [*]; done))
@[simp] theorem afterFold_segs (closed : Option CycleNo) (old : List SegmentRecord) (s : State) (hs : SegmentsInv s) : SegmentsInv (afterFold closed old s) := by
  unfold afterFold; (try dsimp only) <;> (try (repeat' split) <;> first | exact hs | (simp (maxDischargeDepth := 40) [*]; done) | (simp +contextual (maxDischargeDepth := 40) [*]; done))
@[simp] theorem foldTable_segs (closed : Option CycleNo) (s : State) (hs : SegmentsInv s) : SegmentsInv (foldTable closed s) := by
  unfold foldTable; (try dsimp only) <;> (try (repeat' split) <;> first | exact hs | (simp (maxDischargeDepth := 40) [*]; done) | (simp +contextual (maxDischargeDepth := 40) [*]; done))
@[simp] theorem evidenceClose_segs (closed : Option CycleNo) (kind : CloseKind) (s : State) (hs : SegmentsInv s) : SegmentsInv (evidenceClose closed kind s) := by
  unfold evidenceClose; (try dsimp only) <;> (try (repeat' split) <;> first | exact hs | (simp (maxDischargeDepth := 40) [*]; done) | (simp +contextual (maxDischargeDepth := 40) [*]; done))
@[simp] theorem controlOne_segs (c : Control) (n : Nat) (s : State) (hs : SegmentsInv s) : SegmentsInv (controlOne c n s) :=
  withEvid_segs hs _ (recordsOk_modify _ _ hs.table fun _ h => recordOk_control h)
@[simp] theorem controlSegments_segs (c : Control) (l : List Nat) (s : State) (hs : SegmentsInv s) : SegmentsInv (controlSegments c l s) := by
  induction l generalizing s with
  | nil => exact hs
  | cons a l ih => unfold controlSegments; simp +contextual (maxDischargeDepth := 40) [*]
@[simp] theorem afterControl_segs (cause : SegCause) (old : List SegmentRecord) (s : State) (hs : SegmentsInv s) : SegmentsInv (afterControl cause old s) := by
  unfold afterControl; (try dsimp only) <;> (try (repeat' split) <;> first | exact hs | (simp (maxDischargeDepth := 40) [*]; done) | (simp +contextual (maxDischargeDepth := 40) [*]; done))
@[simp] theorem applyControl_segs (c : Control) (s : State) (hs : SegmentsInv s) : SegmentsInv (applyControl c s) := by
  unfold applyControl; (try dsimp only) <;> (try (repeat' split) <;> first | exact hs | (simp (maxDischargeDepth := 40) [*]; done) | (simp +contextual (maxDischargeDepth := 40) [*]; done))
@[simp] theorem agreeCounts_segs (f : AgreementCounts → AgreementCounts) (s : State) (hs : SegmentsInv s) : SegmentsInv (agreeCounts f s) := by
  unfold agreeCounts; (try dsimp only) <;> (try (repeat' split) <;> first | exact hs | (simp (maxDischargeDepth := 40) [*]; done) | (simp +contextual (maxDischargeDepth := 40) [*]; done))
@[simp] theorem setTransfer_segs (t : Transfer) (s : State) (hs : SegmentsInv s) (ht : BufferOk t) : SegmentsInv (setTransfer t s) :=
  withAgree_segs hs _ ht
@[simp] theorem abandonTransfer_segs (cause : AbandonCause) (s : State) (hs : SegmentsInv s) : SegmentsInv (abandonTransfer cause s) := by
  unfold abandonTransfer; (try dsimp only) <;> (try (repeat' split) <;> first | exact hs | (simp (maxDischargeDepth := 40) [*]; done) | (simp +contextual (maxDischargeDepth := 40) [*]; done))
@[simp] theorem donorGone_segs (st : Station) (s : State) (hs : SegmentsInv s) : SegmentsInv (donorGone st s) := by
  unfold donorGone; (try dsimp only) <;> (try (repeat' split) <;> first | exact hs | (simp (maxDischargeDepth := 40) [*]; done) | (simp +contextual (maxDischargeDepth := 40) [*]; done))
@[simp] theorem abortTransfer_segs (s : State) (hs : SegmentsInv s) : SegmentsInv (abortTransfer s) := by
  unfold abortTransfer; (try dsimp only) <;> (try (repeat' split) <;> first | exact hs | (simp (maxDischargeDepth := 40) [*]; done) | (simp +contextual (maxDischargeDepth := 40) [*]; done))
@[simp] theorem rowTaken_segs (row : RowFrame) (ref : Nat) (s : State) (hs : SegmentsInv s) : SegmentsInv (rowTaken row ref s) := by
  unfold rowTaken; (try dsimp only) <;> (try (repeat' split) <;> first | exact hs | (simp (maxDischargeDepth := 40) [*]; done) | (simp +contextual (maxDischargeDepth := 40) [*]; done))
@[simp] theorem requestRow_segs (row : RowFrame) (s : State) (hs : SegmentsInv s) : SegmentsInv (requestRow row s) := by
  unfold requestRow; (try dsimp only) <;> (try (repeat' split) <;> first | exact hs | (simp (maxDischargeDepth := 40) [*]; done) | (simp +contextual (maxDischargeDepth := 40) [*]; done))
@[simp] theorem makeRow_segs (row : RowFrame) (s : State) (hs : SegmentsInv s) : SegmentsInv (makeRow row s) := by
  unfold makeRow; (try dsimp only) <;> (try (repeat' split) <;> first | exact hs | (simp (maxDischargeDepth := 40) [*]; done) | (simp +contextual (maxDischargeDepth := 40) [*]; done))
@[simp] theorem sendRow_segs (first : Nat) (s : State) (hs : SegmentsInv s) : SegmentsInv (sendRow first s) := by
  unfold sendRow; (try dsimp only) <;> (try (repeat' split) <;> first | exact hs | (simp (maxDischargeDepth := 40) [*]; done) | (simp +contextual (maxDischargeDepth := 40) [*]; done))
@[simp] theorem rowOutcome_segs (ref : Nat) (wasSent : Bool) (s : State) (hs : SegmentsInv s) : SegmentsInv (rowOutcome ref wasSent s) := by
  unfold rowOutcome; (try dsimp only) <;> (try (repeat' split) <;> first | exact hs | (simp (maxDischargeDepth := 40) [*]; done) | (simp +contextual (maxDischargeDepth := 40) [*]; done))
@[simp] theorem digestNotSent_segs (s : State) (hs : SegmentsInv s) : SegmentsInv (digestNotSent s) := by
  unfold digestNotSent; (try dsimp only) <;> (try (repeat' split) <;> first | exact hs | (simp (maxDischargeDepth := 40) [*]; done) | (simp +contextual (maxDischargeDepth := 40) [*]; done))
@[simp] theorem stopSending_segs (s : State) (hs : SegmentsInv s) : SegmentsInv (stopSending s) := by
  unfold stopSending; (try dsimp only) <;> (try (repeat' split) <;> first | exact hs | (simp (maxDischargeDepth := 40) [*]; done) | (simp +contextual (maxDischargeDepth := 40) [*]; done))
@[simp] theorem storeSnapshot_segs (closed : Option CycleNo) (s : State) (hs : SegmentsInv s) : SegmentsInv (storeSnapshot closed s) := by
  unfold storeSnapshot; (try dsimp only) <;> (try (repeat' split) <;> first | exact hs | (simp (maxDischargeDepth := 40) [*]; done) | (simp +contextual (maxDischargeDepth := 40) [*]; done))
@[simp] theorem requestDigest_segs (snap : Snapshot) (digest : BitVec 32) (s : State) (hs : SegmentsInv s) : SegmentsInv (requestDigest snap digest s) := by
  unfold requestDigest; (try dsimp only) <;> (try (repeat' split) <;> first | exact hs | (simp (maxDischargeDepth := 40) [*]; done) | (simp +contextual (maxDischargeDepth := 40) [*]; done))
@[simp] theorem digestSnapshot_segs (snap : Snapshot) (s : State) (hs : SegmentsInv s) : SegmentsInv (digestSnapshot snap s) := by
  unfold digestSnapshot; (try dsimp only) <;> (try (repeat' split) <;> first | exact hs | (simp (maxDischargeDepth := 40) [*]; done) | (simp +contextual (maxDischargeDepth := 40) [*]; done))
@[simp] theorem startDigestWindow_segs (s : State) (hs : SegmentsInv s) : SegmentsInv (startDigestWindow s) := by
  unfold startDigestWindow; (try dsimp only) <;> (try (repeat' split) <;> first | exact hs | (simp (maxDischargeDepth := 40) [*]; done) | (simp +contextual (maxDischargeDepth := 40) [*]; done))
@[simp] theorem takeSnapshot_segs (closed : Option CycleNo) (s : State) (hs : SegmentsInv s) : SegmentsInv (takeSnapshot closed s) := by
  unfold takeSnapshot; (try dsimp only) <;> (try (repeat' split) <;> first | exact hs | (simp (maxDischargeDepth := 40) [*]; done) | (simp +contextual (maxDischargeDepth := 40) [*]; done))
@[simp] theorem copyTable_segs (closed : Option CycleNo) (s : State) (hs : SegmentsInv s) : SegmentsInv (copyTable closed s) := by
  unfold copyTable; (try dsimp only) <;> (try (repeat' split) <;> first | exact hs | (simp (maxDischargeDepth := 40) [*]; done) | (simp +contextual (maxDischargeDepth := 40) [*]; done))
@[simp] theorem agreementClose_segs (closed : Option CycleNo) (s : State) (hs : SegmentsInv s) : SegmentsInv (agreementClose closed s) := by
  unfold agreementClose; (try dsimp only) <;> (try (repeat' split) <;> first | exact hs | (simp (maxDischargeDepth := 40) [*]; done) | (simp +contextual (maxDischargeDepth := 40) [*]; done))
@[simp] theorem setStanding_segs (v : Standing) (s : State) (hs : SegmentsInv s) : SegmentsInv (setStanding v s) := by
  unfold setStanding; (try dsimp only) <;> (try (repeat' split) <;> first | exact hs | (simp (maxDischargeDepth := 40) [*]; done) | (simp +contextual (maxDischargeDepth := 40) [*]; done))
@[simp] theorem decideAs_segs (v : Standing) (s : State) (hs : SegmentsInv s) : SegmentsInv (decideAs v s) :=
  setStanding_segs v _ hs
@[simp] theorem enterAwaiting_segs (donor : Station) (cycle : Option CycleNo) (v : BitVec 32) (s : State) (hs : SegmentsInv s) : SegmentsInv (enterAwaiting donor cycle v s) := by
  unfold enterAwaiting; (try dsimp only) <;> (try (repeat' split) <;> first | exact hs | (simp (maxDischargeDepth := 40) [*]; done) | (simp +contextual (maxDischargeDepth := 40) [*]; done))
@[simp] theorem actOnStanding_segs (own : Station) (standing : Standing) (cycle : Option CycleNo) (verdict : Option (BitVec 32 × Station)) (senders : List DigestSender) (s : State) (hs : SegmentsInv s) : SegmentsInv (actOnStanding own standing cycle verdict senders s) := by
  unfold actOnStanding; (try dsimp only) <;> (try (repeat' split) <;> first | exact hs | (simp (maxDischargeDepth := 40) [*]; done) | (simp +contextual (maxDischargeDepth := 40) [*]; done))
@[simp] theorem decideStanding_segs (own : Station) (snap : Snapshot) (digest : BitVec 32) (senders : List DigestSender) (s : State) (hs : SegmentsInv s) : SegmentsInv (decideStanding own snap digest senders s) := by
  unfold decideStanding; (try dsimp only) <;> (try (repeat' split) <;> first | exact hs | (simp (maxDischargeDepth := 40) [*]; done) | (simp +contextual (maxDischargeDepth := 40) [*]; done))
@[simp] theorem decideAdoption_segs (m : CycleNo) (senders : List DigestSender) (s : State) (hs : SegmentsInv s) : SegmentsInv (decideAdoption m senders s) := by
  unfold decideAdoption; (try dsimp only) <;> (try (repeat' split) <;> first | exact hs | (simp (maxDischargeDepth := 40) [*]; done) | (simp +contextual (maxDischargeDepth := 40) [*]; done))
@[simp] theorem decide__segs (s : State) (hs : SegmentsInv s) : SegmentsInv (decide_ s) := by
  unfold decide_; (try dsimp only) <;> (try (repeat' split) <;> first | exact hs | (simp (maxDischargeDepth := 40) [*]; done) | (simp +contextual (maxDischargeDepth := 40) [*]; done))
@[simp] theorem carryControl_segs (c : Control) (s : State) (hs : SegmentsInv s) : SegmentsInv (carryControl c s) := by
  unfold carryControl; (try dsimp only) <;> (try (repeat' split) <;> first | exact hs | (simp (maxDischargeDepth := 40) [*]; done) | (simp +contextual (maxDischargeDepth := 40) [*]; done))
@[simp] theorem malformedControl_segs (s : State) (hs : SegmentsInv s) : SegmentsInv (malformedControl s) := by
  unfold malformedControl; (try dsimp only) <;> (try (repeat' split) <;> first | exact hs | (simp (maxDischargeDepth := 40) [*]; done) | (simp +contextual (maxDischargeDepth := 40) [*]; done))
@[simp] theorem takeControl_segs (c : Control) (s : State) (hs : SegmentsInv s) : SegmentsInv (takeControl c s) := by
  unfold takeControl; (try dsimp only) <;> (try (repeat' split) <;> first | exact hs | (simp (maxDischargeDepth := 40) [*]; done) | (simp +contextual (maxDischargeDepth := 40) [*]; done))
@[simp] theorem controlFrame_segs (sender : Station) (p : List Byte) (s : State) (hs : SegmentsInv s) : SegmentsInv (controlFrame sender p s) := by
  unfold controlFrame; (try dsimp only) <;> (try (repeat' split) <;> first | exact hs | (simp (maxDischargeDepth := 40) [*]; done) | (simp +contextual (maxDischargeDepth := 40) [*]; done))
@[simp] theorem reapplyControls_segs (l : List Control) (s : State) (hs : SegmentsInv s) : SegmentsInv (reapplyControls l s) := by
  induction l generalizing s with
  | nil => exact hs
  | cons a l ih => unfold reapplyControls; simp +contextual (maxDischargeDepth := 40) [*]
@[simp] theorem endTransfer_segs (donor : Station) (s : State) (hs : SegmentsInv s) : SegmentsInv (endTransfer donor s) := by
  unfold endTransfer; (try dsimp only) <;> (try (repeat' split) <;> first | exact hs | (simp (maxDischargeDepth := 40) [*]; done) | (simp +contextual (maxDischargeDepth := 40) [*]; done))
@[simp] theorem ignoreRow_segs (s : State) (hs : SegmentsInv s) : SegmentsInv (ignoreRow s) := by
  unfold ignoreRow; (try dsimp only) <;> (try (repeat' split) <;> first | exact hs | (simp (maxDischargeDepth := 40) [*]; done) | (simp +contextual (maxDischargeDepth := 40) [*]; done))
@[simp] theorem laneNotice_segs (l : Lane) (e : LaneEvent) (s : State) (hs : SegmentsInv s) : SegmentsInv (laneNotice l e s) := by
  unfold laneNotice; (try dsimp only) <;> (try (repeat' split) <;> first | exact hs | (simp (maxDischargeDepth := 40) [*]; done) | (simp +contextual (maxDischargeDepth := 40) [*]; done))
@[simp] theorem setRun_segs (l : Lane) (run : Nat) (s : State) (hs : SegmentsInv s) : SegmentsInv (setRun l run s) := by
  unfold setRun; (try dsimp only) <;> (try (repeat' split) <;> first | exact hs | (simp (maxDischargeDepth := 40) [*]; done) | (simp +contextual (maxDischargeDepth := 40) [*]; done))
@[simp] theorem laneFailed_segs (l : Lane) (s : State) (hs : SegmentsInv s) : SegmentsInv (laneFailed l s) := by
  unfold laneFailed; (try dsimp only) <;> (try (repeat' split) <;> first | exact hs | (simp (maxDischargeDepth := 40) [*]; done) | (simp +contextual (maxDischargeDepth := 40) [*]; done))
@[simp] theorem laneSent_segs (l : Lane) (s : State) (hs : SegmentsInv s) : SegmentsInv (laneSent l s) := by
  unfold laneSent; (try dsimp only) <;> (try (repeat' split) <;> first | exact hs | (simp (maxDischargeDepth := 40) [*]; done) | (simp +contextual (maxDischargeDepth := 40) [*]; done))
@[simp] theorem logoutOutcome_segs (wasSent : Bool) (s : State) (hs : SegmentsInv s) : SegmentsInv (logoutOutcome wasSent s) := by
  unfold logoutOutcome; (try dsimp only) <;> (try (repeat' split) <;> first | exact hs | (simp (maxDischargeDepth := 40) [*]; done) | (simp +contextual (maxDischargeDepth := 40) [*]; done))
@[simp] theorem raiseResult_segs (delivered : Bool) (c : Control) (cause : Option FailCause) (retries : Nat) (s : State) (hs : SegmentsInv s) : SegmentsInv (raiseResult delivered c cause retries s) := by
  unfold raiseResult; (try dsimp only) <;> (try (repeat' split) <;> first | exact hs | (simp (maxDischargeDepth := 40) [*]; done) | (simp +contextual (maxDischargeDepth := 40) [*]; done))
@[simp] theorem controlResult_segs (delivered : Bool) (c : Control) (cause : Option FailCause) (retries : Nat) (s : State) (hs : SegmentsInv s) : SegmentsInv (controlResult delivered c cause retries s) := by
  unfold controlResult; (try dsimp only) <;> (try (repeat' split) <;> first | exact hs | (simp (maxDischargeDepth := 40) [*]; done) | (simp +contextual (maxDischargeDepth := 40) [*]; done))
@[simp] theorem controlOutcome_segs (ref : Nat) (wasSent : Bool) (cause : Option FailCause) (retries : Nat) (s : State) (hs : SegmentsInv s) : SegmentsInv (controlOutcome ref wasSent cause retries s) := by
  unfold controlOutcome; (try dsimp only) <;> (try (repeat' split) <;> first | exact hs | (simp (maxDischargeDepth := 40) [*]; done) | (simp +contextual (maxDischargeDepth := 40) [*]; done))
@[simp] theorem pulseOutcome_segs (ref : Nat) (wasSent : Bool) (stamp : Tag) (s : State) (hs : SegmentsInv s) : SegmentsInv (pulseOutcome ref wasSent stamp s) := by
  unfold pulseOutcome; (try dsimp only) <;> (try (repeat' split) <;> first | exact hs | (simp (maxDischargeDepth := 40) [*]; done) | (simp +contextual (maxDischargeDepth := 40) [*]; done))
@[simp] theorem digestOutcome_segs (wasSent : Bool) (s : State) (hs : SegmentsInv s) : SegmentsInv (digestOutcome wasSent s) := by
  unfold digestOutcome; (try dsimp only) <;> (try (repeat' split) <;> first | exact hs | (simp (maxDischargeDepth := 40) [*]; done) | (simp +contextual (maxDischargeDepth := 40) [*]; done))
@[simp] theorem reportOutcome_segs (c : CurrentFrame) (wasSent : Bool) (stamp : Tag) (s : State) (hs : SegmentsInv s) : SegmentsInv (reportOutcome c wasSent stamp s) := by
  unfold reportOutcome; (try dsimp only) <;> (try (repeat' split) <;> first | exact hs | (simp (maxDischargeDepth := 40) [*]; done) | (simp +contextual (maxDischargeDepth := 40) [*]; done))
@[simp] theorem restartPresence_segs (s : State) (hs : SegmentsInv s) : SegmentsInv (restartPresence s) := by
  unfold restartPresence; (try dsimp only) <;> (try (repeat' split) <;> first | exact hs | (simp (maxDischargeDepth := 40) [*]; done) | (simp +contextual (maxDischargeDepth := 40) [*]; done))
@[simp] theorem removeCurrent_segs (c : CurrentFrame) (wasSent : Bool) (s : State) (hs : SegmentsInv s) : SegmentsInv (removeCurrent c wasSent s) := by
  unfold removeCurrent; (try dsimp only) <;> (try (repeat' split) <;> first | exact hs | (simp (maxDischargeDepth := 40) [*]; done) | (simp +contextual (maxDischargeDepth := 40) [*]; done))
@[simp] theorem tellOutcome_segs (c : CurrentFrame) (wasSent : Bool) (stamp : Tag) (s : State) (hs : SegmentsInv s) : SegmentsInv (tellOutcome c wasSent stamp s) := by
  unfold tellOutcome; (try dsimp only) <;> (try (repeat' split) <;> first | exact hs | (simp (maxDischargeDepth := 40) [*]; done) | (simp +contextual (maxDischargeDepth := 40) [*]; done))
@[simp] theorem tellSent_segs (c : CurrentFrame) (stamp : Tag) (s : State) (hs : SegmentsInv s) : SegmentsInv (tellSent c stamp s) := by
  unfold tellSent; (try dsimp only) <;> (try (repeat' split) <;> first | exact hs | (simp (maxDischargeDepth := 40) [*]; done) | (simp +contextual (maxDischargeDepth := 40) [*]; done))
@[simp] theorem endSent_segs (c : CurrentFrame) (stamp : Tag) (s : State) (hs : SegmentsInv s) : SegmentsInv (endSent c stamp s) := by
  unfold endSent; (try dsimp only) <;> (try (repeat' split) <;> first | exact hs | (simp (maxDischargeDepth := 40) [*]; done) | (simp +contextual (maxDischargeDepth := 40) [*]; done))
@[simp] theorem endDropped_segs (c : CurrentFrame) (cause : FailCause) (s : State) (hs : SegmentsInv s) : SegmentsInv (endDropped c cause s) := by
  unfold endDropped; (try dsimp only) <;> (try (repeat' split) <;> first | exact hs | (simp (maxDischargeDepth := 40) [*]; done) | (simp +contextual (maxDischargeDepth := 40) [*]; done))
@[simp] theorem beginRetry_segs (c : CurrentFrame) (cause : FailCause) (s : State) (hs : SegmentsInv s) : SegmentsInv (beginRetry c cause s) := by
  unfold beginRetry; (try dsimp only) <;> (try (repeat' split) <;> first | exact hs | (simp (maxDischargeDepth := 40) [*]; done) | (simp +contextual (maxDischargeDepth := 40) [*]; done))
@[simp] theorem retryOrDrop_segs (c : CurrentFrame) (cause : FailCause) (s : State) (hs : SegmentsInv s) : SegmentsInv (retryOrDrop c cause s) := by
  unfold retryOrDrop; (try dsimp only) <;> (try (repeat' split) <;> first | exact hs | (simp (maxDischargeDepth := 40) [*]; done) | (simp +contextual (maxDischargeDepth := 40) [*]; done))
@[simp] theorem attemptFailed_segs (c : CurrentFrame) (cause : FailCause) (s : State) (hs : SegmentsInv s) : SegmentsInv (attemptFailed c cause s) := by
  unfold attemptFailed; (try dsimp only) <;> (try (repeat' split) <;> first | exact hs | (simp (maxDischargeDepth := 40) [*]; done) | (simp +contextual (maxDischargeDepth := 40) [*]; done))
@[simp] theorem attemptSucceeded_segs (c : CurrentFrame) (stamp : Tag) (s : State) (hs : SegmentsInv s) : SegmentsInv (attemptSucceeded c stamp s) := by
  unfold attemptSucceeded; (try dsimp only) <;> (try (repeat' split) <;> first | exact hs | (simp (maxDischargeDepth := 40) [*]; done) | (simp +contextual (maxDischargeDepth := 40) [*]; done))
@[simp] theorem breakFrame_segs (l : Lane) (idleFrom : Nat) (s : State) (hs : SegmentsInv s) : SegmentsInv (breakFrame l idleFrom s) := by
  unfold breakFrame; (try dsimp only) <;> (try (repeat' split) <;> first | exact hs | (simp (maxDischargeDepth := 40) [*]; done) | (simp +contextual (maxDischargeDepth := 40) [*]; done))
@[simp] theorem startFrame_segs (l : Lane) (s : State) (hs : SegmentsInv s) : SegmentsInv (startFrame l s) := by
  unfold startFrame; (try dsimp only) <;> (try (repeat' split) <;> first | exact hs | (simp (maxDischargeDepth := 40) [*]; done) | (simp +contextual (maxDischargeDepth := 40) [*]; done))
@[simp] theorem completeFrame_segs (l : Lane) (f : RxFrame) (s : State) (hs : SegmentsInv s) : SegmentsInv (completeFrame l f s) := by
  unfold completeFrame; (try dsimp only) <;> (try (repeat' split) <;> first | exact hs | (simp (maxDischargeDepth := 40) [*]; done) | (simp +contextual (maxDischargeDepth := 40) [*]; done))
@[simp] theorem unmarkEcho_segs (l : Lane) (s : State) (hs : SegmentsInv s) : SegmentsInv (unmarkEcho l s) := by
  unfold unmarkEcho; (try dsimp only) <;> (try (repeat' split) <;> first | exact hs | (simp (maxDischargeDepth := 40) [*]; done) | (simp +contextual (maxDischargeDepth := 40) [*]; done))
@[simp] theorem echoFailed_segs (c : CurrentFrame) (cause : FailCause) (s : State) (hs : SegmentsInv s) : SegmentsInv (echoFailed c cause s) := by
  unfold echoFailed; (try dsimp only) <;> (try (repeat' split) <;> first | exact hs | (simp (maxDischargeDepth := 40) [*]; done) | (simp +contextual (maxDischargeDepth := 40) [*]; done))
@[simp] theorem hearBytes_segs (rest : RestingLane) (s : State) (hs : SegmentsInv s) : SegmentsInv (hearBytes rest s) := by
  unfold hearBytes; (try dsimp only) <;> (try (repeat' split) <;> first | exact hs | (simp (maxDischargeDepth := 40) [*]; done) | (simp +contextual (maxDischargeDepth := 40) [*]; done))
@[simp] theorem beginTransmit_segs (c : CurrentFrame) (s : State) (hs : SegmentsInv s) : SegmentsInv (beginTransmit c s) := by
  unfold beginTransmit; (try dsimp only) <;> (try (repeat' split) <;> first | exact hs | (simp (maxDischargeDepth := 40) [*]; done) | (simp +contextual (maxDischargeDepth := 40) [*]; done))
@[simp] theorem strayEdge_segs (s : State) (hs : SegmentsInv s) : SegmentsInv (strayEdge s) := by
  unfold strayEdge; (try dsimp only) <;> (try (repeat' split) <;> first | exact hs | (simp (maxDischargeDepth := 40) [*]; done) | (simp +contextual (maxDischargeDepth := 40) [*]; done))
@[simp] theorem enterPhase_segs (p : Phase) (s : State) (hs : SegmentsInv s) : SegmentsInv (enterPhase p s) := by
  unfold enterPhase; (try dsimp only) <;> (try (repeat' split) <;> first | exact hs | (simp (maxDischargeDepth := 40) [*]; done) | (simp +contextual (maxDischargeDepth := 40) [*]; done))
@[simp] theorem beginCycle_segs (s : State) (hs : SegmentsInv s) : SegmentsInv (beginCycle s) := by
  unfold beginCycle; (try dsimp only) <;> (try (repeat' split) <;> first | exact hs | (simp (maxDischargeDepth := 40) [*]; done) | (simp +contextual (maxDischargeDepth := 40) [*]; done))
@[simp] theorem cutHitFrame_segs (s : State) (hs : SegmentsInv s) : SegmentsInv (cutHitFrame s) := by
  unfold cutHitFrame; (try dsimp only) <;> (try (repeat' split) <;> first | exact hs | (simp (maxDischargeDepth := 40) [*]; done) | (simp +contextual (maxDischargeDepth := 40) [*]; done))
@[simp] theorem cycleFlagNotice_segs (t : Tracker) (cause : CloseCause) (s : State) (hs : SegmentsInv s) : SegmentsInv (cycleFlagNotice t cause s) := by
  unfold cycleFlagNotice; (try dsimp only) <;> (try (repeat' split) <;> first | exact hs | (simp (maxDischargeDepth := 40) [*]; done) | (simp +contextual (maxDischargeDepth := 40) [*]; done))
@[simp] theorem closeHits_segs (s : State) (hs : SegmentsInv s) : SegmentsInv (closeHits s) := by
  unfold closeHits; (try dsimp only) <;> (try (repeat' split) <;> first | exact hs | (simp (maxDischargeDepth := 40) [*]; done) | (simp +contextual (maxDischargeDepth := 40) [*]; done))
@[simp] theorem closeTables_segs (closed : Option CycleNo) (kind : CloseKind) (s : State) (hs : SegmentsInv s) : SegmentsInv (closeTables closed kind s) := by
  unfold closeTables; (try dsimp only) <;> (try (repeat' split) <;> first | exact hs | (simp (maxDischargeDepth := 40) [*]; done) | (simp +contextual (maxDischargeDepth := 40) [*]; done))
@[simp] theorem closeCycle_segs (cause : CloseCause) (s : State) (hs : SegmentsInv s) : SegmentsInv (closeCycle cause s) := by
  unfold closeCycle; (try dsimp only) <;> (try (repeat' split) <;> first | exact hs | (simp (maxDischargeDepth := 40) [*]; done) | (simp +contextual (maxDischargeDepth := 40) [*]; done))
@[simp] theorem earlyClose_segs (s : State) (hs : SegmentsInv s) : SegmentsInv (earlyClose s) := by
  unfold earlyClose; (try dsimp only) <;> (try (repeat' split) <;> first | exact hs | (simp (maxDischargeDepth := 40) [*]; done) | (simp +contextual (maxDischargeDepth := 40) [*]; done))
@[simp] theorem countCycle_segs (s : State) (hs : SegmentsInv s) : SegmentsInv (countCycle s) := by
  unfold countCycle; (try dsimp only) <;> (try (repeat' split) <;> first | exact hs | (simp (maxDischargeDepth := 40) [*]; done) | (simp +contextual (maxDischargeDepth := 40) [*]; done))
@[simp] theorem startCycle_segs (s : State) (hs : SegmentsInv s) : SegmentsInv (startCycle s) := by
  unfold startCycle; (try dsimp only) <;> (try (repeat' split) <;> first | exact hs | (simp (maxDischargeDepth := 40) [*]; done) | (simp +contextual (maxDischargeDepth := 40) [*]; done))
@[simp] theorem cycEdge_segs (s : State) (hs : SegmentsInv s) : SegmentsInv (cycEdge s) := by
  unfold cycEdge; (try dsimp only) <;> (try (repeat' split) <;> first | exact hs | (simp (maxDischargeDepth := 40) [*]; done) | (simp +contextual (maxDischargeDepth := 40) [*]; done))
@[simp] theorem setSettle_segs (s : State) (hs : SegmentsInv s) : SegmentsInv (setSettle s) := by
  unfold setSettle; (try dsimp only) <;> (try (repeat' split) <;> first | exact hs | (simp (maxDischargeDepth := 40) [*]; done) | (simp +contextual (maxDischargeDepth := 40) [*]; done))
@[simp] theorem startSettle_segs (s : State) (hs : SegmentsInv s) : SegmentsInv (startSettle s) := by
  unfold startSettle; (try dsimp only) <;> (try (repeat' split) <;> first | exact hs | (simp (maxDischargeDepth := 40) [*]; done) | (simp +contextual (maxDischargeDepth := 40) [*]; done))
@[simp] theorem enterReturn_segs (s : State) (hs : SegmentsInv s) : SegmentsInv (enterReturn s) := by
  unfold enterReturn; (try dsimp only) <;> (try (repeat' split) <;> first | exact hs | (simp (maxDischargeDepth := 40) [*]; done) | (simp +contextual (maxDischargeDepth := 40) [*]; done))
@[simp] theorem flagDisordered_segs (s : State) (hs : SegmentsInv s) : SegmentsInv (flagDisordered s) := by
  unfold flagDisordered; (try dsimp only) <;> (try (repeat' split) <;> first | exact hs | (simp (maxDischargeDepth := 40) [*]; done) | (simp +contextual (maxDischargeDepth := 40) [*]; done))
@[simp] theorem disorderly_segs (s : State) (hs : SegmentsInv s) : SegmentsInv (disorderly s) := by
  unfold disorderly; (try dsimp only) <;> (try (repeat' split) <;> first | exact hs | (simp (maxDischargeDepth := 40) [*]; done) | (simp +contextual (maxDischargeDepth := 40) [*]; done))
@[simp] theorem goIdle_segs (s : State) (hs : SegmentsInv s) : SegmentsInv (goIdle s) := by
  unfold goIdle; (try dsimp only) <;> (try (repeat' split) <;> first | exact hs | (simp (maxDischargeDepth := 40) [*]; done) | (simp +contextual (maxDischargeDepth := 40) [*]; done))
@[simp] theorem idleIfExpired_segs (s : State) (hs : SegmentsInv s) : SegmentsInv (idleIfExpired s) := by
  unfold idleIfExpired; (try dsimp only) <;> (try (repeat' split) <;> first | exact hs | (simp (maxDischargeDepth := 40) [*]; done) | (simp +contextual (maxDischargeDepth := 40) [*]; done))
@[simp] theorem settleClose_segs (s : State) (hs : SegmentsInv s) : SegmentsInv (settleClose s) := by
  unfold settleClose; (try dsimp only) <;> (try (repeat' split) <;> first | exact hs | (simp (maxDischargeDepth := 40) [*]; done) | (simp +contextual (maxDischargeDepth := 40) [*]; done))
@[simp] theorem closeByTimer_segs (s : State) (hs : SegmentsInv s) : SegmentsInv (closeByTimer s) := by
  unfold closeByTimer; (try dsimp only) <;> (try (repeat' split) <;> first | exact hs | (simp (maxDischargeDepth := 40) [*]; done) | (simp +contextual (maxDischargeDepth := 40) [*]; done))
@[simp] theorem markExpired_segs (s : State) (hs : SegmentsInv s) : SegmentsInv (markExpired s) := by
  unfold markExpired; (try dsimp only) <;> (try (repeat' split) <;> first | exact hs | (simp (maxDischargeDepth := 40) [*]; done) | (simp +contextual (maxDischargeDepth := 40) [*]; done))
@[simp] theorem cycleExpired_segs (s : State) (hs : SegmentsInv s) : SegmentsInv (cycleExpired s) := by
  unfold cycleExpired; (try dsimp only) <;> (try (repeat' split) <;> first | exact hs | (simp (maxDischargeDepth := 40) [*]; done) | (simp +contextual (maxDischargeDepth := 40) [*]; done))
@[simp] theorem adoptFirst_segs (n : CycleNo) (s : State) (hs : SegmentsInv s) : SegmentsInv (adoptFirst n s) := by
  unfold adoptFirst; (try dsimp only) <;> (try (repeat' split) <;> first | exact hs | (simp (maxDischargeDepth := 40) [*]; done) | (simp +contextual (maxDischargeDepth := 40) [*]; done))
@[simp] theorem joinAdopt_segs (n : CycleNo) (s : State) (hs : SegmentsInv s) : SegmentsInv (joinAdopt n s) := by
  unfold joinAdopt; (try dsimp only) <;> (try (repeat' split) <;> first | exact hs | (simp (maxDischargeDepth := 40) [*]; done) | (simp +contextual (maxDischargeDepth := 40) [*]; done))
@[simp] theorem holdBack_segs (st : Station) (s : State) (hs : SegmentsInv s) : SegmentsInv (holdBack st s) := by
  unfold holdBack; (try dsimp only) <;> (try (repeat' split) <;> first | exact hs | (simp (maxDischargeDepth := 40) [*]; done) | (simp +contextual (maxDischargeDepth := 40) [*]; done))
@[simp] theorem setSilence_segs (st : Station) (s : State) (hs : SegmentsInv s) : SegmentsInv (setSilence st s) := by
  unfold setSilence; (try dsimp only) <;> (try (repeat' split) <;> first | exact hs | (simp (maxDischargeDepth := 40) [*]; done) | (simp +contextual (maxDischargeDepth := 40) [*]; done))
@[simp] theorem restartSilence_segs (st : Station) (s : State) (hs : SegmentsInv s) : SegmentsInv (restartSilence st s) := by
  unfold restartSilence; (try dsimp only) <;> (try (repeat' split) <;> first | exact hs | (simp (maxDischargeDepth := 40) [*]; done) | (simp +contextual (maxDischargeDepth := 40) [*]; done))
@[simp] theorem recordChanged_segs (st : Station) (old new : PeerState) (s : State) (hs : SegmentsInv s) : SegmentsInv (recordChanged st old new s) := by
  unfold recordChanged; (try dsimp only) <;> (try (repeat' split) <;> first | exact hs | (simp (maxDischargeDepth := 40) [*]; done) | (simp +contextual (maxDischargeDepth := 40) [*]; done))
@[simp] theorem storeTaken_segs (k : FrameKind) (st : Station) (f : RxFrame) (s : State) (hs : SegmentsInv s) : SegmentsInv (storeTaken k st f s) := by
  unfold storeTaken; (try dsimp only) <;> (try (repeat' split) <;> first | exact hs | (simp (maxDischargeDepth := 40) [*]; done) | (simp +contextual (maxDischargeDepth := 40) [*]; done))
@[simp] theorem enterRecord_segs (k : FrameKind) (st : Station) (f : RxFrame) (s : State) (hs : SegmentsInv s) : SegmentsInv (enterRecord k st f s) := by
  unfold enterRecord; (try dsimp only) <;> (try (repeat' split) <;> first | exact hs | (simp (maxDischargeDepth := 40) [*]; done) | (simp +contextual (maxDischargeDepth := 40) [*]; done))
@[simp] theorem takeRecord_segs (k : FrameKind) (st : Station) (f : RxFrame) (s : State) (hs : SegmentsInv s) : SegmentsInv (takeRecord k st f s) := by
  unfold takeRecord; (try dsimp only) <;> (try (repeat' split) <;> first | exact hs | (simp (maxDischargeDepth := 40) [*]; done) | (simp +contextual (maxDischargeDepth := 40) [*]; done))
@[simp] theorem rejectFrame_segs (l : Lane) (s : State) (hs : SegmentsInv s) : SegmentsInv (rejectFrame l s) := by
  unfold rejectFrame; (try dsimp only) <;> (try (repeat' split) <;> first | exact hs | (simp (maxDischargeDepth := 40) [*]; done) | (simp +contextual (maxDischargeDepth := 40) [*]; done))
@[simp] theorem countAccepted_segs (l : Lane) (k : FrameKind) (st : Station) (s : State) (hs : SegmentsInv s) : SegmentsInv (countAccepted l k st s) := by
  unfold countAccepted; (try dsimp only) <;> (try (repeat' split) <;> first | exact hs | (simp (maxDischargeDepth := 40) [*]; done) | (simp +contextual (maxDischargeDepth := 40) [*]; done))
@[simp] theorem beginHandling_segs (l : Lane) (f : RxFrame) (s : State) (hs : SegmentsInv s) : SegmentsInv (beginHandling l f s) := by
  unfold beginHandling; (try dsimp only) <;> (try (repeat' split) <;> first | exact hs | (simp (maxDischargeDepth := 40) [*]; done) | (simp +contextual (maxDischargeDepth := 40) [*]; done))
@[simp] theorem endHandling_segs (s : State) (hs : SegmentsInv s) : SegmentsInv (endHandling s) := by
  unfold endHandling; (try dsimp only) <;> (try (repeat' split) <;> first | exact hs | (simp (maxDischargeDepth := 40) [*]; done) | (simp +contextual (maxDischargeDepth := 40) [*]; done))
@[simp] theorem judgeCommand_segs (c : PortCommand) (inRange : Bool) (reply : List Byte) (s : State) (hs : SegmentsInv s) : SegmentsInv (judgeCommand c inRange reply s) := by
  unfold judgeCommand; (try dsimp only) <;> (try (repeat' split) <;> first | exact hs | (simp (maxDischargeDepth := 40) [*]; done) | (simp +contextual (maxDischargeDepth := 40) [*]; done))
@[simp] theorem loadFailed_segs (check index : Nat) (s : State) (hs : SegmentsInv s) : SegmentsInv (loadFailed check index s) := by
  unfold loadFailed; (try dsimp only) <;> (try (repeat' split) <;> first | exact hs | (simp (maxDischargeDepth := 40) [*]; done) | (simp +contextual (maxDischargeDepth := 40) [*]; done))
@[simp] theorem loadPassed_segs (b : List Byte) (s : State) (hs : SegmentsInv s) : SegmentsInv (loadPassed b s) := by
  unfold loadPassed; (try dsimp only) <;> (try (repeat' split) <;> first | exact hs | (simp (maxDischargeDepth := 40) [*]; done) | (simp +contextual (maxDischargeDepth := 40) [*]; done))
@[simp] theorem endCheck_segs (s : State) (hs : SegmentsInv s) : SegmentsInv (endCheck s) := by
  unfold endCheck; (try dsimp only) <;> (try (repeat' split) <;> first | exact hs | (simp (maxDischargeDepth := 40) [*]; done) | (simp +contextual (maxDischargeDepth := 40) [*]; done))
@[simp] theorem beginCheck_segs (b : List Byte) (s : State) (hs : SegmentsInv s) : SegmentsInv (beginCheck b s) := by
  unfold beginCheck; (try dsimp only) <;> (try (repeat' split) <;> first | exact hs | (simp (maxDischargeDepth := 40) [*]; done) | (simp +contextual (maxDischargeDepth := 40) [*]; done))
@[simp] theorem commandRestart_segs (s : State) (hs : SegmentsInv s) : SegmentsInv (commandRestart s) := by
  unfold commandRestart; (try dsimp only) <;> (try (repeat' split) <;> first | exact hs | (simp (maxDischargeDepth := 40) [*]; done) | (simp +contextual (maxDischargeDepth := 40) [*]; done))
@[simp] theorem removeNotice_segs (returned : Bool) (bytesOut : Nat) (s : State) (hs : SegmentsInv s) : SegmentsInv (removeNotice returned bytesOut s) := by
  unfold removeNotice; (try dsimp only) <;> (try (repeat' split) <;> first | exact hs | (simp (maxDischargeDepth := 40) [*]; done) | (simp +contextual (maxDischargeDepth := 40) [*]; done))
@[simp] theorem controlTaken_segs (c : Control) (ref : Nat) (s : State) (hs : SegmentsInv s) : SegmentsInv (controlTaken c ref s) := by
  unfold controlTaken; (try dsimp only) <;> (try (repeat' split) <;> first | exact hs | (simp (maxDischargeDepth := 40) [*]; done) | (simp +contextual (maxDischargeDepth := 40) [*]; done))
@[simp] theorem requestControl_segs (c : Control) (s : State) (hs : SegmentsInv s) : SegmentsInv (requestControl c s) := by
  unfold requestControl; (try dsimp only) <;> (try (repeat' split) <;> first | exact hs | (simp (maxDischargeDepth := 40) [*]; done) | (simp +contextual (maxDischargeDepth := 40) [*]; done))
@[simp] theorem clearRecord_segs (s : State) (hs : SegmentsInv s) : SegmentsInv (clearRecord s) := by
  unfold clearRecord; (try dsimp only) <;> (try (repeat' split) <;> first | exact hs | (simp (maxDischargeDepth := 40) [*]; done) | (simp +contextual (maxDischargeDepth := 40) [*]; done))
@[simp] theorem applyCommand_segs (c : PortCommand) (bytesOut : Nat) (s : State) (hs : SegmentsInv s) : SegmentsInv (applyCommand c bytesOut s) := by
  unfold applyCommand; (try dsimp only) <;> (try (repeat' split) <;> first | exact hs | (simp (maxDischargeDepth := 40) [*]; done) | (simp +contextual (maxDischargeDepth := 40) [*]; done))
@[simp] theorem lateCommand_segs (c : PortCommand) (s : State) (hs : SegmentsInv s) : SegmentsInv (lateCommand c s) := by
  unfold lateCommand; (try dsimp only) <;> (try (repeat' split) <;> first | exact hs | (simp (maxDischargeDepth := 40) [*]; done) | (simp +contextual (maxDischargeDepth := 40) [*]; done))
@[simp] theorem deselect_segs (bytesOut : Nat) (s : State) (hs : SegmentsInv s) : SegmentsInv (deselect bytesOut s) := by
  unfold deselect; (try dsimp only) <;> (try (repeat' split) <;> first | exact hs | (simp (maxDischargeDepth := 40) [*]; done) | (simp +contextual (maxDischargeDepth := 40) [*]; done))
@[simp] theorem takeEdge_segs (f : State → State) (s : State) (hf : ∀  t, SegmentsInv t → SegmentsInv (f t)) (hs : SegmentsInv s) : SegmentsInv (takeEdge f s) := by
  unfold takeEdge; (try dsimp only) <;> (try (repeat' split) <;> first | exact hs | (simp (maxDischargeDepth := 40) [*]; done) | (simp +contextual (maxDischargeDepth := 40) [*]; done))
@[simp] theorem filEdge_segs (s : State) (hs : SegmentsInv s) : SegmentsInv (filEdge s) := by
  unfold filEdge; (try dsimp only) <;> (try (repeat' split) <;> first | exact hs | (simp (maxDischargeDepth := 40) [*]; done) | (simp +contextual (maxDischargeDepth := 40) [*]; done))
@[simp] theorem firstShake_segs (s : State) (hs : SegmentsInv s) : SegmentsInv (firstShake s) := by
  unfold firstShake; (try dsimp only) <;> (try (repeat' split) <;> first | exact hs | (simp (maxDischargeDepth := 40) [*]; done) | (simp +contextual (maxDischargeDepth := 40) [*]; done))
@[simp] theorem vibEdge_segs (s : State) (hs : SegmentsInv s) : SegmentsInv (vibEdge s) := by
  unfold vibEdge; (try dsimp only) <;> (try (repeat' split) <;> first | exact hs | (simp (maxDischargeDepth := 40) [*]; done) | (simp +contextual (maxDischargeDepth := 40) [*]; done))
@[simp] theorem strEdge_segs (s : State) (hs : SegmentsInv s) : SegmentsInv (strEdge s) := by
  unfold strEdge; (try dsimp only) <;> (try (repeat' split) <;> first | exact hs | (simp (maxDischargeDepth := 40) [*]; done) | (simp +contextual (maxDischargeDepth := 40) [*]; done))
@[simp] theorem strFall_segs (s : State) (hs : SegmentsInv s) : SegmentsInv (strFall s) := by
  unfold strFall; (try dsimp only) <;> (try (repeat' split) <;> first | exact hs | (simp (maxDischargeDepth := 40) [*]; done) | (simp +contextual (maxDischargeDepth := 40) [*]; done))
@[simp] theorem keepCapture_segs (c : Channel) (s : State) (hs : SegmentsInv s) : SegmentsInv (keepCapture c s) := by
  unfold keepCapture; (try dsimp only) <;> (try (repeat' split) <;> first | exact hs | (simp (maxDischargeDepth := 40) [*]; done) | (simp +contextual (maxDischargeDepth := 40) [*]; done))
@[simp] theorem countDetected_segs (s : State) (hs : SegmentsInv s) : SegmentsInv (countDetected s) := by
  unfold countDetected; (try dsimp only) <;> (try (repeat' split) <;> first | exact hs | (simp (maxDischargeDepth := 40) [*]; done) | (simp +contextual (maxDischargeDepth := 40) [*]; done))
@[simp] theorem startHit_segs (c : Channel) (h : OpenHit) (s : State) (hs : SegmentsInv s) : SegmentsInv (startHit c h s) := by
  unfold startHit; (try dsimp only) <;> (try (repeat' split) <;> first | exact hs | (simp (maxDischargeDepth := 40) [*]; done) | (simp +contextual (maxDischargeDepth := 40) [*]; done))
@[simp] theorem appendOwnHit_segs (c : Channel) (h : OpenHit) (f : Features) (s : State) (hs : SegmentsInv s) : SegmentsInv (appendOwnHit c h f s) := by
  unfold appendOwnHit; (try dsimp only) <;> (try (repeat' split) <;> first | exact hs | (simp (maxDischargeDepth := 40) [*]; done) | (simp +contextual (maxDischargeDepth := 40) [*]; done))
@[simp] theorem completeHit_segs (c : Channel) (h : OpenHit) (f : Features) (s : State) (hs : SegmentsInv s) : SegmentsInv (completeHit c h f s) := by
  unfold completeHit; (try dsimp only) <;> (try (repeat' split) <;> first | exact hs | (simp (maxDischargeDepth := 40) [*]; done) | (simp +contextual (maxDischargeDepth := 40) [*]; done))
@[simp] theorem endHit_segs (c : Channel) (long : Bool) (h : OpenHit) (s : State) (hs : SegmentsInv s) : SegmentsInv (endHit c long h s) := by
  unfold endHit; (try dsimp only) <;> (try (repeat' split) <;> first | exact hs | (simp (maxDischargeDepth := 40) [*]; done) | (simp +contextual (maxDischargeDepth := 40) [*]; done))
@[simp] theorem hitSample_segs (c : Channel) (env : Nat) (h : OpenHit) (s : State) (hs : SegmentsInv s) : SegmentsInv (hitSample c env h s) := by
  unfold hitSample; (try dsimp only) <;> (try (repeat' split) <;> first | exact hs | (simp (maxDischargeDepth := 40) [*]; done) | (simp +contextual (maxDischargeDepth := 40) [*]; done))
@[simp] theorem quietSample_segs (c : Channel) (env : Nat) (s : State) (hs : SegmentsInv s) : SegmentsInv (quietSample c env s) := by
  unfold quietSample; (try dsimp only) <;> (try (repeat' split) <;> first | exact hs | (simp (maxDischargeDepth := 40) [*]; done) | (simp +contextual (maxDischargeDepth := 40) [*]; done))
@[simp] theorem sampleStep_segs (c : Channel) (env : Nat) (s : State) (hs : SegmentsInv s) : SegmentsInv (sampleStep c env s) := by
  unfold sampleStep; (try dsimp only) <;> (try (repeat' split) <;> first | exact hs | (simp (maxDischargeDepth := 40) [*]; done) | (simp +contextual (maxDischargeDepth := 40) [*]; done))
@[simp] theorem takeSample_segs (c : Channel) (value : Half) (s : State) (hs : SegmentsInv s) : SegmentsInv (takeSample c value s) := by
  unfold takeSample; (try dsimp only) <;> (try (repeat' split) <;> first | exact hs | (simp (maxDischargeDepth := 40) [*]; done) | (simp +contextual (maxDischargeDepth := 40) [*]; done))
@[simp] theorem endLockout_segs (c : Channel) (s : State) (hs : SegmentsInv s) : SegmentsInv (endLockout c s) := by
  unfold endLockout; (try dsimp only) <;> (try (repeat' split) <;> first | exact hs | (simp (maxDischargeDepth := 40) [*]; done) | (simp +contextual (maxDischargeDepth := 40) [*]; done))
@[simp] theorem tellLoss_segs (u : ChannelUnit) (s : State) (hs : SegmentsInv s) : SegmentsInv (tellLoss u s) := by
  unfold tellLoss; (try dsimp only) <;> (try (repeat' split) <;> first | exact hs | (simp (maxDischargeDepth := 40) [*]; done) | (simp +contextual (maxDischargeDepth := 40) [*]; done))
@[simp] theorem loseChannel_segs (c : Channel) (s : State) (hs : SegmentsInv s) : SegmentsInv (loseChannel c s) := by
  unfold loseChannel; (try dsimp only) <;> (try (repeat' split) <;> first | exact hs | (simp (maxDischargeDepth := 40) [*]; done) | (simp +contextual (maxDischargeDepth := 40) [*]; done))
@[simp] theorem afterLoss_segs (c : Channel) (u : ChannelUnit) (s : State) (hs : SegmentsInv s) : SegmentsInv (afterLoss c u s) := by
  unfold afterLoss; (try dsimp only) <;> (try (repeat' split) <;> first | exact hs | (simp (maxDischargeDepth := 40) [*]; done) | (simp +contextual (maxDischargeDepth := 40) [*]; done))
@[simp] theorem sampleLost_segs (c : Channel) (s : State) (hs : SegmentsInv s) : SegmentsInv (sampleLost c s) := by
  unfold sampleLost; (try dsimp only) <;> (try (repeat' split) <;> first | exact hs | (simp (maxDischargeDepth := 40) [*]; done) | (simp +contextual (maxDischargeDepth := 40) [*]; done))
@[simp] theorem recoverChannel_segs (c : Channel) (last : Tag) (s : State) (hs : SegmentsInv s) : SegmentsInv (recoverChannel c last s) := by
  unfold recoverChannel; (try dsimp only) <;> (try (repeat' split) <;> first | exact hs | (simp (maxDischargeDepth := 40) [*]; done) | (simp +contextual (maxDischargeDepth := 40) [*]; done))
@[simp] theorem afterRecovery_segs (c : Channel) (s : State) (hs : SegmentsInv s) : SegmentsInv (afterRecovery c s) := by
  unfold afterRecovery; (try dsimp only) <;> (try (repeat' split) <;> first | exact hs | (simp (maxDischargeDepth := 40) [*]; done) | (simp +contextual (maxDischargeDepth := 40) [*]; done))
@[simp] theorem sampleRecovered_segs (c : Channel) (last : Tag) (s : State) (hs : SegmentsInv s) : SegmentsInv (sampleRecovered c last s) := by
  unfold sampleRecovered; (try dsimp only) <;> (try (repeat' split) <;> first | exact hs | (simp (maxDischargeDepth := 40) [*]; done) | (simp +contextual (maxDischargeDepth := 40) [*]; done))
@[simp] theorem endPulseWidth_segs (c : Channel) (s : State) (hs : SegmentsInv s) : SegmentsInv (endPulseWidth c s) := by
  unfold endPulseWidth; (try dsimp only) <;> (try (repeat' split) <;> first | exact hs | (simp (maxDischargeDepth := 40) [*]; done) | (simp +contextual (maxDischargeDepth := 40) [*]; done))
@[simp] theorem endRecovery_segs (c : Channel) (s : State) (hs : SegmentsInv s) : SegmentsInv (endRecovery c s) := by
  unfold endRecovery; (try dsimp only) <;> (try (repeat' split) <;> first | exact hs | (simp (maxDischargeDepth := 40) [*]; done) | (simp +contextual (maxDischargeDepth := 40) [*]; done))
@[simp] theorem whileWaiting_segs (f : CurrentFrame → Tag → State → State) (s : State) (hf : ∀ a b t, SegmentsInv t → SegmentsInv (f a b t)) (hs : SegmentsInv s) : SegmentsInv (whileWaiting f s) := by
  unfold whileWaiting; (try dsimp only) <;> (try (repeat' split) <;> first | exact hs | (simp (maxDischargeDepth := 40) [*]; done) | (simp +contextual (maxDischargeDepth := 40) [*]; done))
@[simp] theorem whileTransmitting_segs (f : CurrentFrame → Tag → State → State) (s : State) (hf : ∀ a b t, SegmentsInv t → SegmentsInv (f a b t)) (hs : SegmentsInv s) : SegmentsInv (whileTransmitting f s) := by
  unfold whileTransmitting; (try dsimp only) <;> (try (repeat' split) <;> first | exact hs | (simp (maxDischargeDepth := 40) [*]; done) | (simp +contextual (maxDischargeDepth := 40) [*]; done))
@[simp] theorem takeGap_segs (lane : Lane) (c : CurrentFrame) (s : State) (hs : SegmentsInv s) : SegmentsInv (takeGap lane c s) := by
  unfold takeGap; (try dsimp only) <;> (try (repeat' split) <;> first | exact hs | (simp (maxDischargeDepth := 40) [*]; done) | (simp +contextual (maxDischargeDepth := 40) [*]; done))
@[simp] theorem starve_segs (c : CurrentFrame) (dueTag : Tag) (s : State) (hs : SegmentsInv s) : SegmentsInv (starve c dueTag s) := by
  unfold starve; (try dsimp only) <;> (try (repeat' split) <;> first | exact hs | (simp (maxDischargeDepth := 40) [*]; done) | (simp +contextual (maxDischargeDepth := 40) [*]; done))
@[simp] theorem closeExpired_segs (s : State) (hs : SegmentsInv s) : SegmentsInv (closeExpired s) := by
  unfold closeExpired; (try dsimp only) <;> (try (repeat' split) <;> first | exact hs | (simp (maxDischargeDepth := 40) [*]; done) | (simp +contextual (maxDischargeDepth := 40) [*]; done))
@[simp] theorem takeCloseExpiry_segs (s : State) (hs : SegmentsInv s) : SegmentsInv (takeCloseExpiry s) := by
  unfold takeCloseExpiry; (try dsimp only) <;> (try (repeat' split) <;> first | exact hs | (simp (maxDischargeDepth := 40) [*]; done) | (simp +contextual (maxDischargeDepth := 40) [*]; done))
@[simp] theorem takeSlot_segs (tag : Tag) (s : State) (hs : SegmentsInv s) : SegmentsInv (takeSlot tag s) := by
  unfold takeSlot; (try dsimp only) <;> (try (repeat' split) <;> first | exact hs | (simp (maxDischargeDepth := 40) [*]; done) | (simp +contextual (maxDischargeDepth := 40) [*]; done))
@[simp] theorem endWait_segs (s : State) (hs : SegmentsInv s) : SegmentsInv (endWait s) := by
  unfold endWait; (try dsimp only) <;> (try (repeat' split) <;> first | exact hs | (simp (maxDischargeDepth := 40) [*]; done) | (simp +contextual (maxDischargeDepth := 40) [*]; done))
@[simp] theorem fireChannel_segs (c : Channel) (s : State) (hs : SegmentsInv s) : SegmentsInv (fireChannel c s) := by
  unfold fireChannel; (try dsimp only) <;> (try (repeat' split) <;> first | exact hs | (simp (maxDischargeDepth := 40) [*]; done) | (simp +contextual (maxDischargeDepth := 40) [*]; done))
@[simp] theorem notFired_segs (s : State) (hs : SegmentsInv s) : SegmentsInv (notFired s) := by
  unfold notFired; (try dsimp only) <;> (try (repeat' split) <;> first | exact hs | (simp (maxDischargeDepth := 40) [*]; done) | (simp +contextual (maxDischargeDepth := 40) [*]; done))
@[simp] theorem takeFire_segs (s : State) (hs : SegmentsInv s) : SegmentsInv (takeFire s) := by
  unfold takeFire; (try dsimp only) <;> (try (repeat' split) <;> first | exact hs | (simp (maxDischargeDepth := 40) [*]; done) | (simp +contextual (maxDischargeDepth := 40) [*]; done))
@[simp] theorem beginJudging_segs (s : State) (hs : SegmentsInv s) : SegmentsInv (beginJudging s) := by
  unfold beginJudging; (try dsimp only) <;> (try (repeat' split) <;> first | exact hs | (simp (maxDischargeDepth := 40) [*]; done) | (simp +contextual (maxDischargeDepth := 40) [*]; done))
@[simp] theorem takeEndTag_segs (s : State) (hs : SegmentsInv s) : SegmentsInv (takeEndTag s) := by
  unfold takeEndTag; (try dsimp only) <;> (try (repeat' split) <;> first | exact hs | (simp (maxDischargeDepth := 40) [*]; done) | (simp +contextual (maxDischargeDepth := 40) [*]; done))
@[simp] theorem scrubStep_segs (s : State) (hs : SegmentsInv s) : SegmentsInv (scrubStep s) := by
  unfold scrubStep; (try dsimp only) <;> (try (repeat' split) <;> first | exact hs | (simp (maxDischargeDepth := 40) [*]; done) | (simp +contextual (maxDischargeDepth := 40) [*]; done))
@[simp] theorem beginFrameOn_segs (l : Lane) (s : State) (hs : SegmentsInv s) : SegmentsInv (beginFrameOn l s) := by
  unfold beginFrameOn; (try dsimp only) <;> (try (repeat' split) <;> first | exact hs | (simp (maxDischargeDepth := 40) [*]; done) | (simp +contextual (maxDischargeDepth := 40) [*]; done))
@[simp] theorem goMissing_segs (st : Station) (s : State) (hs : SegmentsInv s) : SegmentsInv (goMissing st s) := by
  unfold goMissing; (try dsimp only) <;> (try (repeat' split) <;> first | exact hs | (simp (maxDischargeDepth := 40) [*]; done) | (simp +contextual (maxDischargeDepth := 40) [*]; done))
@[simp] theorem askPresence_segs (s : State) (hs : SegmentsInv s) : SegmentsInv (askPresence s) := by
  unfold askPresence; (try dsimp only) <;> (try (repeat' split) <;> first | exact hs | (simp (maxDischargeDepth := 40) [*]; done) | (simp +contextual (maxDischargeDepth := 40) [*]; done))
@[simp] theorem judgeReadSegment_segs (n : Nat) (s : State) (hs : SegmentsInv s) : SegmentsInv (judgeReadSegment n s) := by
  unfold judgeReadSegment; (try dsimp only) <;> (try (repeat' split) <;> first | exact hs | (simp (maxDischargeDepth := 40) [*]; done) | (simp +contextual (maxDischargeDepth := 40) [*]; done))
@[simp] theorem readSegmentStep_segs (n : Nat) (s : State) (hs : SegmentsInv s) : SegmentsInv (readSegmentStep n s) := by
  unfold readSegmentStep; (try dsimp only) <;> (try (repeat' split) <;> first | exact hs | (simp (maxDischargeDepth := 40) [*]; done) | (simp +contextual (maxDischargeDepth := 40) [*]; done))
@[simp] theorem judgeControl_segs (kind group value mask : Byte) (s : State) (hs : SegmentsInv s) : SegmentsInv (judgeControl kind group value mask s) := by
  unfold judgeControl; (try dsimp only) <;> (try (repeat' split) <;> first | exact hs | (simp (maxDischargeDepth := 40) [*]; done) | (simp +contextual (maxDischargeDepth := 40) [*]; done))
@[simp] theorem segmentControlStep_segs (kind group value mask : Byte) (s : State) (hs : SegmentsInv s) : SegmentsInv (segmentControlStep kind group value mask s) := by
  unfold segmentControlStep; (try dsimp only) <;> (try (repeat' split) <;> first | exact hs | (simp (maxDischargeDepth := 40) [*]; done) | (simp +contextual (maxDischargeDepth := 40) [*]; done))
@[simp] theorem powerOnValues_segs (held : Bool) (s : State) (_hs : SegmentsInv s) : SegmentsInv (powerOnValues held s) := reset_segs
@[simp] theorem withPort_block (s : State) (v) : (s.withPort v).block = v.config.getD [] := rfl
@[simp] theorem withNow_block (s : State) (v) : (s.withNow v).block = s.block := rfl
@[simp] theorem withClock_block (s : State) (v) : (s.withClock v).block = s.block := rfl
@[simp] theorem withTracker_block (s : State) (v) : (s.withTracker v).block = s.block := rfl
@[simp] theorem withChannels_block (s : State) (v) : (s.withChannels v).block = s.block := rfl
@[simp] theorem withLink_block (s : State) (v) : (s.withLink v).block = s.block := rfl
@[simp] theorem withMember_block (s : State) (v) : (s.withMember v).block = s.block := rfl
@[simp] theorem withCoin_block (s : State) (v) : (s.withCoin v).block = s.block := rfl
@[simp] theorem withEvid_block (s : State) (v) : (s.withEvid v).block = s.block := rfl
@[simp] theorem withAgree_block (s : State) (v) : (s.withAgree v).block = s.block := rfl
@[simp] theorem withCoup_block (s : State) (v) : (s.withCoup v).block = s.block := rfl
@[simp] theorem withFault_block (s : State) (v) : (s.withFault v).block = s.block := rfl
@[simp] theorem withFreeCount_block (s : State) (v) : (s.withFreeCount v).block = s.block := rfl
@[simp] theorem withPending_block (s : State) (v) : (s.withPending v).block = s.block := rfl
@[simp] theorem setUnit_block (s : State) (c v) : (s.setUnit c v).block = s.block := rfl
@[simp] theorem setLane_block (s : State) (l v) : (s.setLane l v).block = s.block := rfl
@[simp] theorem setPeer_block (s : State) (st v) : (s.setPeer st v).block = s.block := rfl
@[simp] theorem rewrite_block (p : StoreWord → Bool) (s : State) : (rewrite p s).block = s.block := by
  unfold rewrite; (try dsimp only) <;> (try (repeat' split) <;> first | rfl | simp [*])
@[simp] theorem arrive_block (m : Moment) (s : State) : (arrive m s).block = s.block := by
  unfold arrive; (try dsimp only) <;> (try (repeat' split) <;> first | rfl | simp [*])
@[simp] theorem raise_block (n : Notice) (s : State) : (raise n s).block = s.block := by
  unfold raise; (try dsimp only) <;> (try (repeat' split) <;> first | rfl | simp [*])
@[simp] theorem raiseNow_block (subject : Nat) (d : NoticeDetail) (s : State) : (raiseNow subject d s).block = s.block := by
  unfold raiseNow; (try dsimp only) <;> (try (repeat' split) <;> first | rfl | simp [*])
@[simp] theorem beginFrame_block (ref : Option Nat) (kind : FrameKind) (payload : List Byte) (s : State) : (beginFrame ref kind payload s).block = s.block := by
  unfold beginFrame; (try dsimp only) <;> (try (repeat' split) <;> first | rfl | simp [*])
@[simp] theorem selectEntry_block (c : Candidate) (s : State) : (selectEntry c s).block = s.block := by
  unfold selectEntry; (try dsimp only) <;> (try (repeat' split) <;> first | rfl | simp [*])
@[simp] theorem selectFrame_block (s : State) : (selectFrame s).block = s.block := by
  unfold selectFrame; (try dsimp only) <;> (try (repeat' split) <;> first | rfl | simp [*])
@[simp] theorem enqueue_block (kind : FrameKind) (payload : List Byte) (s : State) : (enqueue kind payload s).block = s.block := by
  unfold enqueue; (try dsimp only) <;> (try (repeat' split) <;> first | rfl | simp [*])
@[simp] theorem requestUnchecked_block (kind : FrameKind) (payload : List Byte) (s : State) : (requestUnchecked kind payload s).block = s.block := by
  unfold requestUnchecked; (try dsimp only) <;> (try (repeat' split) <;> first | rfl | simp [*])
@[simp] theorem stopStation_block (kind : FaultKind) (w : StoreWord) (s : State) : (stopStation kind w s).block = s.block := by
  unfold stopStation; (try dsimp only) <;> (try (repeat' split) <;> first | rfl | simp [*])
@[simp] theorem freeze_block (kind : FaultKind) (w : StoreWord) (s : State) : (freeze kind w s).block = s.block := by
  unfold freeze; (try dsimp only) <;> (try (repeat' split) <;> first | rfl | simp [*])
@[simp] theorem resetBlocks_block (why : RestartCause) (s : State) : (resetBlocks why s).block = s.block := by
  unfold resetBlocks; (try dsimp only) <;> (try (repeat' split) <;> first | rfl | simp [*])
@[simp] theorem startBlocks_block (s : State) : (startBlocks s).block = s.block := by
  unfold startBlocks; (try dsimp only) <;> (try (repeat' split) <;> first | rfl | simp [*])
@[simp] theorem enterJoining_block (s : State) : (enterJoining s).block = s.block := by
  unfold enterJoining; (try dsimp only) <;> (try (repeat' split) <;> first | rfl | simp [*])
@[simp] theorem selfRestart_block (why : RestartCause) (s : State) : (selfRestart why s).block = s.block := by
  unfold selfRestart; (try dsimp only) <;> (try (repeat' split) <;> first | rfl | simp [*])
@[simp] theorem secondFault_block (s : State) : (secondFault s).block = s.block := by
  unfold secondFault; (try dsimp only) <;> (try (repeat' split) <;> first | rfl | simp [*])
@[simp] theorem lookAgain_block (s t : State) : (lookAgain s t).block = t.block := by
  unfold lookAgain
  split
  · exact secondFault_block _
  · rfl
@[simp] theorem readFault_block (kind : FaultKind) (w : StoreWord) (s : State) : (readFault kind w s).block = s.block := by
  unfold readFault; (try dsimp only) <;> (try (repeat' split) <;> first | rfl | simp [*])
@[simp] theorem readingConfig_block (offsets : List Nat) (stop f : State → State) (s : State) (hstop : ∀ t, (stop t).block = t.block) (hf : ∀ t, (f t).block = t.block) : (readingConfig offsets stop f s).block = s.block := by
  unfold readingConfig; (try dsimp only) <;> (try (repeat' split) <;> first | rfl | simp [*])
@[simp] theorem usingConfig_block (offsets : List Nat) (f : State → State) (s : State) (hf : ∀ t, (f t).block = t.block) : (usingConfig offsets f s).block = s.block := by
  unfold usingConfig; (try dsimp only) <;> (try (repeat' split) <;> first | rfl | simp [*])
@[simp] theorem emptyApplied_block (s : State) : (emptyApplied s).block = s.block := by
  unfold emptyApplied; (try dsimp only) <;> (try (repeat' split) <;> first | rfl | simp [*])
@[simp] theorem abandonTransfer_block (cause : AbandonCause) (s : State) : (abandonTransfer cause s).block = s.block := by
  unfold abandonTransfer; (try dsimp only) <;> (try (repeat' split) <;> first | rfl | simp [*])
@[simp] theorem donorGone_block (st : Station) (s : State) : (donorGone st s).block = s.block := by
  unfold donorGone; (try dsimp only) <;> (try (repeat' split) <;> first | rfl | simp [*])
@[simp] theorem beginCycle_block (s : State) : (beginCycle s).block = s.block := by
  unfold beginCycle; (try dsimp only) <;> (try (repeat' split) <;> first | rfl | simp [*])
@[simp] theorem adoptFirst_block (n : CycleNo) (s : State) : (adoptFirst n s).block = s.block := by
  unfold adoptFirst; (try dsimp only) <;> (try (repeat' split) <;> first | rfl | simp [*])
@[simp] theorem joinAdopt_block (n : CycleNo) (s : State) : (joinAdopt n s).block = s.block := by
  unfold joinAdopt; (try dsimp only) <;> (try (repeat' split) <;> first | rfl | simp [*])
@[simp] theorem holdBack_block (st : Station) (s : State) : (holdBack st s).block = s.block := by
  unfold holdBack; (try dsimp only) <;> (try (repeat' split) <;> first | rfl | simp [*])
@[simp] theorem setSilence_block (st : Station) (s : State) : (setSilence st s).block = s.block := by
  unfold setSilence; (try dsimp only) <;> (try (repeat' split) <;> first | rfl | simp [*])
@[simp] theorem restartSilence_block (st : Station) (s : State) : (restartSilence st s).block = s.block := by
  unfold restartSilence; (try dsimp only) <;> (try (repeat' split) <;> first | rfl | simp [*])
@[simp] theorem recordChanged_block (st : Station) (old new : PeerState) (s : State) : (recordChanged st old new s).block = s.block := by
  unfold recordChanged; (try dsimp only) <;> (try (repeat' split) <;> first | rfl | simp [*])
@[simp] theorem storeTaken_block (k : FrameKind) (st : Station) (f : RxFrame) (s : State) : (storeTaken k st f s).block = s.block := by
  unfold storeTaken; (try dsimp only) <;> (try (repeat' split) <;> first | rfl | simp [*])
@[simp] theorem enterRecord_block (k : FrameKind) (st : Station) (f : RxFrame) (s : State) : (enterRecord k st f s).block = s.block := by
  unfold enterRecord; (try dsimp only) <;> (try (repeat' split) <;> first | rfl | simp [*])
@[simp] theorem takeRecord_block (k : FrameKind) (st : Station) (f : RxFrame) (s : State) : (takeRecord k st f s).block = s.block := by
  unfold takeRecord; (try dsimp only) <;> (try (repeat' split) <;> first | rfl | simp [*])
@[simp] theorem countAccepted_block (l : Lane) (k : FrameKind) (st : Station) (s : State) : (countAccepted l k st s).block = s.block := by
  unfold countAccepted; (try dsimp only) <;> (try (repeat' split) <;> first | rfl | simp [*])
@[simp] theorem beginHandling_block (l : Lane) (f : RxFrame) (s : State) : (beginHandling l f s).block = s.block := by
  unfold beginHandling; (try dsimp only) <;> (try (repeat' split) <;> first | rfl | simp [*])
theorem replaceTable_segs (records : List SegmentRecord) (age : Nat) (s : State) (hs : SegmentsInv s) (hr : ∀ r ∈ records, RecordOk r) :
    SegmentsInv (replaceTable records age s) :=
  rewrite_segs _ _ (raiseChanges_segs _ _ _ _ _ (withEvid_segs hs _ hr))

theorem completeTransfer_segs (donor : Station) (row : RowFrame) (buffer : List SegmentRecord) (s : State) (hs : SegmentsInv s)
    (hb : ∀ r ∈ buffer, RecordOk r) : SegmentsInv (completeTransfer donor row buffer s) := by
  unfold completeTransfer
  split
  · exact abandonTransfer_segs _ _ hs
  · apply unlessFrozen_segs
    · intro t ht
      exact unlessFrozen_segs _ _ (fun t ht => endTransfer_segs _ _ ht) (setStanding_segs _ _ ht)
    · exact reapplyControls_segs _ _ (replaceTable_segs _ _ _ hs hb)

theorem takeRow_segs (donor : Station) (cycle : Option CycleNo) (digest : BitVec 32) (nextFirst : Nat) (buffer : List SegmentRecord)
    (row : RowFrame) (s : State) (hs : SegmentsInv s) (hb : ∀ r ∈ buffer, RecordOk r) (hr : ∀ r ∈ row.records, RecordOk r) :
    SegmentsInv (takeRow donor cycle digest nextFirst buffer row s) := by
  have hall : ∀ r ∈ buffer ++ row.records, RecordOk r := fun r h => (List.mem_append.mp h).elim (hb r) (hr r)
  unfold takeRow
  split
  · dsimp only
    split
    · exact completeTransfer_segs _ _ _ _ (setTransfer_segs _ _ hs (by simpa using hall)) hall
    · exact setTransfer_segs _ _ hs (by simpa using hall)
  · exact abandonTransfer_segs _ _ hs

theorem readingConfig_at_segs {offsets : List Nat} {stop f : State → State} {s : State} (hs : SegmentsInv (stop s)) (h : SegmentsInv (f s)) :
    SegmentsInv (readingConfig offsets stop f s) := by
  unfold readingConfig
  split
  · split
    · exact readFault_segs _ _ _ hs
    · exact h
  · exact h

theorem rowFrame_segs (sender : Station) (own : Bool) (p : List Byte) (s : State) (hs : SegmentsInv s)
    (hr : ∀ r ∈ (rowOf (Block.histLen s.block) p).records, RecordOk r) : SegmentsInv (rowFrame sender own p s) := by
  unfold rowFrame
  split
  · exact hs
  · split
    · rename_i donor cycle digest nextFirst lastRow buffer ht
      have hb : ∀ r ∈ buffer, RecordOk r := hs.2 _ _ _ _ _ _ ht
      dsimp only
      split
      · exact ignoreRow_segs _ hs
      · split
        · exact ignoreRow_segs _ hs
        · split
          · exact ignoreRow_segs _ hs
          · exact readingConfig_at_segs hs (takeRow_segs _ _ _ _ _ _ _ hs hb hr)
    · exact ignoreRow_segs _ hs

theorem handToBlocks_segs (k : FrameKind) (st : Station) (f : RxFrame) (s : State) (hs : SegmentsInv s)
    (hr : k = .row → ∀ r ∈ (rowOf (Block.histLen s.block) f.payload).records, RecordOk r) : SegmentsInv (handToBlocks k st f s) := by
  unfold handToBlocks
  cases k with
  | row =>
    dsimp only
    split
    · exact rowFrame_segs _ _ _ _ hs (hr rfl)
    · exact hs
  | _ => simp [hs]

theorem handOn_segs (k : FrameKind) (st : Station) (f : RxFrame) (s : State) (hs : SegmentsInv s)
    (hr : k = .row → ∀ r ∈ (rowOf (Block.histLen s.block) f.payload).records, RecordOk r) : SegmentsInv (handOn k st f s) := by
  unfold handOn
  split
  · exact holdBack_segs _ _ hs
  · exact handToBlocks_segs _ _ _ _ hs hr

theorem joinAndHandOn_segs (k : FrameKind) (st : Station) (f : RxFrame) (s : State) (hs : SegmentsInv s)
    (hr : k = .row → ∀ r ∈ (rowOf (Block.histLen s.block) f.payload).records, RecordOk r) : SegmentsInv (joinAndHandOn k st f s) := by
  unfold joinAndHandOn
  split
  · unfold State.unlessFrozen
    split
    · exact joinAdopt_segs _ _ hs
    · exact handOn_segs _ _ _ _ (joinAdopt_segs _ _ hs) (by rw [joinAdopt_block]; exact hr)
  · exact handOn_segs _ _ _ _ hs hr

theorem memberFrame_segs (k : FrameKind) (st : Station) (f : RxFrame) (s : State) (hs : SegmentsInv s)
    (hr : k = .row → ∀ r ∈ (rowOf (Block.histLen s.block) f.payload).records, RecordOk r) : SegmentsInv (memberFrame k st f s) := by
  unfold memberFrame
  split
  · exact holdBack_segs _ _ hs
  · unfold State.unlessFrozen
    split
    · exact takeRecord_segs _ _ _ _ hs
    · exact joinAndHandOn_segs _ _ _ _ (takeRecord_segs _ _ _ _ hs) (by rw [takeRecord_block]; exact hr)

/-- The records that a held ROW frame would bring. -/
def RowRecordsOk (f : RxFrame) (s : State) : Prop :=
  frameKindOf f.kindByte = some .row → ∀ r ∈ (rowOf (Block.histLen s.block) f.payload).records, RecordOk r

theorem acceptFrame_segs (l : Lane) (f : RxFrame) (s : State) (hs : SegmentsInv s) (hr : RowRecordsOk f s) :
    SegmentsInv (acceptFrame l f s) := by
  unfold acceptFrame
  split
  · exact rejectFrame_segs _ _ hs
  · rename_i k st h
    split
    · exact raiseNow_segs _ _ _ hs
    · refine memberFrame_segs _ _ _ _ (countAccepted_segs _ _ _ _ hs) fun hk => ?_
      rw [countAccepted_block]
      apply hr
      unfold acceptance at h
      split at h
      · rename_i k' st' hk' _
        split at h
        · cases h
          rw [hk', hk]
        · cases h
      · cases h

theorem handleFrame_segs (l : Lane) (f : RxFrame) (s : State) (hs : SegmentsInv s) (hr : RowRecordsOk f s) :
    SegmentsInv (handleFrame l f s) := by
  unfold handleFrame
  split
  · exact hs
  · unfold handOut
    refine endHandling_segs _ (readingConfig_at_segs (beginHandling_segs _ _ _ hs) (acceptFrame_segs _ _ _ (beginHandling_segs _ _ _ hs) ?_))
    unfold RowRecordsOk
    rw [beginHandling_block]
    exact hr

end Sys2Proof.Machine
end

