-- ==== Sys2Proof/Laws/Track.lean ====
section
/-! SUPPORT. Every operation keeps the tracker's relations (`TrackerInv`): one lemma for each operation that leaves the tracker alone or
resets it, then one for each that writes it. -/

namespace Sys2Proof.Machine

/-- The tracker's relations: those of `TrackerOk`, and, for `false`, those that a close leaves for the rest of its command: no
cycle open, the settle timer stopped, and the cycle timer stopped exactly in IDLE. -/
def TrackerKind (b : Bool) (t : Tracker) : Prop :=
  match b with
  | true => TrackerOk t
  | false => t.isOpen = false ∧ t.settle = none ∧ (t.cycleTimer = .stopped ↔ t.phase = .idle)
/-- No check of a LOAD runs, and the tracker's relations hold unless the station is FROZEN. -/
def TrackerQuiet (b : Bool) (s : State) : Prop :=
  s.port.checking = false ∧ (s.member.station = .frozen ∨ TrackerKind b s.tracker)
theorem trackerKind_ok {t : Tracker} : TrackerKind true t ↔ TrackerOk t := ⟨id, id⟩
theorem TrackerQuiet.inv {s : State} (h : TrackerQuiet true s) : TrackerInv s := by
  refine ⟨fun hc => ?_, h.2.imp id trackerKind_ok.1⟩
  rw [h.1] at hc; exact Bool.noConfusion hc
theorem TrackerInv.quiet {s : State} (h : TrackerInv s) (hs : s.member.station ≠ .unconfigured) : TrackerQuiet true s := by
  refine ⟨?_, h.2.imp id trackerKind_ok.2⟩
  cases hc : s.port.checking with
  | false => rfl
  | true => exact absurd (h.1 hc) hs
variable {b : Bool}
@[simp] theorem foldl_track {α : Type} (f : State → α → State) (h : ∀ t a, TrackerQuiet b t → TrackerQuiet b (f t a)) (l : List α) (s : State) (hs : TrackerQuiet b s) : TrackerQuiet b (l.foldl f s) := by
  induction l generalizing s with
  | nil => exact hs
  | cons a l ih => exact ih _ (h _ _ hs)
@[simp] theorem kind_stray (b : Bool) (t : Tracker) (n : Nat) : TrackerKind b { t with stray := n } ↔ TrackerKind b t := by
  cases b <;> exact ⟨id, id⟩
@[simp] theorem kind_reset (b : Bool) : TrackerKind b Tracker.reset := by
  cases b
  · exact ⟨rfl, rfl, fun _ => rfl, fun _ => rfl⟩
  · exact ⟨fun h => Bool.noConfusion h, ⟨fun h => Bool.noConfusion h, fun h => Bool.noConfusion h.1⟩, fun h => CycleTimer.noConfusion h, ⟨fun _ => rfl, fun _ => rfl⟩⟩
@[simp] theorem kind_adopt {b : Bool} (m : CycleNo) (t : Tracker) (h : TrackerKind b t) : TrackerKind b (adoptCycle m t) := by
  unfold adoptCycle
  split
  · cases b
    · exact h
    · exact ⟨fun ho => ⟨rfl, (h.1 ho).2⟩, h.2⟩
  · exact h
@[simp] theorem withTracker_track {b : Bool} (s : State) (v) (hs : TrackerQuiet b s) (h : TrackerKind b s.tracker → TrackerKind b v) : TrackerQuiet b (s.withTracker v) := ⟨hs.1, hs.2.imp id h⟩
@[simp] theorem withMember_track {b : Bool} (s : State) (v) (hs : TrackerQuiet b s) (h : v.station = s.member.station) : TrackerQuiet b (s.withMember v) := ⟨hs.1, hs.2.imp h.trans id⟩
@[simp] theorem withPort_track {b : Bool} (s : State) (v) (hs : TrackerQuiet b s) (h : v.checking = s.port.checking) : TrackerQuiet b (s.withPort v) := ⟨h.trans hs.1, hs.2⟩
@[simp] theorem mk_track (b : Bool) (n r t ch lk mb co ev ag cu fa po x y) : TrackerQuiet b (State.mk n r t ch lk mb co ev ag cu fa po x y) ↔ po.checking = false ∧ (mb.station = .frozen ∨ TrackerKind b t) := ⟨id, id⟩
@[simp] theorem setPeer_track (b : Bool) (s : State) (c v) : TrackerQuiet b (s.setPeer c v) ↔ TrackerQuiet b s := ⟨id, id⟩
@[simp] theorem setUnit_track (b : Bool) (s : State) (c v) : TrackerQuiet b (s.setUnit c v) ↔ TrackerQuiet b s := ⟨id, id⟩
@[simp] theorem setLane_track (b : Bool) (s : State) (c v) : TrackerQuiet b (s.setLane c v) ↔ TrackerQuiet b s := ⟨id, id⟩
@[simp] theorem withNow_track (b : Bool) (s : State) (v) : TrackerQuiet b (s.withNow v) ↔ TrackerQuiet b s := ⟨id, id⟩
@[simp] theorem withClock_track (b : Bool) (s : State) (v) : TrackerQuiet b (s.withClock v) ↔ TrackerQuiet b s := ⟨id, id⟩
@[simp] theorem withChannels_track (b : Bool) (s : State) (v) : TrackerQuiet b (s.withChannels v) ↔ TrackerQuiet b s := ⟨id, id⟩
@[simp] theorem withLink_track (b : Bool) (s : State) (v) : TrackerQuiet b (s.withLink v) ↔ TrackerQuiet b s := ⟨id, id⟩
@[simp] theorem withCoin_track (b : Bool) (s : State) (v) : TrackerQuiet b (s.withCoin v) ↔ TrackerQuiet b s := ⟨id, id⟩
@[simp] theorem withEvid_track (b : Bool) (s : State) (v) : TrackerQuiet b (s.withEvid v) ↔ TrackerQuiet b s := ⟨id, id⟩
@[simp] theorem withAgree_track (b : Bool) (s : State) (v) : TrackerQuiet b (s.withAgree v) ↔ TrackerQuiet b s := ⟨id, id⟩
@[simp] theorem withCoup_track (b : Bool) (s : State) (v) : TrackerQuiet b (s.withCoup v) ↔ TrackerQuiet b s := ⟨id, id⟩
@[simp] theorem withFault_track (b : Bool) (s : State) (v) : TrackerQuiet b (s.withFault v) ↔ TrackerQuiet b s := ⟨id, id⟩
@[simp] theorem withFreeCount_track (b : Bool) (s : State) (v) : TrackerQuiet b (s.withFreeCount v) ↔ TrackerQuiet b s := ⟨id, id⟩
@[simp] theorem withPending_track (b : Bool) (s : State) (v) : TrackerQuiet b (s.withPending v) ↔ TrackerQuiet b s := ⟨id, id⟩

@[simp] theorem unlessFrozen_track (s : State) (f : State → State) (hf : ∀  t, TrackerQuiet b t → TrackerQuiet b (f t)) (hs : TrackerQuiet b s) : TrackerQuiet b (State.unlessFrozen s f) := by
  unfold State.unlessFrozen; (try dsimp only) <;> (try (repeat' split) <;> first | exact hs | (simp (maxDischargeDepth := 40) [*]; done) | (simp +contextual (maxDischargeDepth := 40) [*]; done))
@[simp] theorem rewrite_track (p : StoreWord → Bool) (s : State) (hs : TrackerQuiet b s) : TrackerQuiet b (rewrite p s) := by
  unfold rewrite; (try dsimp only) <;> (try (repeat' split) <;> first | exact hs | (simp (maxDischargeDepth := 40) [*]; done) | (simp +contextual (maxDischargeDepth := 40) [*]; done))
@[simp] theorem arrive_track (m : Moment) (s : State) (hs : TrackerQuiet b s) : TrackerQuiet b (arrive m s) := by
  unfold arrive; (try dsimp only) <;> (try (repeat' split) <;> first | exact hs | (simp (maxDischargeDepth := 40) [*]; done) | (simp +contextual (maxDischargeDepth := 40) [*]; done))
@[simp] theorem raise_track (n : Notice) (s : State) (hs : TrackerQuiet b s) : TrackerQuiet b (raise n s) := by
  unfold raise; (try dsimp only) <;> (try (repeat' split) <;> first | exact hs | (simp (maxDischargeDepth := 40) [*]; done) | (simp +contextual (maxDischargeDepth := 40) [*]; done))
@[simp] theorem raiseNow_track (subject : Nat) (d : NoticeDetail) (s : State) (hs : TrackerQuiet b s) : TrackerQuiet b (raiseNow subject d s) := by
  unfold raiseNow; (try dsimp only) <;> (try (repeat' split) <;> first | exact hs | (simp (maxDischargeDepth := 40) [*]; done) | (simp +contextual (maxDischargeDepth := 40) [*]; done))
@[simp] theorem offerStacked_track (s : State) (hs : TrackerQuiet b s) : TrackerQuiet b (offerStacked s) := by
  unfold offerStacked; (try dsimp only) <;> (try (repeat' split) <;> first | exact hs | (simp (maxDischargeDepth := 40) [*]; done) | (simp +contextual (maxDischargeDepth := 40) [*]; done))
@[simp] theorem beginFrame_track (ref : Option Nat) (kind : FrameKind) (payload : List Byte) (s : State) (hs : TrackerQuiet b s) : TrackerQuiet b (beginFrame ref kind payload s) := by
  unfold beginFrame; (try dsimp only) <;> (try (repeat' split) <;> first | exact hs | (simp (maxDischargeDepth := 40) [*]; done) | (simp +contextual (maxDischargeDepth := 40) [*]; done))
@[simp] theorem selectEntry_track (c : Candidate) (s : State) (hs : TrackerQuiet b s) : TrackerQuiet b (selectEntry c s) := by
  unfold selectEntry; (try dsimp only) <;> (try (repeat' split) <;> first | exact hs | (simp (maxDischargeDepth := 40) [*]; done) | (simp +contextual (maxDischargeDepth := 40) [*]; done))
@[simp] theorem selectFrame_track (s : State) (hs : TrackerQuiet b s) : TrackerQuiet b (selectFrame s) := by
  unfold selectFrame; (try dsimp only) <;> (try (repeat' split) <;> first | exact hs | (simp (maxDischargeDepth := 40) [*]; done) | (simp +contextual (maxDischargeDepth := 40) [*]; done))
@[simp] theorem enqueue_track (kind : FrameKind) (payload : List Byte) (s : State) (hs : TrackerQuiet b s) : TrackerQuiet b (enqueue kind payload s) := by
  unfold enqueue; (try dsimp only) <;> (try (repeat' split) <;> first | exact hs | (simp (maxDischargeDepth := 40) [*]; done) | (simp +contextual (maxDischargeDepth := 40) [*]; done))
@[simp] theorem requestUnchecked_track (kind : FrameKind) (payload : List Byte) (s : State) (hs : TrackerQuiet b s) : TrackerQuiet b (requestUnchecked kind payload s) := by
  unfold requestUnchecked; (try dsimp only) <;> (try (repeat' split) <;> first | exact hs | (simp (maxDischargeDepth := 40) [*]; done) | (simp +contextual (maxDischargeDepth := 40) [*]; done))
@[simp] theorem withdraw_track (ref : Nat) (s : State) (hs : TrackerQuiet b s) : TrackerQuiet b (withdraw ref s) := by
  unfold withdraw; (try dsimp only) <;> (try (repeat' split) <;> first | exact hs | (simp (maxDischargeDepth := 40) [*]; done) | (simp +contextual (maxDischargeDepth := 40) [*]; done))
@[simp] theorem removeHit_track (id : HitId) (s : State) (hs : TrackerQuiet b s) : TrackerQuiet b (removeHit id s) := by
  unfold removeHit; (try dsimp only) <;> (try (repeat' split) <;> first | exact hs | (simp (maxDischargeDepth := 40) [*]; done) | (simp +contextual (maxDischargeDepth := 40) [*]; done))
@[simp] theorem settleCapture_track (c : Channel) (arrival : Tag) (new : Capture) (s : State) (hs : TrackerQuiet b s) : TrackerQuiet b (settleCapture c arrival new s) := by
  unfold settleCapture; (try dsimp only) <;> (try (repeat' split) <;> first | exact hs | (simp (maxDischargeDepth := 40) [*]; done) | (simp +contextual (maxDischargeDepth := 40) [*]; done))
@[simp] theorem offerPolicy_track (s : State) (hs : TrackerQuiet b s) : TrackerQuiet b (offerPolicy s) := by
  unfold offerPolicy; (try dsimp only) <;> (try (repeat' split) <;> first | exact hs | (simp (maxDischargeDepth := 40) [*]; done) | (simp +contextual (maxDischargeDepth := 40) [*]; done))
@[simp] theorem channelsWindowOpened_track (s : State) (hs : TrackerQuiet b s) : TrackerQuiet b (channelsWindowOpened s) := by
  unfold channelsWindowOpened; (try dsimp only) <;> (try (repeat' split) <;> first | exact hs | (simp (maxDischargeDepth := 40) [*]; done) | (simp +contextual (maxDischargeDepth := 40) [*]; done))
@[simp] theorem stopStation_track (kind : FaultKind) (w : StoreWord) (s : State) (hs : TrackerQuiet b s) : TrackerQuiet b (stopStation kind w s) := ⟨hs.1, Or.inl rfl⟩
@[simp] theorem freeze_track (kind : FaultKind) (w : StoreWord) (s : State) (hs : TrackerQuiet b s) : TrackerQuiet b (freeze kind w s) := by
  unfold freeze; (try dsimp only) <;> (try (repeat' split) <;> first | exact hs | (simp (maxDischargeDepth := 40) [*]; done) | (simp +contextual (maxDischargeDepth := 40) [*]; done))
@[simp] theorem resetBlocks_track (why : RestartCause) (s : State) (hs : TrackerQuiet b s) : TrackerQuiet b (resetBlocks why s) :=
  ⟨hs.1, Or.inr (kind_reset b)⟩
theorem startBlocks_track (s : State) (hs : TrackerQuiet b s) (hk : TrackerKind b s.tracker) : TrackerQuiet b (startBlocks s) := ⟨hs.1, Or.inr hk⟩
theorem enterJoining_track (s : State) (hc : s.port.checking = false) (hk : TrackerKind b s.tracker) : TrackerQuiet b (enterJoining s) := by
  unfold enterJoining; dsimp only
  have h : ∀ p, TrackerQuiet b (requestUnchecked .presence p (startBlocks s)) := fun p => requestUnchecked_track _ _ _ ⟨hc, Or.inr hk⟩
  split
  · exact freeze_track _ _ _ (h _)
  · exact h _
@[simp] theorem selfRestart_track (why : RestartCause) (s : State) (hs : TrackerQuiet b s) : TrackerQuiet b (selfRestart why s) :=
  enterJoining_track _ hs.1 (kind_reset b)
@[simp] theorem secondFault_track (s : State) (hs : TrackerQuiet b s) : TrackerQuiet b (secondFault s) := by
  unfold secondFault; (try dsimp only) <;> (try (repeat' split) <;> first | exact hs | (simp (maxDischargeDepth := 40) [*]; done) | (simp +contextual (maxDischargeDepth := 40) [*]; done))
theorem lookAgain_track (s t : State) (h : TrackerQuiet b t) : TrackerQuiet b (lookAgain s t) := by
  unfold lookAgain
  split
  · exact secondFault_track _ h
  · exact h
@[simp] theorem readFault_track (kind : FaultKind) (w : StoreWord) (s : State) (hs : TrackerQuiet b s) : TrackerQuiet b (readFault kind w s) := by
  unfold readFault; (try dsimp only) <;> (try (repeat' split) <;> first | exact hs | (simp (maxDischargeDepth := 40) [*]; done) | (simp +contextual (maxDischargeDepth := 40) [*]; done))
@[simp] theorem readingConfig_track (offsets : List Nat) (stop f : State → State) (s : State) (hstop : ∀ t, TrackerQuiet b t → TrackerQuiet b (stop t)) (hf : ∀ t, TrackerQuiet b t → TrackerQuiet b (f t)) (hs : TrackerQuiet b s) : TrackerQuiet b (readingConfig offsets stop f s) := by
  unfold readingConfig; (repeat' split) <;> simp +contextual [*]
/-- The same, of this one state. -/
theorem readingConfig_at_track (offsets : List Nat) (stop f : State → State) (s : State) (hs : TrackerQuiet b (stop s)) (h : TrackerQuiet b (f s)) : TrackerQuiet b (readingConfig offsets stop f s) := by
  unfold readingConfig; (repeat' split) <;> simp [*]
theorem usingConfig_at_track (offsets : List Nat) (f : State → State) (s : State) (hs : TrackerQuiet b s) (h : TrackerQuiet b (f s)) : TrackerQuiet b (usingConfig offsets f s) :=
  readingConfig_at_track offsets id f s hs h
@[simp] theorem usingConfig_track (offsets : List Nat) (f : State → State) (s : State) (hf : ∀  t, TrackerQuiet b t → TrackerQuiet b (f t)) (hs : TrackerQuiet b s) : TrackerQuiet b (usingConfig offsets f s) := by
  unfold usingConfig; (try dsimp only) <;> (try (repeat' split) <;> first | exact hs | (simp (maxDischargeDepth := 40) [*]; done) | (simp +contextual (maxDischargeDepth := 40) [*]; done))
@[simp] theorem usingWords_track (words : List StoreWord) (f : State → State) (s : State) (hf : ∀  t, TrackerQuiet b t → TrackerQuiet b (f t)) (hs : TrackerQuiet b s) : TrackerQuiet b (usingWords words f s) := by
  unfold usingWords; (try dsimp only) <;> (try (repeat' split) <;> first | exact hs | (simp (maxDischargeDepth := 40) [*]; done) | (simp +contextual (maxDischargeDepth := 40) [*]; done))
@[simp] theorem boardReads_track (words : List StoreWord) (f : State → State) (s : State) (hf : ∀  t, TrackerQuiet b t → TrackerQuiet b (f t)) (hs : TrackerQuiet b s) : TrackerQuiet b (boardReads words f s) := by
  unfold boardReads; (try dsimp only) <;> (try (repeat' split) <;> first | exact hs | (simp (maxDischargeDepth := 40) [*]; done) | (simp +contextual (maxDischargeDepth := 40) [*]; done))
@[simp] theorem selectNext_track (s : State) (hs : TrackerQuiet b s) : TrackerQuiet b (selectNext s) := by
  unfold selectNext; (try dsimp only) <;> (try (repeat' split) <;> first | exact hs | (simp (maxDischargeDepth := 40) [*]; done) | (simp +contextual (maxDischargeDepth := 40) [*]; done))
@[simp] theorem request_track (kind : FrameKind) (payload : List Byte) (taken : Nat → State → State) (refused : State → State) (s : State) (htaken : ∀ a t, TrackerQuiet b t → TrackerQuiet b (taken a t)) (hrefused : ∀  t, TrackerQuiet b t → TrackerQuiet b (refused t)) (hs : TrackerQuiet b s) : TrackerQuiet b (request kind payload taken refused s) := by
  unfold request; (try dsimp only) <;> (try (repeat' split) <;> first | exact hs | (simp (maxDischargeDepth := 40) [*]; done) | (simp +contextual (maxDischargeDepth := 40) [*]; done))
@[simp] theorem keepNoRef_track (_ref : Nat) (s : State) (hs : TrackerQuiet b s) : TrackerQuiet b (keepNoRef _ref s) := by
  unfold keepNoRef; (try dsimp only) <;> (try (repeat' split) <;> first | exact hs | (simp (maxDischargeDepth := 40) [*]; done) | (simp +contextual (maxDischargeDepth := 40) [*]; done))
@[simp] theorem requestLogout_track (p : LogoutPart) (s : State) (hs : TrackerQuiet b s) : TrackerQuiet b (requestLogout p s) := by
  unfold requestLogout; (try dsimp only) <;> (try (repeat' split) <;> first | exact hs | (simp (maxDischargeDepth := 40) [*]; done) | (simp +contextual (maxDischargeDepth := 40) [*]; done))
@[simp] theorem softFault_track (s : State) (hs : TrackerQuiet b s) : TrackerQuiet b (softFault s) := by
  unfold softFault; (try dsimp only) <;> (try (repeat' split) <;> first | exact hs | (simp (maxDischargeDepth := 40) [*]; done) | (simp +contextual (maxDischargeDepth := 40) [*]; done))
@[simp] theorem checkWindow_track (s : State) (hs : TrackerQuiet b s) : TrackerQuiet b (checkWindow s) := by
  unfold checkWindow; (try dsimp only) <;> (try (repeat' split) <;> first | exact hs | (simp (maxDischargeDepth := 40) [*]; done) | (simp +contextual (maxDischargeDepth := 40) [*]; done))
@[simp] theorem formGroup_track (s : State) (hs : TrackerQuiet b s) : TrackerQuiet b (formGroup s) := by
  unfold formGroup; (try dsimp only) <;> (try (repeat' split) <;> first | exact hs | (simp (maxDischargeDepth := 40) [*]; done) | (simp +contextual (maxDischargeDepth := 40) [*]; done))
@[simp] theorem readWindow_track (s : State) (hs : TrackerQuiet b s) : TrackerQuiet b (readWindow s) := by
  unfold readWindow; (try dsimp only) <;> (try (repeat' split) <;> first | exact hs | (simp (maxDischargeDepth := 40) [*]; done) | (simp +contextual (maxDischargeDepth := 40) [*]; done))
@[simp] theorem hitEntered_track (id : HitId) (s : State) (hs : TrackerQuiet b s) : TrackerQuiet b (hitEntered id s) := by
  unfold hitEntered; (try dsimp only) <;> (try (repeat' split) <;> first | exact hs | (simp (maxDischargeDepth := 40) [*]; done) | (simp +contextual (maxDischargeDepth := 40) [*]; done))
@[simp] theorem requestRemoval_track (id : HitId) (s : State) (hs : TrackerQuiet b s) : TrackerQuiet b (requestRemoval id s) := by
  unfold requestRemoval; (try dsimp only) <;> (try (repeat' split) <;> first | exact hs | (simp (maxDischargeDepth := 40) [*]; done) | (simp +contextual (maxDischargeDepth := 40) [*]; done))
@[simp] theorem discardHit_track (c : Channel) (hit : Option OpenHit) (s : State) (hs : TrackerQuiet b s) : TrackerQuiet b (discardHit c hit s) := by
  unfold discardHit; (try dsimp only) <;> (try (repeat' split) <;> first | exact hs | (simp (maxDischargeDepth := 40) [*]; done) | (simp +contextual (maxDischargeDepth := 40) [*]; done))
@[simp] theorem disableInto_track (c : Channel) (u : ChannelUnit) (s : State) (hs : TrackerQuiet b s) : TrackerQuiet b (disableInto c u s) := by
  unfold disableInto; (try dsimp only) <;> (try (repeat' split) <;> first | exact hs | (simp (maxDischargeDepth := 40) [*]; done) | (simp +contextual (maxDischargeDepth := 40) [*]; done))
@[simp] theorem disableChannel_track (c : Channel) (state : ChannelState) (role : Role) (s : State) (hs : TrackerQuiet b s) : TrackerQuiet b (disableChannel c state role s) := by
  unfold disableChannel; (try dsimp only) <;> (try (repeat' split) <;> first | exact hs | (simp (maxDischargeDepth := 40) [*]; done) | (simp +contextual (maxDischargeDepth := 40) [*]; done))
@[simp] theorem checkApplied_track (s : State) (hs : TrackerQuiet b s) : TrackerQuiet b (checkApplied s) := by
  unfold checkApplied; (try dsimp only) <;> (try (repeat' split) <;> first | exact hs | (simp (maxDischargeDepth := 40) [*]; done) | (simp +contextual (maxDischargeDepth := 40) [*]; done))
@[simp] theorem muteChannel_track (c : Channel) (s : State) (hs : TrackerQuiet b s) : TrackerQuiet b (muteChannel c s) := by
  unfold muteChannel; (try dsimp only) <;> (try (repeat' split) <;> first | exact hs | (simp (maxDischargeDepth := 40) [*]; done) | (simp +contextual (maxDischargeDepth := 40) [*]; done))
@[simp] theorem listenAgain_track (c : Channel) (s : State) (hs : TrackerQuiet b s) : TrackerQuiet b (listenAgain c s) := by
  unfold listenAgain; (try dsimp only) <;> (try (repeat' split) <;> first | exact hs | (simp (maxDischargeDepth := 40) [*]; done) | (simp +contextual (maxDischargeDepth := 40) [*]; done))
@[simp] theorem unmuteChannel_track (c : Channel) (s : State) (hs : TrackerQuiet b s) : TrackerQuiet b (unmuteChannel c s) := by
  unfold unmuteChannel; (try dsimp only) <;> (try (repeat' split) <;> first | exact hs | (simp (maxDischargeDepth := 40) [*]; done) | (simp +contextual (maxDischargeDepth := 40) [*]; done))
@[simp] theorem remute_track (c : Channel) (s : State) (hs : TrackerQuiet b s) : TrackerQuiet b (remute c s) := by
  unfold remute; (try dsimp only) <;> (try (repeat' split) <;> first | exact hs | (simp (maxDischargeDepth := 40) [*]; done) | (simp +contextual (maxDischargeDepth := 40) [*]; done))
@[simp] theorem listenAfterPulse_track (c : Channel) (s : State) (hs : TrackerQuiet b s) : TrackerQuiet b (listenAfterPulse c s) := by
  unfold listenAfterPulse; (try dsimp only) <;> (try (repeat' split) <;> first | exact hs | (simp (maxDischargeDepth := 40) [*]; done) | (simp +contextual (maxDischargeDepth := 40) [*]; done))
@[simp] theorem returnToListen_track (c : Channel) (s : State) (hs : TrackerQuiet b s) : TrackerQuiet b (returnToListen c s) := by
  unfold returnToListen; (try dsimp only) <;> (try (repeat' split) <;> first | exact hs | (simp (maxDischargeDepth := 40) [*]; done) | (simp +contextual (maxDischargeDepth := 40) [*]; done))
@[simp] theorem releaseChannel_track (c : Channel) (s : State) (hs : TrackerQuiet b s) : TrackerQuiet b (releaseChannel c s) := by
  unfold releaseChannel; (try dsimp only) <;> (try (repeat' split) <;> first | exact hs | (simp (maxDischargeDepth := 40) [*]; done) | (simp +contextual (maxDischargeDepth := 40) [*]; done))
@[simp] theorem setSlot_track (v : Slot) (s : State) (hs : TrackerQuiet b s) : TrackerQuiet b (setSlot v s) := by
  unfold setSlot; (try dsimp only) <;> (try (repeat' split) <;> first | exact hs | (simp (maxDischargeDepth := 40) [*]; done) | (simp +contextual (maxDischargeDepth := 40) [*]; done))
@[simp] theorem skipSlot_track (s : State) (hs : TrackerQuiet b s) : TrackerQuiet b (skipSlot s) := by
  unfold skipSlot; (try dsimp only) <;> (try (repeat' split) <;> first | exact hs | (simp (maxDischargeDepth := 40) [*]; done) | (simp +contextual (maxDischargeDepth := 40) [*]; done))
@[simp] theorem slotQueued_track (ref : Nat) (s : State) (hs : TrackerQuiet b s) : TrackerQuiet b (slotQueued ref s) := by
  unfold slotQueued; (try dsimp only) <;> (try (repeat' split) <;> first | exact hs | (simp (maxDischargeDepth := 40) [*]; done) | (simp +contextual (maxDischargeDepth := 40) [*]; done))
@[simp] theorem pulseRefused_track (c : Channel) (s : State) (hs : TrackerQuiet b s) : TrackerQuiet b (pulseRefused c s) := by
  unfold pulseRefused; (try dsimp only) <;> (try (repeat' split) <;> first | exact hs | (simp (maxDischargeDepth := 40) [*]; done) | (simp +contextual (maxDischargeDepth := 40) [*]; done))
@[simp] theorem armChannel_track (c : Channel) (s : State) (hs : TrackerQuiet b s) : TrackerQuiet b (armChannel c s) := by
  unfold armChannel; (try dsimp only) <;> (try (repeat' split) <;> first | exact hs | (simp (maxDischargeDepth := 40) [*]; done) | (simp +contextual (maxDischargeDepth := 40) [*]; done))
@[simp] theorem offerPulse_track (s : State) (hs : TrackerQuiet b s) : TrackerQuiet b (offerPulse s) := by
  unfold offerPulse; (try dsimp only) <;> (try (repeat' split) <;> first | exact hs | (simp (maxDischargeDepth := 40) [*]; done) | (simp +contextual (maxDischargeDepth := 40) [*]; done))
@[simp] theorem offerInTime_track (tag : Tag) (s : State) (hs : TrackerQuiet b s) : TrackerQuiet b (offerInTime tag s) := by
  unfold offerInTime; (try dsimp only) <;> (try (repeat' split) <;> first | exact hs | (simp (maxDischargeDepth := 40) [*]; done) | (simp +contextual (maxDischargeDepth := 40) [*]; done))
@[simp] theorem reofferPulse_track (s : State) (hs : TrackerQuiet b s) : TrackerQuiet b (reofferPulse s) := by
  unfold reofferPulse; (try dsimp only) <;> (try (repeat' split) <;> first | exact hs | (simp (maxDischargeDepth := 40) [*]; done) | (simp +contextual (maxDischargeDepth := 40) [*]; done))
@[simp] theorem releaseNamed_track (s : State) (hs : TrackerQuiet b s) : TrackerQuiet b (releaseNamed s) := by
  unfold releaseNamed; (try dsimp only) <;> (try (repeat' split) <;> first | exact hs | (simp (maxDischargeDepth := 40) [*]; done) | (simp +contextual (maxDischargeDepth := 40) [*]; done))
@[simp] theorem releasePulse_track (s : State) (hs : TrackerQuiet b s) : TrackerQuiet b (releasePulse s) := by
  unfold releasePulse; (try dsimp only) <;> (try (repeat' split) <;> first | exact hs | (simp (maxDischargeDepth := 40) [*]; done) | (simp +contextual (maxDischargeDepth := 40) [*]; done))
@[simp] theorem askChannel_track (c : Channel) (ask : MuteRequest) (s : State) (hs : TrackerQuiet b s) : TrackerQuiet b (askChannel c ask s) := by
  unfold askChannel; (try dsimp only) <;> (try (repeat' split) <;> first | exact hs | (simp (maxDischargeDepth := 40) [*]; done) | (simp +contextual (maxDischargeDepth := 40) [*]; done))
@[simp] theorem judgeRecordOf_track (w : PulseWindow) (c : Channel) (s : State) (hs : TrackerQuiet b s) : TrackerQuiet b (judgeRecordOf w c s) := by
  unfold judgeRecordOf; (try dsimp only) <;> (try (repeat' split) <;> first | exact hs | (simp (maxDischargeDepth := 40) [*]; done) | (simp +contextual (maxDischargeDepth := 40) [*]; done))
@[simp] theorem judgeIfReferred_track (w : PulseWindow) (c : Channel) (s : State) (hs : TrackerQuiet b s) : TrackerQuiet b (judgeIfReferred w c s) := by
  unfold judgeIfReferred; (try dsimp only) <;> (try (repeat' split) <;> first | exact hs | (simp (maxDischargeDepth := 40) [*]; done) | (simp +contextual (maxDischargeDepth := 40) [*]; done))
@[simp] theorem judgeSensor_track (w : PulseWindow) (c : Channel) (s : State) (hs : TrackerQuiet b s) : TrackerQuiet b (judgeSensor w c s) := by
  unfold judgeSensor; (try dsimp only) <;> (try (repeat' split) <;> first | exact hs | (simp (maxDischargeDepth := 40) [*]; done) | (simp +contextual (maxDischargeDepth := 40) [*]; done))
@[simp] theorem judgeSensors_track (w : PulseWindow) (l : List Channel) (s : State) (hs : TrackerQuiet b s) : TrackerQuiet b (judgeSensors w l s) := by
  induction l generalizing s with
  | nil => exact hs
  | cons a l ih => unfold judgeSensors; simp +contextual (maxDischargeDepth := 40) [*]
@[simp] theorem judgeWindow_track (w : PulseWindow) (s : State) (hs : TrackerQuiet b s) : TrackerQuiet b (judgeWindow w s) := by
  unfold judgeWindow; (try dsimp only) <;> (try (repeat' split) <;> first | exact hs | (simp (maxDischargeDepth := 40) [*]; done) | (simp +contextual (maxDischargeDepth := 40) [*]; done))
@[simp] theorem judgeIfReady_track (s : State) (hs : TrackerQuiet b s) : TrackerQuiet b (judgeIfReady s) := by
  unfold judgeIfReady; (try dsimp only) <;> (try (repeat' split) <;> first | exact hs | (simp (maxDischargeDepth := 40) [*]; done) | (simp +contextual (maxDischargeDepth := 40) [*]; done))
@[simp] theorem reofferThenJudge_track (s : State) (hs : TrackerQuiet b s) : TrackerQuiet b (reofferThenJudge s) := by
  unfold reofferThenJudge; (try dsimp only) <;> (try (repeat' split) <;> first | exact hs | (simp (maxDischargeDepth := 40) [*]; done) | (simp +contextual (maxDischargeDepth := 40) [*]; done))
@[simp] theorem closeWindowUnits_track (s : State) (hs : TrackerQuiet b s) : TrackerQuiet b (closeWindowUnits s) := by
  unfold closeWindowUnits; (try dsimp only) <;> (try (repeat' split) <;> first | exact hs | (simp (maxDischargeDepth := 40) [*]; done) | (simp +contextual (maxDischargeDepth := 40) [*]; done))
@[simp] theorem channelsWindowClosed_track (s : State) (hs : TrackerQuiet b s) : TrackerQuiet b (channelsWindowClosed s) := by
  unfold channelsWindowClosed; (try dsimp only) <;> (try (repeat' split) <;> first | exact hs | (simp (maxDischargeDepth := 40) [*]; done) | (simp +contextual (maxDischargeDepth := 40) [*]; done))
@[simp] theorem abandonWindow_track (s : State) (hs : TrackerQuiet b s) : TrackerQuiet b (abandonWindow s) := by
  unfold abandonWindow; (try dsimp only) <;> (try (repeat' split) <;> first | exact hs | (simp (maxDischargeDepth := 40) [*]; done) | (simp +contextual (maxDischargeDepth := 40) [*]; done))
@[simp] theorem openWindow_track (s : State) (hs : TrackerQuiet b s) : TrackerQuiet b (openWindow s) := by
  unfold openWindow; (try dsimp only) <;> (try (repeat' split) <;> first | exact hs | (simp (maxDischargeDepth := 40) [*]; done) | (simp +contextual (maxDischargeDepth := 40) [*]; done))
@[simp] theorem ignoreWindow_track (s : State) (hs : TrackerQuiet b s) : TrackerQuiet b (ignoreWindow s) := by
  unfold ignoreWindow; (try dsimp only) <;> (try (repeat' split) <;> first | exact hs | (simp (maxDischargeDepth := 40) [*]; done) | (simp +contextual (maxDischargeDepth := 40) [*]; done))
@[simp] theorem placeWindow_track (pulser : Station) (fire finish : Tag) (s : State) (hs : TrackerQuiet b s) : TrackerQuiet b (placeWindow pulser fire finish s) := by
  unfold placeWindow; (try dsimp only) <;> (try (repeat' split) <;> first | exact hs | (simp (maxDischargeDepth := 40) [*]; done) | (simp +contextual (maxDischargeDepth := 40) [*]; done))
@[simp] theorem takePulse_track (pulser : Station) (stamp : Tag) (s : State) (hs : TrackerQuiet b s) : TrackerQuiet b (takePulse pulser stamp s) := by
  unfold takePulse; (try dsimp only) <;> (try (repeat' split) <;> first | exact hs | (simp (maxDischargeDepth := 40) [*]; done) | (simp +contextual (maxDischargeDepth := 40) [*]; done))
@[simp] theorem pulseFrame_track (pulser : Station) (cycle : Option CycleNo) (stamp : Tag) (s : State) (hs : TrackerQuiet b s) : TrackerQuiet b (pulseFrame pulser cycle stamp s) := by
  unfold pulseFrame; (try dsimp only) <;> (try (repeat' split) <;> first | exact hs | (simp (maxDischargeDepth := 40) [*]; done) | (simp +contextual (maxDischargeDepth := 40) [*]; done))
@[simp] theorem pulseReported_track (s : State) (hs : TrackerQuiet b s) : TrackerQuiet b (pulseReported s) := by
  unfold pulseReported; (try dsimp only) <;> (try (repeat' split) <;> first | exact hs | (simp (maxDischargeDepth := 40) [*]; done) | (simp +contextual (maxDischargeDepth := 40) [*]; done))
@[simp] theorem armedChannelLost_track (s : State) (hs : TrackerQuiet b s) : TrackerQuiet b (armedChannelLost s) := by
  unfold armedChannelLost; (try dsimp only) <;> (try (repeat' split) <;> first | exact hs | (simp (maxDischargeDepth := 40) [*]; done) | (simp +contextual (maxDischargeDepth := 40) [*]; done))
@[simp] theorem endSlotAtCyc_track (s : State) (hs : TrackerQuiet b s) : TrackerQuiet b (endSlotAtCyc s) := by
  unfold endSlotAtCyc; (try dsimp only) <;> (try (repeat' split) <;> first | exact hs | (simp (maxDischargeDepth := 40) [*]; done) | (simp +contextual (maxDischargeDepth := 40) [*]; done))
@[simp] theorem couplingCyc_track (s : State) (hs : TrackerQuiet b s) : TrackerQuiet b (couplingCyc s) := by
  unfold couplingCyc; (try dsimp only) <;> (try (repeat' split) <;> first | exact hs | (simp (maxDischargeDepth := 40) [*]; done) | (simp +contextual (maxDischargeDepth := 40) [*]; done))
@[simp] theorem placeInReturn_track (s : State) (hs : TrackerQuiet b s) : TrackerQuiet b (placeInReturn s) := by
  unfold placeInReturn; (try dsimp only) <;> (try (repeat' split) <;> first | exact hs | (simp (maxDischargeDepth := 40) [*]; done) | (simp +contextual (maxDischargeDepth := 40) [*]; done))
@[simp] theorem placeIfDue_track (s : State) (hs : TrackerQuiet b s) : TrackerQuiet b (placeIfDue s) := by
  unfold placeIfDue; (try dsimp only) <;> (try (repeat' split) <;> first | exact hs | (simp (maxDischargeDepth := 40) [*]; done) | (simp +contextual (maxDischargeDepth := 40) [*]; done))
@[simp] theorem placeSlot_track (s : State) (hs : TrackerQuiet b s) : TrackerQuiet b (placeSlot s) := by
  unfold placeSlot; (try dsimp only) <;> (try (repeat' split) <;> first | exact hs | (simp (maxDischargeDepth := 40) [*]; done) | (simp +contextual (maxDischargeDepth := 40) [*]; done))
@[simp] theorem coinCounts_track (f : CoincidenceCounts → CoincidenceCounts) (s : State) (hs : TrackerQuiet b s) : TrackerQuiet b (coinCounts f s) := by
  unfold coinCounts; (try dsimp only) <;> (try (repeat' split) <;> first | exact hs | (simp (maxDischargeDepth := 40) [*]; done) | (simp +contextual (maxDischargeDepth := 40) [*]; done))
@[simp] theorem enterWindow_track (e : HitEntry) (s : State) (hs : TrackerQuiet b s) : TrackerQuiet b (enterWindow e s) := by
  unfold enterWindow; (try dsimp only) <;> (try (repeat' split) <;> first | exact hs | (simp (maxDischargeDepth := 40) [*]; done) | (simp +contextual (maxDischargeDepth := 40) [*]; done))
@[simp] theorem offerOwnHit_track (c : Channel) (arrival : Tag) (phase : Phase) (s : State) (hs : TrackerQuiet b s) : TrackerQuiet b (offerOwnHit c arrival phase s) := by
  unfold offerOwnHit; (try dsimp only) <;> (try (repeat' split) <;> first | exact hs | (simp (maxDischargeDepth := 40) [*]; done) | (simp +contextual (maxDischargeDepth := 40) [*]; done))
@[simp] theorem enterOwnHit_track (c : Channel) (arrival : Tag) (phase : Phase) (s : State) (hs : TrackerQuiet b s) : TrackerQuiet b (enterOwnHit c arrival phase s) := by
  unfold enterOwnHit; (try dsimp only) <;> (try (repeat' split) <;> first | exact hs | (simp (maxDischargeDepth := 40) [*]; done) | (simp +contextual (maxDischargeDepth := 40) [*]; done))
@[simp] theorem fillFeatures_track (id : HitId) (f : Features) (s : State) (hs : TrackerQuiet b s) : TrackerQuiet b (fillFeatures id f s) := by
  unfold fillFeatures; (try dsimp only) <;> (try (repeat' split) <;> first | exact hs | (simp (maxDischargeDepth := 40) [*]; done) | (simp +contextual (maxDischargeDepth := 40) [*]; done))
@[simp] theorem eventDropped_track (s : State) (hs : TrackerQuiet b s) : TrackerQuiet b (eventDropped s) := by
  unfold eventDropped; (try dsimp only) <;> (try (repeat' split) <;> first | exact hs | (simp (maxDischargeDepth := 40) [*]; done) | (simp +contextual (maxDischargeDepth := 40) [*]; done))
@[simp] theorem ownerTaken_track (ref : Nat) (s : State) (hs : TrackerQuiet b s) : TrackerQuiet b (ownerTaken ref s) := by
  unfold ownerTaken; (try dsimp only) <;> (try (repeat' split) <;> first | exact hs | (simp (maxDischargeDepth := 40) [*]; done) | (simp +contextual (maxDischargeDepth := 40) [*]; done))
@[simp] theorem requestAsOwner_track (members : List HitEntry) (crowded : Bool) (s : State) (hs : TrackerQuiet b s) : TrackerQuiet b (requestAsOwner members crowded s) := by
  unfold requestAsOwner; (try dsimp only) <;> (try (repeat' split) <;> first | exact hs | (simp (maxDischargeDepth := 40) [*]; done) | (simp +contextual (maxDischargeDepth := 40) [*]; done))
@[simp] theorem publishAsOwner_track (members : List HitEntry) (crowded : Bool) (s : State) (hs : TrackerQuiet b s) : TrackerQuiet b (publishAsOwner members crowded s) := by
  unfold publishAsOwner; (try dsimp only) <;> (try (repeat' split) <;> first | exact hs | (simp (maxDischargeDepth := 40) [*]; done) | (simp +contextual (maxDischargeDepth := 40) [*]; done))
@[simp] theorem addPending_track (members : List HitEntry) (crowded : Bool) (rank : Nat) (s : State) (hs : TrackerQuiet b s) : TrackerQuiet b (addPending members crowded rank s) := by
  unfold addPending; (try dsimp only) <;> (try (repeat' split) <;> first | exact hs | (simp (maxDischargeDepth := 40) [*]; done) | (simp +contextual (maxDischargeDepth := 40) [*]; done))
@[simp] theorem pendGroup_track (members : List HitEntry) (crowded : Bool) (rank : Nat) (s : State) (hs : TrackerQuiet b s) : TrackerQuiet b (pendGroup members crowded rank s) := by
  unfold pendGroup; (try dsimp only) <;> (try (repeat' split) <;> first | exact hs | (simp (maxDischargeDepth := 40) [*]; done) | (simp +contextual (maxDischargeDepth := 40) [*]; done))
@[simp] theorem closeGroup_track (g : OpenGroup) (s : State) (hs : TrackerQuiet b s) : TrackerQuiet b (closeGroup g s) := by
  unfold closeGroup; (try dsimp only) <;> (try (repeat' split) <;> first | exact hs | (simp (maxDischargeDepth := 40) [*]; done) | (simp +contextual (maxDischargeDepth := 40) [*]; done))
@[simp] theorem closeDueGroups_track (n : Nat) (s : State) (hs : TrackerQuiet b s) : TrackerQuiet b (closeDueGroups n s) := by
  induction n generalizing s with
  | zero => exact hs
  | succ n ih => unfold closeDueGroups; (repeat' split) <;> first | assumption | simp +contextual (maxDischargeDepth := 40) [*]
@[simp] theorem standInTaken_track (p : PendingGroup) (ref : Nat) (s : State) (hs : TrackerQuiet b s) : TrackerQuiet b (standInTaken p ref s) := by
  unfold standInTaken; (try dsimp only) <;> (try (repeat' split) <;> first | exact hs | (simp (maxDischargeDepth := 40) [*]; done) | (simp +contextual (maxDischargeDepth := 40) [*]; done))
@[simp] theorem standInRefused_track (p : PendingGroup) (s : State) (hs : TrackerQuiet b s) : TrackerQuiet b (standInRefused p s) := by
  unfold standInRefused; (try dsimp only) <;> (try (repeat' split) <;> first | exact hs | (simp (maxDischargeDepth := 40) [*]; done) | (simp +contextual (maxDischargeDepth := 40) [*]; done))
@[simp] theorem requestAsStandIn_track (p : PendingGroup) (s : State) (hs : TrackerQuiet b s) : TrackerQuiet b (requestAsStandIn p s) := by
  unfold requestAsStandIn; (try dsimp only) <;> (try (repeat' split) <;> first | exact hs | (simp (maxDischargeDepth := 40) [*]; done) | (simp +contextual (maxDischargeDepth := 40) [*]; done))
@[simp] theorem publishAsStandIn_track (p : PendingGroup) (s : State) (hs : TrackerQuiet b s) : TrackerQuiet b (publishAsStandIn p s) := by
  unfold publishAsStandIn; (try dsimp only) <;> (try (repeat' split) <;> first | exact hs | (simp (maxDischargeDepth := 40) [*]; done) | (simp +contextual (maxDischargeDepth := 40) [*]; done))
@[simp] theorem eventOutcome_track (ref : Nat) (wasSent : Bool) (s : State) (hs : TrackerQuiet b s) : TrackerQuiet b (eventOutcome ref wasSent s) := by
  unfold eventOutcome; (try dsimp only) <;> (try (repeat' split) <;> first | exact hs | (simp (maxDischargeDepth := 40) [*]; done) | (simp +contextual (maxDischargeDepth := 40) [*]; done))
@[simp] theorem peerHit_track (sender : Station) (offset : Tag) (s : State) (h : HitRecord) (hs : TrackerQuiet b s) : TrackerQuiet b (peerHit sender offset s h) := by
  unfold peerHit; (try dsimp only) <;> (try (repeat' split) <;> first | exact hs | (simp (maxDischargeDepth := 40) [*]; done) | (simp +contextual (maxDischargeDepth := 40) [*]; done))
@[simp] theorem takePeerHit_track (sender : Station) (offset : Tag) (h : HitRecord) (s : State) (hs : TrackerQuiet b s) : TrackerQuiet b (takePeerHit sender offset h s) := by
  unfold takePeerHit; (try dsimp only) <;> (try (repeat' split) <;> first | exact hs | (simp (maxDischargeDepth := 40) [*]; done) | (simp +contextual (maxDischargeDepth := 40) [*]; done))
@[simp] theorem takePeerHits_track (sender : Station) (offset : Tag) (l : List HitRecord) (s : State) (hs : TrackerQuiet b s) : TrackerQuiet b (takePeerHits sender offset l s) := by
  induction l generalizing s with
  | nil => exact hs
  | cons h t ih => unfold takePeerHits; exact unlessFrozen_track _ _ (fun t ht => ih t ht) (takePeerHit_track sender offset h s hs)
@[simp] theorem closeIfMoved_track (old : Option Tag) (s : State) (hs : TrackerQuiet b s) : TrackerQuiet b (closeIfMoved old s) := by
  unfold closeIfMoved; (try dsimp only) <;> (try (repeat' split) <;> first | exact hs | (simp (maxDischargeDepth := 40) [*]; done) | (simp +contextual (maxDischargeDepth := 40) [*]; done))
@[simp] theorem takeHits_track (sender : Station) (f : RxFrame) (s : State) (hs : TrackerQuiet b s) : TrackerQuiet b (takeHits sender f s) := by
  unfold takeHits; (try dsimp only) <;> (try (repeat' split) <;> first | exact hs | (simp (maxDischargeDepth := 40) [*]; done) | (simp +contextual (maxDischargeDepth := 40) [*]; done))
@[simp] theorem readForHits_track (sender : Station) (f : RxFrame) (s : State) (hs : TrackerQuiet b s) : TrackerQuiet b (readForHits sender f s) := by
  unfold readForHits; (try dsimp only) <;> (try (repeat' split) <;> first | exact hs | (simp (maxDischargeDepth := 40) [*]; done) | (simp +contextual (maxDischargeDepth := 40) [*]; done))
@[simp] theorem hitFrame_track (sender : Station) (f : RxFrame) (s : State) (hs : TrackerQuiet b s) : TrackerQuiet b (hitFrame sender f s) := by
  unfold hitFrame; (try dsimp only) <;> (try (repeat' split) <;> first | exact hs | (simp (maxDischargeDepth := 40) [*]; done) | (simp +contextual (maxDischargeDepth := 40) [*]; done))
@[simp] theorem withdrawPending_track (p : PendingGroup) (s : State) (hs : TrackerQuiet b s) : TrackerQuiet b (withdrawPending p s) := by
  unfold withdrawPending; (try dsimp only) <;> (try (repeat' split) <;> first | exact hs | (simp (maxDischargeDepth := 40) [*]; done) | (simp +contextual (maxDischargeDepth := 40) [*]; done))
@[simp] theorem eventReceipt_track (e : EventRecord) (s : State) (hs : TrackerQuiet b s) : TrackerQuiet b (eventReceipt e s) := by
  unfold eventReceipt; (try dsimp only) <;> (try (repeat' split) <;> first | exact hs | (simp (maxDischargeDepth := 40) [*]; done) | (simp +contextual (maxDischargeDepth := 40) [*]; done))
@[simp] theorem discardCoincidence_track (s : State) (hs : TrackerQuiet b s) : TrackerQuiet b (discardCoincidence s) := by
  unfold discardCoincidence; (try dsimp only) <;> (try (repeat' split) <;> first | exact hs | (simp (maxDischargeDepth := 40) [*]; done) | (simp +contextual (maxDischargeDepth := 40) [*]; done))
@[simp] theorem evidCounts_track (f : EvidenceCounts → EvidenceCounts) (s : State) (hs : TrackerQuiet b s) : TrackerQuiet b (evidCounts f s) := by
  unfold evidCounts; (try dsimp only) <;> (try (repeat' split) <;> first | exact hs | (simp (maxDischargeDepth := 40) [*]; done) | (simp +contextual (maxDischargeDepth := 40) [*]; done))
@[simp] theorem judgeApplied_track (sender : Station) (e : EventRecord) (s : State) (hs : TrackerQuiet b s) : TrackerQuiet b (judgeApplied sender e s) := by
  unfold judgeApplied
  split
  · exact evidCounts_track _ _ hs
  · split
    · exact evidCounts_track _ _ hs
    · exact evidCounts_track _ _ (checkApplied_track _ hs)
@[simp] theorem applyEvent_track (sender : Station) (e : EventRecord) (s : State) (hs : TrackerQuiet b s) : TrackerQuiet b (applyEvent sender e s) := by
  unfold applyEvent; (try dsimp only) <;> (try (repeat' split) <;> first | exact hs | (simp (maxDischargeDepth := 40) [*]; done) | (simp +contextual (maxDischargeDepth := 40) [*]; done))
@[simp] theorem foldOne_track (closed : Option CycleNo) (n : Nat) (s : State) (hs : TrackerQuiet b s) : TrackerQuiet b (foldOne closed n s) := by
  unfold foldOne; (try dsimp only) <;> (try (repeat' split) <;> first | exact hs | (simp (maxDischargeDepth := 40) [*]; done) | (simp +contextual (maxDischargeDepth := 40) [*]; done))
@[simp] theorem foldSegment_track (closed : Option CycleNo) (n : Nat) (s : State) (hs : TrackerQuiet b s) : TrackerQuiet b (foldSegment closed n s) := by
  unfold foldSegment; (try dsimp only) <;> (try (repeat' split) <;> first | exact hs | (simp (maxDischargeDepth := 40) [*]; done) | (simp +contextual (maxDischargeDepth := 40) [*]; done))
@[simp] theorem foldSegments_track (cl : Option CycleNo) (l : List Nat) (s : State) (hs : TrackerQuiet b s) : TrackerQuiet b (foldSegments cl l s) := by
  induction l generalizing s with
  | nil => exact hs
  | cons a l ih => unfold foldSegments; simp +contextual (maxDischargeDepth := 40) [*]
@[simp] theorem noticeChange_track (cycle : Option CycleNo) (cause : SegCause) (n : Nat) (old new : SegmentRecord) (s : State) (hs : TrackerQuiet b s) : TrackerQuiet b (noticeChange cycle cause n old new s) := by
  unfold noticeChange; (try dsimp only) <;> (try (repeat' split) <;> first | exact hs | (simp (maxDischargeDepth := 40) [*]; done) | (simp +contextual (maxDischargeDepth := 40) [*]; done))
@[simp] theorem raiseChanges_track (cycle : Option CycleNo) (cause : SegCause) (old new : List SegmentRecord) (s : State) (hs : TrackerQuiet b s) : TrackerQuiet b (raiseChanges cycle cause old new s) := by
  unfold raiseChanges; (try dsimp only) <;> (try (repeat' split) <;> first | exact hs | (simp (maxDischargeDepth := 40) [*]; done) | (simp +contextual (maxDischargeDepth := 40) [*]; done))
@[simp] theorem setOutputs_track (s : State) (hs : TrackerQuiet b s) : TrackerQuiet b (setOutputs s) := by
  unfold setOutputs; (try dsimp only) <;> (try (repeat' split) <;> first | exact hs | (simp (maxDischargeDepth := 40) [*]; done) | (simp +contextual (maxDischargeDepth := 40) [*]; done))
@[simp] theorem deriveOutputs_track (s : State) (hs : TrackerQuiet b s) : TrackerQuiet b (deriveOutputs s) := by
  unfold deriveOutputs; (try dsimp only) <;> (try (repeat' split) <;> first | exact hs | (simp (maxDischargeDepth := 40) [*]; done) | (simp +contextual (maxDischargeDepth := 40) [*]; done))
@[simp] theorem deriveUnlessHeld_track (s : State) (hs : TrackerQuiet b s) : TrackerQuiet b (deriveUnlessHeld s) := by
  unfold deriveUnlessHeld; (try dsimp only) <;> (try (repeat' split) <;> first | exact hs | (simp (maxDischargeDepth := 40) [*]; done) | (simp +contextual (maxDischargeDepth := 40) [*]; done))
@[simp] theorem standingChanged_track (s : State) (hs : TrackerQuiet b s) : TrackerQuiet b (standingChanged s) := by
  unfold standingChanged; (try dsimp only) <;> (try (repeat' split) <;> first | exact hs | (simp (maxDischargeDepth := 40) [*]; done) | (simp +contextual (maxDischargeDepth := 40) [*]; done))
@[simp] theorem emptyApplied_track (s : State) (hs : TrackerQuiet b s) : TrackerQuiet b (emptyApplied s) := by
  unfold emptyApplied; (try dsimp only) <;> (try (repeat' split) <;> first | exact hs | (simp (maxDischargeDepth := 40) [*]; done) | (simp +contextual (maxDischargeDepth := 40) [*]; done))
@[simp] theorem raiseAge_track (s : State) (hs : TrackerQuiet b s) : TrackerQuiet b (raiseAge s) := by
  unfold raiseAge; (try dsimp only) <;> (try (repeat' split) <;> first | exact hs | (simp (maxDischargeDepth := 40) [*]; done) | (simp +contextual (maxDischargeDepth := 40) [*]; done))
@[simp] theorem afterFold_track (closed : Option CycleNo) (old : List SegmentRecord) (s : State) (hs : TrackerQuiet b s) : TrackerQuiet b (afterFold closed old s) := by
  unfold afterFold; (try dsimp only) <;> (try (repeat' split) <;> first | exact hs | (simp (maxDischargeDepth := 40) [*]; done) | (simp +contextual (maxDischargeDepth := 40) [*]; done))
@[simp] theorem foldTable_track (closed : Option CycleNo) (s : State) (hs : TrackerQuiet b s) : TrackerQuiet b (foldTable closed s) := by
  unfold foldTable; (try dsimp only) <;> (try (repeat' split) <;> first | exact hs | (simp (maxDischargeDepth := 40) [*]; done) | (simp +contextual (maxDischargeDepth := 40) [*]; done))
@[simp] theorem evidenceClose_track (closed : Option CycleNo) (kind : CloseKind) (s : State) (hs : TrackerQuiet b s) : TrackerQuiet b (evidenceClose closed kind s) := by
  unfold evidenceClose; (try dsimp only) <;> (try (repeat' split) <;> first | exact hs | (simp (maxDischargeDepth := 40) [*]; done) | (simp +contextual (maxDischargeDepth := 40) [*]; done))
@[simp] theorem controlOne_track (c : Control) (n : Nat) (s : State) (hs : TrackerQuiet b s) : TrackerQuiet b (controlOne c n s) := by
  unfold controlOne; (try dsimp only) <;> (try (repeat' split) <;> first | exact hs | (simp (maxDischargeDepth := 40) [*]; done) | (simp +contextual (maxDischargeDepth := 40) [*]; done))
@[simp] theorem controlSegments_track (c : Control) (l : List Nat) (s : State) (hs : TrackerQuiet b s) : TrackerQuiet b (controlSegments c l s) := by
  induction l generalizing s with
  | nil => exact hs
  | cons a l ih => unfold controlSegments; simp +contextual (maxDischargeDepth := 40) [*]
@[simp] theorem afterControl_track (cause : SegCause) (old : List SegmentRecord) (s : State) (hs : TrackerQuiet b s) : TrackerQuiet b (afterControl cause old s) := by
  unfold afterControl; (try dsimp only) <;> (try (repeat' split) <;> first | exact hs | (simp (maxDischargeDepth := 40) [*]; done) | (simp +contextual (maxDischargeDepth := 40) [*]; done))
@[simp] theorem applyControl_track (c : Control) (s : State) (hs : TrackerQuiet b s) : TrackerQuiet b (applyControl c s) := by
  unfold applyControl; (try dsimp only) <;> (try (repeat' split) <;> first | exact hs | (simp (maxDischargeDepth := 40) [*]; done) | (simp +contextual (maxDischargeDepth := 40) [*]; done))
@[simp] theorem agreeCounts_track (f : AgreementCounts → AgreementCounts) (s : State) (hs : TrackerQuiet b s) : TrackerQuiet b (agreeCounts f s) := by
  unfold agreeCounts; (try dsimp only) <;> (try (repeat' split) <;> first | exact hs | (simp (maxDischargeDepth := 40) [*]; done) | (simp +contextual (maxDischargeDepth := 40) [*]; done))
@[simp] theorem setTransfer_track (t : Transfer) (s : State) (hs : TrackerQuiet b s) : TrackerQuiet b (setTransfer t s) := by
  unfold setTransfer; (try dsimp only) <;> (try (repeat' split) <;> first | exact hs | (simp (maxDischargeDepth := 40) [*]; done) | (simp +contextual (maxDischargeDepth := 40) [*]; done))
@[simp] theorem abandonTransfer_track (cause : AbandonCause) (s : State) (hs : TrackerQuiet b s) : TrackerQuiet b (abandonTransfer cause s) := by
  unfold abandonTransfer; (try dsimp only) <;> (try (repeat' split) <;> first | exact hs | (simp (maxDischargeDepth := 40) [*]; done) | (simp +contextual (maxDischargeDepth := 40) [*]; done))
@[simp] theorem donorGone_track (st : Station) (s : State) (hs : TrackerQuiet b s) : TrackerQuiet b (donorGone st s) := by
  unfold donorGone; (try dsimp only) <;> (try (repeat' split) <;> first | exact hs | (simp (maxDischargeDepth := 40) [*]; done) | (simp +contextual (maxDischargeDepth := 40) [*]; done))
@[simp] theorem abortTransfer_track (s : State) (hs : TrackerQuiet b s) : TrackerQuiet b (abortTransfer s) := by
  unfold abortTransfer; (try dsimp only) <;> (try (repeat' split) <;> first | exact hs | (simp (maxDischargeDepth := 40) [*]; done) | (simp +contextual (maxDischargeDepth := 40) [*]; done))
@[simp] theorem rowTaken_track (row : RowFrame) (ref : Nat) (s : State) (hs : TrackerQuiet b s) : TrackerQuiet b (rowTaken row ref s) := by
  unfold rowTaken; (try dsimp only) <;> (try (repeat' split) <;> first | exact hs | (simp (maxDischargeDepth := 40) [*]; done) | (simp +contextual (maxDischargeDepth := 40) [*]; done))
@[simp] theorem requestRow_track (row : RowFrame) (s : State) (hs : TrackerQuiet b s) : TrackerQuiet b (requestRow row s) := by
  unfold requestRow; (try dsimp only) <;> (try (repeat' split) <;> first | exact hs | (simp (maxDischargeDepth := 40) [*]; done) | (simp +contextual (maxDischargeDepth := 40) [*]; done))
@[simp] theorem makeRow_track (row : RowFrame) (s : State) (hs : TrackerQuiet b s) : TrackerQuiet b (makeRow row s) := by
  unfold makeRow; (try dsimp only) <;> (try (repeat' split) <;> first | exact hs | (simp (maxDischargeDepth := 40) [*]; done) | (simp +contextual (maxDischargeDepth := 40) [*]; done))
@[simp] theorem sendRow_track (first : Nat) (s : State) (hs : TrackerQuiet b s) : TrackerQuiet b (sendRow first s) := by
  unfold sendRow; (try dsimp only) <;> (try (repeat' split) <;> first | exact hs | (simp (maxDischargeDepth := 40) [*]; done) | (simp +contextual (maxDischargeDepth := 40) [*]; done))
@[simp] theorem rowOutcome_track (ref : Nat) (wasSent : Bool) (s : State) (hs : TrackerQuiet b s) : TrackerQuiet b (rowOutcome ref wasSent s) := by
  unfold rowOutcome; (try dsimp only) <;> (try (repeat' split) <;> first | exact hs | (simp (maxDischargeDepth := 40) [*]; done) | (simp +contextual (maxDischargeDepth := 40) [*]; done))
@[simp] theorem digestNotSent_track (s : State) (hs : TrackerQuiet b s) : TrackerQuiet b (digestNotSent s) := by
  unfold digestNotSent; (try dsimp only) <;> (try (repeat' split) <;> first | exact hs | (simp (maxDischargeDepth := 40) [*]; done) | (simp +contextual (maxDischargeDepth := 40) [*]; done))
@[simp] theorem stopSending_track (s : State) (hs : TrackerQuiet b s) : TrackerQuiet b (stopSending s) := by
  unfold stopSending; (try dsimp only) <;> (try (repeat' split) <;> first | exact hs | (simp (maxDischargeDepth := 40) [*]; done) | (simp +contextual (maxDischargeDepth := 40) [*]; done))
@[simp] theorem storeSnapshot_track (closed : Option CycleNo) (s : State) (hs : TrackerQuiet b s) : TrackerQuiet b (storeSnapshot closed s) := by
  unfold storeSnapshot; (try dsimp only) <;> (try (repeat' split) <;> first | exact hs | (simp (maxDischargeDepth := 40) [*]; done) | (simp +contextual (maxDischargeDepth := 40) [*]; done))
@[simp] theorem requestDigest_track (snap : Snapshot) (digest : BitVec 32) (s : State) (hs : TrackerQuiet b s) : TrackerQuiet b (requestDigest snap digest s) := by
  unfold requestDigest; (try dsimp only) <;> (try (repeat' split) <;> first | exact hs | (simp (maxDischargeDepth := 40) [*]; done) | (simp +contextual (maxDischargeDepth := 40) [*]; done))
@[simp] theorem digestSnapshot_track (snap : Snapshot) (s : State) (hs : TrackerQuiet b s) : TrackerQuiet b (digestSnapshot snap s) := by
  unfold digestSnapshot; (try dsimp only) <;> (try (repeat' split) <;> first | exact hs | (simp (maxDischargeDepth := 40) [*]; done) | (simp +contextual (maxDischargeDepth := 40) [*]; done))
@[simp] theorem startDigestWindow_track (s : State) (hs : TrackerQuiet b s) : TrackerQuiet b (startDigestWindow s) := by
  unfold startDigestWindow; (try dsimp only) <;> (try (repeat' split) <;> first | exact hs | (simp (maxDischargeDepth := 40) [*]; done) | (simp +contextual (maxDischargeDepth := 40) [*]; done))
@[simp] theorem takeSnapshot_track (closed : Option CycleNo) (s : State) (hs : TrackerQuiet b s) : TrackerQuiet b (takeSnapshot closed s) := by
  unfold takeSnapshot; (try dsimp only) <;> (try (repeat' split) <;> first | exact hs | (simp (maxDischargeDepth := 40) [*]; done) | (simp +contextual (maxDischargeDepth := 40) [*]; done))
@[simp] theorem copyTable_track (closed : Option CycleNo) (s : State) (hs : TrackerQuiet b s) : TrackerQuiet b (copyTable closed s) := by
  unfold copyTable; (try dsimp only) <;> (try (repeat' split) <;> first | exact hs | (simp (maxDischargeDepth := 40) [*]; done) | (simp +contextual (maxDischargeDepth := 40) [*]; done))
@[simp] theorem agreementClose_track (closed : Option CycleNo) (s : State) (hs : TrackerQuiet b s) : TrackerQuiet b (agreementClose closed s) := by
  unfold agreementClose; (try dsimp only) <;> (try (repeat' split) <;> first | exact hs | (simp (maxDischargeDepth := 40) [*]; done) | (simp +contextual (maxDischargeDepth := 40) [*]; done))
@[simp] theorem setStanding_track (v : Standing) (s : State) (hs : TrackerQuiet b s) : TrackerQuiet b (setStanding v s) := by
  unfold setStanding; (try dsimp only) <;> (try (repeat' split) <;> first | exact hs | (simp (maxDischargeDepth := 40) [*]; done) | (simp +contextual (maxDischargeDepth := 40) [*]; done))
@[simp] theorem decideAs_track (v : Standing) (s : State) (hs : TrackerQuiet b s) : TrackerQuiet b (decideAs v s) :=
  setStanding_track v _ hs
@[simp] theorem enterAwaiting_track (donor : Station) (cycle : Option CycleNo) (v : BitVec 32) (s : State) (hs : TrackerQuiet b s) : TrackerQuiet b (enterAwaiting donor cycle v s) := by
  unfold enterAwaiting; (try dsimp only) <;> (try (repeat' split) <;> first | exact hs | (simp (maxDischargeDepth := 40) [*]; done) | (simp +contextual (maxDischargeDepth := 40) [*]; done))
@[simp] theorem actOnStanding_track (own : Station) (standing : Standing) (cycle : Option CycleNo) (verdict : Option (BitVec 32 × Station)) (senders : List DigestSender) (s : State) (hs : TrackerQuiet b s) : TrackerQuiet b (actOnStanding own standing cycle verdict senders s) := by
  unfold actOnStanding; (try dsimp only) <;> (try (repeat' split) <;> first | exact hs | (simp (maxDischargeDepth := 40) [*]; done) | (simp +contextual (maxDischargeDepth := 40) [*]; done))
@[simp] theorem decideStanding_track (own : Station) (snap : Snapshot) (digest : BitVec 32) (senders : List DigestSender) (s : State) (hs : TrackerQuiet b s) : TrackerQuiet b (decideStanding own snap digest senders s) := by
  unfold decideStanding; (try dsimp only) <;> (try (repeat' split) <;> first | exact hs | (simp (maxDischargeDepth := 40) [*]; done) | (simp +contextual (maxDischargeDepth := 40) [*]; done))
@[simp] theorem decideAdoption_track (m : CycleNo) (senders : List DigestSender) (s : State) (hs : TrackerQuiet b s) : TrackerQuiet b (decideAdoption m senders s) := by
  unfold decideAdoption; (try dsimp only) <;> (try (repeat' split) <;> first | exact hs | (simp (maxDischargeDepth := 40) [*]; done) | (simp +contextual (maxDischargeDepth := 40) [*]; done))
@[simp] theorem decide__track (s : State) (hs : TrackerQuiet b s) : TrackerQuiet b (decide_ s) := by
  unfold decide_; (try dsimp only) <;> (try (repeat' split) <;> first | exact hs | (simp (maxDischargeDepth := 40) [*]; done) | (simp +contextual (maxDischargeDepth := 40) [*]; done))
@[simp] theorem carryControl_track (c : Control) (s : State) (hs : TrackerQuiet b s) : TrackerQuiet b (carryControl c s) := by
  unfold carryControl; (try dsimp only) <;> (try (repeat' split) <;> first | exact hs | (simp (maxDischargeDepth := 40) [*]; done) | (simp +contextual (maxDischargeDepth := 40) [*]; done))
@[simp] theorem malformedControl_track (s : State) (hs : TrackerQuiet b s) : TrackerQuiet b (malformedControl s) := by
  unfold malformedControl; (try dsimp only) <;> (try (repeat' split) <;> first | exact hs | (simp (maxDischargeDepth := 40) [*]; done) | (simp +contextual (maxDischargeDepth := 40) [*]; done))
@[simp] theorem takeControl_track (c : Control) (s : State) (hs : TrackerQuiet b s) : TrackerQuiet b (takeControl c s) := by
  unfold takeControl; (try dsimp only) <;> (try (repeat' split) <;> first | exact hs | (simp (maxDischargeDepth := 40) [*]; done) | (simp +contextual (maxDischargeDepth := 40) [*]; done))
@[simp] theorem controlFrame_track (sender : Station) (p : List Byte) (s : State) (hs : TrackerQuiet b s) : TrackerQuiet b (controlFrame sender p s) := by
  unfold controlFrame; (try dsimp only) <;> (try (repeat' split) <;> first | exact hs | (simp (maxDischargeDepth := 40) [*]; done) | (simp +contextual (maxDischargeDepth := 40) [*]; done))
@[simp] theorem reapplyControls_track (l : List Control) (s : State) (hs : TrackerQuiet b s) : TrackerQuiet b (reapplyControls l s) := by
  induction l generalizing s with
  | nil => exact hs
  | cons a l ih => unfold reapplyControls; simp +contextual (maxDischargeDepth := 40) [*]
@[simp] theorem replaceTable_track (records : List SegmentRecord) (age : Nat) (s : State) (hs : TrackerQuiet b s) : TrackerQuiet b (replaceTable records age s) := by
  unfold replaceTable; (try dsimp only) <;> (try (repeat' split) <;> first | exact hs | (simp (maxDischargeDepth := 40) [*]; done) | (simp +contextual (maxDischargeDepth := 40) [*]; done))
@[simp] theorem endTransfer_track (donor : Station) (s : State) (hs : TrackerQuiet b s) : TrackerQuiet b (endTransfer donor s) := by
  unfold endTransfer; (try dsimp only) <;> (try (repeat' split) <;> first | exact hs | (simp (maxDischargeDepth := 40) [*]; done) | (simp +contextual (maxDischargeDepth := 40) [*]; done))
@[simp] theorem completeTransfer_track (donor : Station) (row : RowFrame) (buffer : List SegmentRecord) (s : State) (hs : TrackerQuiet b s) : TrackerQuiet b (completeTransfer donor row buffer s) := by
  unfold completeTransfer; (try dsimp only) <;> (try (repeat' split) <;> first | exact hs | (simp (maxDischargeDepth := 40) [*]; done) | (simp +contextual (maxDischargeDepth := 40) [*]; done))
@[simp] theorem ignoreRow_track (s : State) (hs : TrackerQuiet b s) : TrackerQuiet b (ignoreRow s) := by
  unfold ignoreRow; (try dsimp only) <;> (try (repeat' split) <;> first | exact hs | (simp (maxDischargeDepth := 40) [*]; done) | (simp +contextual (maxDischargeDepth := 40) [*]; done))
@[simp] theorem takeRow_track (donor : Station) (cycle : Option CycleNo) (digest : BitVec 32) (nextFirst : Nat) (buffer : List SegmentRecord) (row : RowFrame) (s : State) (hs : TrackerQuiet b s) : TrackerQuiet b (takeRow donor cycle digest nextFirst buffer row s) := by
  unfold takeRow; (try dsimp only) <;> (try (repeat' split) <;> first | exact hs | (simp (maxDischargeDepth := 40) [*]; done) | (simp +contextual (maxDischargeDepth := 40) [*]; done))
@[simp] theorem rowFrame_track (sender : Station) (own : Bool) (p : List Byte) (s : State) (hs : TrackerQuiet b s) : TrackerQuiet b (rowFrame sender own p s) := by
  unfold rowFrame; (try dsimp only) <;> (try (repeat' split) <;> first | exact hs | (simp (maxDischargeDepth := 40) [*]; done) | (simp +contextual (maxDischargeDepth := 40) [*]; done))
@[simp] theorem laneNotice_track (l : Lane) (e : LaneEvent) (s : State) (hs : TrackerQuiet b s) : TrackerQuiet b (laneNotice l e s) := by
  unfold laneNotice; (try dsimp only) <;> (try (repeat' split) <;> first | exact hs | (simp (maxDischargeDepth := 40) [*]; done) | (simp +contextual (maxDischargeDepth := 40) [*]; done))
@[simp] theorem setRun_track (l : Lane) (run : Nat) (s : State) (hs : TrackerQuiet b s) : TrackerQuiet b (setRun l run s) := by
  unfold setRun; (try dsimp only) <;> (try (repeat' split) <;> first | exact hs | (simp (maxDischargeDepth := 40) [*]; done) | (simp +contextual (maxDischargeDepth := 40) [*]; done))
@[simp] theorem laneFailed_track (l : Lane) (s : State) (hs : TrackerQuiet b s) : TrackerQuiet b (laneFailed l s) := by
  unfold laneFailed; (try dsimp only) <;> (try (repeat' split) <;> first | exact hs | (simp (maxDischargeDepth := 40) [*]; done) | (simp +contextual (maxDischargeDepth := 40) [*]; done))
@[simp] theorem laneSent_track (l : Lane) (s : State) (hs : TrackerQuiet b s) : TrackerQuiet b (laneSent l s) := by
  unfold laneSent; (try dsimp only) <;> (try (repeat' split) <;> first | exact hs | (simp (maxDischargeDepth := 40) [*]; done) | (simp +contextual (maxDischargeDepth := 40) [*]; done))
@[simp] theorem logoutOutcome_track (wasSent : Bool) (s : State) (hs : TrackerQuiet b s) : TrackerQuiet b (logoutOutcome wasSent s) := by
  unfold logoutOutcome; (try dsimp only) <;> (try (repeat' split) <;> first | exact hs | (simp (maxDischargeDepth := 40) [*]; done) | (simp +contextual (maxDischargeDepth := 40) [*]; done))
@[simp] theorem raiseResult_track (delivered : Bool) (c : Control) (cause : Option FailCause) (retries : Nat) (s : State) (hs : TrackerQuiet b s) : TrackerQuiet b (raiseResult delivered c cause retries s) := by
  unfold raiseResult; (try dsimp only) <;> (try (repeat' split) <;> first | exact hs | (simp (maxDischargeDepth := 40) [*]; done) | (simp +contextual (maxDischargeDepth := 40) [*]; done))
@[simp] theorem controlResult_track (delivered : Bool) (c : Control) (cause : Option FailCause) (retries : Nat) (s : State) (hs : TrackerQuiet b s) : TrackerQuiet b (controlResult delivered c cause retries s) := by
  unfold controlResult; (try dsimp only) <;> (try (repeat' split) <;> first | exact hs | (simp (maxDischargeDepth := 40) [*]; done) | (simp +contextual (maxDischargeDepth := 40) [*]; done))
@[simp] theorem controlOutcome_track (ref : Nat) (wasSent : Bool) (cause : Option FailCause) (retries : Nat) (s : State) (hs : TrackerQuiet b s) : TrackerQuiet b (controlOutcome ref wasSent cause retries s) := by
  unfold controlOutcome; (try dsimp only) <;> (try (repeat' split) <;> first | exact hs | (simp (maxDischargeDepth := 40) [*]; done) | (simp +contextual (maxDischargeDepth := 40) [*]; done))
@[simp] theorem pulseOutcome_track (ref : Nat) (wasSent : Bool) (stamp : Tag) (s : State) (hs : TrackerQuiet b s) : TrackerQuiet b (pulseOutcome ref wasSent stamp s) := by
  unfold pulseOutcome; (try dsimp only) <;> (try (repeat' split) <;> first | exact hs | (simp (maxDischargeDepth := 40) [*]; done) | (simp +contextual (maxDischargeDepth := 40) [*]; done))
@[simp] theorem digestOutcome_track (wasSent : Bool) (s : State) (hs : TrackerQuiet b s) : TrackerQuiet b (digestOutcome wasSent s) := by
  unfold digestOutcome; (try dsimp only) <;> (try (repeat' split) <;> first | exact hs | (simp (maxDischargeDepth := 40) [*]; done) | (simp +contextual (maxDischargeDepth := 40) [*]; done))
@[simp] theorem reportOutcome_track (c : CurrentFrame) (wasSent : Bool) (stamp : Tag) (s : State) (hs : TrackerQuiet b s) : TrackerQuiet b (reportOutcome c wasSent stamp s) := by
  unfold reportOutcome; (try dsimp only) <;> (try (repeat' split) <;> first | exact hs | (simp (maxDischargeDepth := 40) [*]; done) | (simp +contextual (maxDischargeDepth := 40) [*]; done))
@[simp] theorem restartPresence_track (s : State) (hs : TrackerQuiet b s) : TrackerQuiet b (restartPresence s) := by
  unfold restartPresence; (try dsimp only) <;> (try (repeat' split) <;> first | exact hs | (simp (maxDischargeDepth := 40) [*]; done) | (simp +contextual (maxDischargeDepth := 40) [*]; done))
@[simp] theorem removeCurrent_track (c : CurrentFrame) (wasSent : Bool) (s : State) (hs : TrackerQuiet b s) : TrackerQuiet b (removeCurrent c wasSent s) := by
  unfold removeCurrent; (try dsimp only) <;> (try (repeat' split) <;> first | exact hs | (simp (maxDischargeDepth := 40) [*]; done) | (simp +contextual (maxDischargeDepth := 40) [*]; done))
@[simp] theorem tellOutcome_track (c : CurrentFrame) (wasSent : Bool) (stamp : Tag) (s : State) (hs : TrackerQuiet b s) : TrackerQuiet b (tellOutcome c wasSent stamp s) := by
  unfold tellOutcome; (try dsimp only) <;> (try (repeat' split) <;> first | exact hs | (simp (maxDischargeDepth := 40) [*]; done) | (simp +contextual (maxDischargeDepth := 40) [*]; done))
@[simp] theorem tellSent_track (c : CurrentFrame) (stamp : Tag) (s : State) (hs : TrackerQuiet b s) : TrackerQuiet b (tellSent c stamp s) := by
  unfold tellSent; (try dsimp only) <;> (try (repeat' split) <;> first | exact hs | (simp (maxDischargeDepth := 40) [*]; done) | (simp +contextual (maxDischargeDepth := 40) [*]; done))
@[simp] theorem endSent_track (c : CurrentFrame) (stamp : Tag) (s : State) (hs : TrackerQuiet b s) : TrackerQuiet b (endSent c stamp s) := by
  unfold endSent; (try dsimp only) <;> (try (repeat' split) <;> first | exact hs | (simp (maxDischargeDepth := 40) [*]; done) | (simp +contextual (maxDischargeDepth := 40) [*]; done))
@[simp] theorem endDropped_track (c : CurrentFrame) (cause : FailCause) (s : State) (hs : TrackerQuiet b s) : TrackerQuiet b (endDropped c cause s) := by
  unfold endDropped; (try dsimp only) <;> (try (repeat' split) <;> first | exact hs | (simp (maxDischargeDepth := 40) [*]; done) | (simp +contextual (maxDischargeDepth := 40) [*]; done))
@[simp] theorem beginRetry_track (c : CurrentFrame) (cause : FailCause) (s : State) (hs : TrackerQuiet b s) : TrackerQuiet b (beginRetry c cause s) := by
  unfold beginRetry; (try dsimp only) <;> (try (repeat' split) <;> first | exact hs | (simp (maxDischargeDepth := 40) [*]; done) | (simp +contextual (maxDischargeDepth := 40) [*]; done))
@[simp] theorem retryOrDrop_track (c : CurrentFrame) (cause : FailCause) (s : State) (hs : TrackerQuiet b s) : TrackerQuiet b (retryOrDrop c cause s) := by
  unfold retryOrDrop; (try dsimp only) <;> (try (repeat' split) <;> first | exact hs | (simp (maxDischargeDepth := 40) [*]; done) | (simp +contextual (maxDischargeDepth := 40) [*]; done))
@[simp] theorem attemptFailed_track (c : CurrentFrame) (cause : FailCause) (s : State) (hs : TrackerQuiet b s) : TrackerQuiet b (attemptFailed c cause s) := by
  unfold attemptFailed; (try dsimp only) <;> (try (repeat' split) <;> first | exact hs | (simp (maxDischargeDepth := 40) [*]; done) | (simp +contextual (maxDischargeDepth := 40) [*]; done))
@[simp] theorem attemptSucceeded_track (c : CurrentFrame) (stamp : Tag) (s : State) (hs : TrackerQuiet b s) : TrackerQuiet b (attemptSucceeded c stamp s) := by
  unfold attemptSucceeded; (try dsimp only) <;> (try (repeat' split) <;> first | exact hs | (simp (maxDischargeDepth := 40) [*]; done) | (simp +contextual (maxDischargeDepth := 40) [*]; done))
@[simp] theorem breakFrame_track (l : Lane) (idleFrom : Nat) (s : State) (hs : TrackerQuiet b s) : TrackerQuiet b (breakFrame l idleFrom s) := by
  unfold breakFrame; (try dsimp only) <;> (try (repeat' split) <;> first | exact hs | (simp (maxDischargeDepth := 40) [*]; done) | (simp +contextual (maxDischargeDepth := 40) [*]; done))
@[simp] theorem startFrame_track (l : Lane) (s : State) (hs : TrackerQuiet b s) : TrackerQuiet b (startFrame l s) := by
  unfold startFrame; (try dsimp only) <;> (try (repeat' split) <;> first | exact hs | (simp (maxDischargeDepth := 40) [*]; done) | (simp +contextual (maxDischargeDepth := 40) [*]; done))
@[simp] theorem completeFrame_track (l : Lane) (f : RxFrame) (s : State) (hs : TrackerQuiet b s) : TrackerQuiet b (completeFrame l f s) := by
  unfold completeFrame; (try dsimp only) <;> (try (repeat' split) <;> first | exact hs | (simp (maxDischargeDepth := 40) [*]; done) | (simp +contextual (maxDischargeDepth := 40) [*]; done))
@[simp] theorem unmarkEcho_track (l : Lane) (s : State) (hs : TrackerQuiet b s) : TrackerQuiet b (unmarkEcho l s) := by
  unfold unmarkEcho; (try dsimp only) <;> (try (repeat' split) <;> first | exact hs | (simp (maxDischargeDepth := 40) [*]; done) | (simp +contextual (maxDischargeDepth := 40) [*]; done))
@[simp] theorem echoFailed_track (c : CurrentFrame) (cause : FailCause) (s : State) (hs : TrackerQuiet b s) : TrackerQuiet b (echoFailed c cause s) := by
  unfold echoFailed; (try dsimp only) <;> (try (repeat' split) <;> first | exact hs | (simp (maxDischargeDepth := 40) [*]; done) | (simp +contextual (maxDischargeDepth := 40) [*]; done))
@[simp] theorem hearBytes_track (rest : RestingLane) (s : State) (hs : TrackerQuiet b s) : TrackerQuiet b (hearBytes rest s) := by
  unfold hearBytes; (try dsimp only) <;> (try (repeat' split) <;> first | exact hs | (simp (maxDischargeDepth := 40) [*]; done) | (simp +contextual (maxDischargeDepth := 40) [*]; done))
@[simp] theorem beginTransmit_track (c : CurrentFrame) (s : State) (hs : TrackerQuiet b s) : TrackerQuiet b (beginTransmit c s) := by
  unfold beginTransmit; (try dsimp only) <;> (try (repeat' split) <;> first | exact hs | (simp (maxDischargeDepth := 40) [*]; done) | (simp +contextual (maxDischargeDepth := 40) [*]; done))
@[simp] theorem strayEdge_track (s : State) (hs : TrackerQuiet b s) : TrackerQuiet b (strayEdge s) := by
  unfold strayEdge; (try dsimp only) <;> (try (repeat' split) <;> first | exact hs | (simp (maxDischargeDepth := 40) [*]; done) | (simp +contextual (maxDischargeDepth := 40) [*]; done))
@[simp] theorem beginCycle_track (s : State) (hs : TrackerQuiet b s) : TrackerQuiet b (beginCycle s) := by
  unfold beginCycle; (try dsimp only) <;> (try (repeat' split) <;> first | exact hs | (simp (maxDischargeDepth := 40) [*]; done) | (simp +contextual (maxDischargeDepth := 40) [*]; done))
@[simp] theorem cutHitFrame_track (s : State) (hs : TrackerQuiet b s) : TrackerQuiet b (cutHitFrame s) := by
  unfold cutHitFrame; (try dsimp only) <;> (try (repeat' split) <;> first | exact hs | (simp (maxDischargeDepth := 40) [*]; done) | (simp +contextual (maxDischargeDepth := 40) [*]; done))
@[simp] theorem cycleFlagNotice_track (t : Tracker) (cause : CloseCause) (s : State) (hs : TrackerQuiet b s) : TrackerQuiet b (cycleFlagNotice t cause s) := by
  unfold cycleFlagNotice; (try dsimp only) <;> (try (repeat' split) <;> first | exact hs | (simp (maxDischargeDepth := 40) [*]; done) | (simp +contextual (maxDischargeDepth := 40) [*]; done))
@[simp] theorem closeHits_track (s : State) (hs : TrackerQuiet b s) : TrackerQuiet b (closeHits s) := by
  unfold closeHits; (try dsimp only) <;> (try (repeat' split) <;> first | exact hs | (simp (maxDischargeDepth := 40) [*]; done) | (simp +contextual (maxDischargeDepth := 40) [*]; done))
@[simp] theorem closeTables_track (closed : Option CycleNo) (kind : CloseKind) (s : State) (hs : TrackerQuiet b s) : TrackerQuiet b (closeTables closed kind s) := by
  unfold closeTables; (try dsimp only) <;> (try (repeat' split) <;> first | exact hs | (simp (maxDischargeDepth := 40) [*]; done) | (simp +contextual (maxDischargeDepth := 40) [*]; done))
theorem adoptFirst_track (n : CycleNo) (s : State) (hc : s.port.checking = false) (hk : TrackerKind true s.tracker) : TrackerQuiet true (adoptFirst n s) := by
  have h1 : TrackerQuiet true (s.withTracker (adoptedTracker n (s.now + closeDelay s) s.tracker)) := by
    refine ⟨hc, Or.inr ?_⟩
    obtain ⟨k1, k2, k3, k4⟩ := hk
    show TrackerKind true (adoptedTracker n (s.now + closeDelay s) s.tracker)
    unfold adoptedTracker
    split
    · rename_i hp
      exact ⟨fun ho => ⟨rfl, (k1 ho).2⟩, k2, k3, k4⟩
    · rename_i hp
      exact ⟨fun _ => ⟨rfl, by simp [hp]⟩, ⟨fun _ => ⟨rfl, hp⟩, fun _ => rfl⟩, fun _ => ⟨rfl, hp⟩, k4⟩
    · rename_i hp1 hp2
      exact ⟨fun _ => ⟨rfl, hp1⟩, ⟨fun h => ⟨rfl, (k2.1 h).2⟩, fun h => absurd h.2 hp2⟩, fun h => ⟨rfl, (k3 h).2⟩, k4⟩
  unfold adoptFirst; dsimp only
  split
  · exact beginCycle_track _ h1
  · exact h1
theorem joinAdopt_track (n : CycleNo) (s : State) (hs : TrackerQuiet true s) (hf : s.member.station ≠ .frozen) : TrackerQuiet true (joinAdopt n s) := by
  have hk := hs.2.resolve_left hf
  unfold joinAdopt
  exact usingConfig_at_track _ _ _ ⟨hs.1, Or.inr hk⟩ (adoptFirst_track n _ hs.1 hk)
@[simp] theorem holdBack_track (st : Station) (s : State) (hs : TrackerQuiet b s) : TrackerQuiet b (holdBack st s) := by
  unfold holdBack; (try dsimp only) <;> (try (repeat' split) <;> first | exact hs | (simp (maxDischargeDepth := 40) [*]; done) | (simp +contextual (maxDischargeDepth := 40) [*]; done))
@[simp] theorem setSilence_track (st : Station) (s : State) (hs : TrackerQuiet b s) : TrackerQuiet b (setSilence st s) := by
  unfold setSilence; (try dsimp only) <;> (try (repeat' split) <;> first | exact hs | (simp (maxDischargeDepth := 40) [*]; done) | (simp +contextual (maxDischargeDepth := 40) [*]; done))
@[simp] theorem restartSilence_track (st : Station) (s : State) (hs : TrackerQuiet b s) : TrackerQuiet b (restartSilence st s) := by
  unfold restartSilence; (try dsimp only) <;> (try (repeat' split) <;> first | exact hs | (simp (maxDischargeDepth := 40) [*]; done) | (simp +contextual (maxDischargeDepth := 40) [*]; done))
@[simp] theorem recordChanged_track (st : Station) (old new : PeerState) (s : State) (hs : TrackerQuiet b s) : TrackerQuiet b (recordChanged st old new s) := by
  unfold recordChanged; (try dsimp only) <;> (try (repeat' split) <;> first | exact hs | (simp (maxDischargeDepth := 40) [*]; done) | (simp +contextual (maxDischargeDepth := 40) [*]; done))
@[simp] theorem storeTaken_track (k : FrameKind) (st : Station) (f : RxFrame) (s : State) (hs : TrackerQuiet b s) : TrackerQuiet b (storeTaken k st f s) := by
  unfold storeTaken; (try dsimp only) <;> (try (repeat' split) <;> first | exact hs | (simp (maxDischargeDepth := 40) [*]; done) | (simp +contextual (maxDischargeDepth := 40) [*]; done))
@[simp] theorem enterRecord_track (k : FrameKind) (st : Station) (f : RxFrame) (s : State) (hs : TrackerQuiet b s) : TrackerQuiet b (enterRecord k st f s) := by
  unfold enterRecord; (try dsimp only) <;> (try (repeat' split) <;> first | exact hs | (simp (maxDischargeDepth := 40) [*]; done) | (simp +contextual (maxDischargeDepth := 40) [*]; done))
@[simp] theorem takeRecord_track (k : FrameKind) (st : Station) (f : RxFrame) (s : State) (hs : TrackerQuiet b s) : TrackerQuiet b (takeRecord k st f s) := by
  unfold takeRecord; (try dsimp only) <;> (try (repeat' split) <;> first | exact hs | (simp (maxDischargeDepth := 40) [*]; done) | (simp +contextual (maxDischargeDepth := 40) [*]; done))
@[simp] theorem handToBlocks_track (k : FrameKind) (st : Station) (f : RxFrame) (s : State) (hs : TrackerQuiet b s) : TrackerQuiet b (handToBlocks k st f s) := by
  unfold handToBlocks; (try dsimp only) <;> (try (repeat' split) <;> first | exact hs | (simp (maxDischargeDepth := 40) [*]; done) | (simp +contextual (maxDischargeDepth := 40) [*]; done))
@[simp] theorem handOn_track (k : FrameKind) (st : Station) (f : RxFrame) (s : State) (hs : TrackerQuiet b s) : TrackerQuiet b (handOn k st f s) := by
  unfold handOn; (try dsimp only) <;> (try (repeat' split) <;> first | exact hs | (simp (maxDischargeDepth := 40) [*]; done) | (simp +contextual (maxDischargeDepth := 40) [*]; done))
theorem joinAndHandOn_track (k : FrameKind) (st : Station) (f : RxFrame) (s : State) (hs : TrackerQuiet true s) : TrackerQuiet true (joinAndHandOn k st f s) := by
  unfold joinAndHandOn
  split
  · rename_i n hn
    have hj : s.member.station ≠ .frozen := by
      unfold joinNumber at hn
      split at hn
      · rename_i hc; rw [hc.1]; decide
      · cases hn
    exact unlessFrozen_track _ _ (fun t ht => handOn_track _ _ _ _ ht) (joinAdopt_track n _ hs hj)
  · exact handOn_track _ _ _ _ hs
theorem memberFrame_track (k : FrameKind) (st : Station) (f : RxFrame) (s : State) (hs : TrackerQuiet true s) : TrackerQuiet true (memberFrame k st f s) := by
  unfold memberFrame
  split
  · exact holdBack_track _ _ hs
  · exact unlessFrozen_track _ _ (fun t ht => joinAndHandOn_track k st f t ht) (takeRecord_track k st f s hs)
@[simp] theorem rejectFrame_track (l : Lane) (s : State) (hs : TrackerQuiet b s) : TrackerQuiet b (rejectFrame l s) := by
  unfold rejectFrame; (try dsimp only) <;> (try (repeat' split) <;> first | exact hs | (simp (maxDischargeDepth := 40) [*]; done) | (simp +contextual (maxDischargeDepth := 40) [*]; done))
@[simp] theorem countAccepted_track (l : Lane) (k : FrameKind) (st : Station) (s : State) (hs : TrackerQuiet b s) : TrackerQuiet b (countAccepted l k st s) := by
  unfold countAccepted; (try dsimp only) <;> (try (repeat' split) <;> first | exact hs | (simp (maxDischargeDepth := 40) [*]; done) | (simp +contextual (maxDischargeDepth := 40) [*]; done))
theorem acceptFrame_track (l : Lane) (f : RxFrame) (s : State) (hs : TrackerQuiet true s) : TrackerQuiet true (acceptFrame l f s) := by
  unfold acceptFrame
  split
  · simp [hs]
  · split
    · simp [hs]
    · exact memberFrame_track _ _ _ _ (by simp [hs])
@[simp] theorem beginHandling_track (l : Lane) (f : RxFrame) (s : State) (hs : TrackerQuiet b s) : TrackerQuiet b (beginHandling l f s) := by
  unfold beginHandling; (try dsimp only) <;> (try (repeat' split) <;> first | exact hs | (simp (maxDischargeDepth := 40) [*]; done) | (simp +contextual (maxDischargeDepth := 40) [*]; done))
@[simp] theorem endHandling_track (s : State) (hs : TrackerQuiet b s) : TrackerQuiet b (endHandling s) := by
  unfold endHandling; (try dsimp only) <;> (try (repeat' split) <;> first | exact hs | (simp (maxDischargeDepth := 40) [*]; done) | (simp +contextual (maxDischargeDepth := 40) [*]; done))
theorem handOut_track (l : Lane) (f : RxFrame) (s : State) (hs : TrackerQuiet true s) : TrackerQuiet true (handOut l f s) := by
  unfold handOut
  exact endHandling_track _ (usingConfig_track _ _ _ (fun t ht => acceptFrame_track l f t ht) (beginHandling_track _ _ _ hs))
theorem handleFrame_track (l : Lane) (f : RxFrame) (s : State) (hs : TrackerQuiet true s) : TrackerQuiet true (handleFrame l f s) := by
  unfold handleFrame
  split
  · simp [hs]
  · exact handOut_track l f s hs

@[simp] theorem judgeCommand_track (c : PortCommand) (inRange : Bool) (reply : List Byte) (s : State) (hs : TrackerQuiet b s) : TrackerQuiet b (judgeCommand c inRange reply s) := by
  unfold judgeCommand; (try dsimp only) <;> (try (repeat' split) <;> first | exact hs | (simp (maxDischargeDepth := 40) [*]; done) | (simp +contextual (maxDischargeDepth := 40) [*]; done))
@[simp] theorem removeNotice_track (returned : Bool) (bytesOut : Nat) (s : State) (hs : TrackerQuiet b s) : TrackerQuiet b (removeNotice returned bytesOut s) := by
  unfold removeNotice; (try dsimp only) <;> (try (repeat' split) <;> first | exact hs | (simp (maxDischargeDepth := 40) [*]; done) | (simp +contextual (maxDischargeDepth := 40) [*]; done))
@[simp] theorem controlTaken_track (c : Control) (ref : Nat) (s : State) (hs : TrackerQuiet b s) : TrackerQuiet b (controlTaken c ref s) := by
  unfold controlTaken; (try dsimp only) <;> (try (repeat' split) <;> first | exact hs | (simp (maxDischargeDepth := 40) [*]; done) | (simp +contextual (maxDischargeDepth := 40) [*]; done))
@[simp] theorem requestControl_track (c : Control) (s : State) (hs : TrackerQuiet b s) : TrackerQuiet b (requestControl c s) := by
  unfold requestControl; (try dsimp only) <;> (try (repeat' split) <;> first | exact hs | (simp (maxDischargeDepth := 40) [*]; done) | (simp +contextual (maxDischargeDepth := 40) [*]; done))
@[simp] theorem clearRecord_track (s : State) (hs : TrackerQuiet b s) : TrackerQuiet b (clearRecord s) := by
  unfold clearRecord; (try dsimp only) <;> (try (repeat' split) <;> first | exact hs | (simp (maxDischargeDepth := 40) [*]; done) | (simp +contextual (maxDischargeDepth := 40) [*]; done))
@[simp] theorem lateCommand_track (c : PortCommand) (s : State) (hs : TrackerQuiet b s) : TrackerQuiet b (lateCommand c s) := by
  unfold lateCommand; (try dsimp only) <;> (try (repeat' split) <;> first | exact hs | (simp (maxDischargeDepth := 40) [*]; done) | (simp +contextual (maxDischargeDepth := 40) [*]; done))
@[simp] theorem keepCapture_track (c : Channel) (s : State) (hs : TrackerQuiet b s) : TrackerQuiet b (keepCapture c s) := by
  unfold keepCapture; (try dsimp only) <;> (try (repeat' split) <;> first | exact hs | (simp (maxDischargeDepth := 40) [*]; done) | (simp +contextual (maxDischargeDepth := 40) [*]; done))
@[simp] theorem countDetected_track (s : State) (hs : TrackerQuiet b s) : TrackerQuiet b (countDetected s) := by
  unfold countDetected; (try dsimp only) <;> (try (repeat' split) <;> first | exact hs | (simp (maxDischargeDepth := 40) [*]; done) | (simp +contextual (maxDischargeDepth := 40) [*]; done))
@[simp] theorem startHit_track (c : Channel) (h : OpenHit) (s : State) (hs : TrackerQuiet b s) : TrackerQuiet b (startHit c h s) := by
  unfold startHit; (try dsimp only) <;> (try (repeat' split) <;> first | exact hs | (simp (maxDischargeDepth := 40) [*]; done) | (simp +contextual (maxDischargeDepth := 40) [*]; done))
@[simp] theorem appendOwnHit_track (c : Channel) (h : OpenHit) (f : Features) (s : State) (hs : TrackerQuiet b s) : TrackerQuiet b (appendOwnHit c h f s) := by
  unfold appendOwnHit; (try dsimp only) <;> (try (repeat' split) <;> first | exact hs | (simp (maxDischargeDepth := 40) [*]; done) | (simp +contextual (maxDischargeDepth := 40) [*]; done))
@[simp] theorem completeHit_track (c : Channel) (h : OpenHit) (f : Features) (s : State) (hs : TrackerQuiet b s) : TrackerQuiet b (completeHit c h f s) := by
  unfold completeHit; (try dsimp only) <;> (try (repeat' split) <;> first | exact hs | (simp (maxDischargeDepth := 40) [*]; done) | (simp +contextual (maxDischargeDepth := 40) [*]; done))
@[simp] theorem endHit_track (c : Channel) (long : Bool) (h : OpenHit) (s : State) (hs : TrackerQuiet b s) : TrackerQuiet b (endHit c long h s) := by
  unfold endHit; (try dsimp only) <;> (try (repeat' split) <;> first | exact hs | (simp (maxDischargeDepth := 40) [*]; done) | (simp +contextual (maxDischargeDepth := 40) [*]; done))
@[simp] theorem hitSample_track (c : Channel) (env : Nat) (h : OpenHit) (s : State) (hs : TrackerQuiet b s) : TrackerQuiet b (hitSample c env h s) := by
  unfold hitSample; (try dsimp only) <;> (try (repeat' split) <;> first | exact hs | (simp (maxDischargeDepth := 40) [*]; done) | (simp +contextual (maxDischargeDepth := 40) [*]; done))
@[simp] theorem quietSample_track (c : Channel) (env : Nat) (s : State) (hs : TrackerQuiet b s) : TrackerQuiet b (quietSample c env s) := by
  unfold quietSample; (try dsimp only) <;> (try (repeat' split) <;> first | exact hs | (simp (maxDischargeDepth := 40) [*]; done) | (simp +contextual (maxDischargeDepth := 40) [*]; done))
@[simp] theorem sampleStep_track (c : Channel) (env : Nat) (s : State) (hs : TrackerQuiet b s) : TrackerQuiet b (sampleStep c env s) := by
  unfold sampleStep; (try dsimp only) <;> (try (repeat' split) <;> first | exact hs | (simp (maxDischargeDepth := 40) [*]; done) | (simp +contextual (maxDischargeDepth := 40) [*]; done))
@[simp] theorem takeSample_track (c : Channel) (value : Half) (s : State) (hs : TrackerQuiet b s) : TrackerQuiet b (takeSample c value s) := by
  unfold takeSample; (try dsimp only) <;> (try (repeat' split) <;> first | exact hs | (simp (maxDischargeDepth := 40) [*]; done) | (simp +contextual (maxDischargeDepth := 40) [*]; done))
@[simp] theorem endLockout_track (c : Channel) (s : State) (hs : TrackerQuiet b s) : TrackerQuiet b (endLockout c s) := by
  unfold endLockout; (try dsimp only) <;> (try (repeat' split) <;> first | exact hs | (simp (maxDischargeDepth := 40) [*]; done) | (simp +contextual (maxDischargeDepth := 40) [*]; done))
@[simp] theorem tellLoss_track (u : ChannelUnit) (s : State) (hs : TrackerQuiet b s) : TrackerQuiet b (tellLoss u s) := by
  unfold tellLoss; (try dsimp only) <;> (try (repeat' split) <;> first | exact hs | (simp (maxDischargeDepth := 40) [*]; done) | (simp +contextual (maxDischargeDepth := 40) [*]; done))
@[simp] theorem loseChannel_track (c : Channel) (s : State) (hs : TrackerQuiet b s) : TrackerQuiet b (loseChannel c s) := by
  unfold loseChannel; (try dsimp only) <;> (try (repeat' split) <;> first | exact hs | (simp (maxDischargeDepth := 40) [*]; done) | (simp +contextual (maxDischargeDepth := 40) [*]; done))
@[simp] theorem afterLoss_track (c : Channel) (u : ChannelUnit) (s : State) (hs : TrackerQuiet b s) : TrackerQuiet b (afterLoss c u s) := by
  unfold afterLoss; (try dsimp only) <;> (try (repeat' split) <;> first | exact hs | (simp (maxDischargeDepth := 40) [*]; done) | (simp +contextual (maxDischargeDepth := 40) [*]; done))
@[simp] theorem sampleLost_track (c : Channel) (s : State) (hs : TrackerQuiet b s) : TrackerQuiet b (sampleLost c s) := by
  unfold sampleLost; (try dsimp only) <;> (try (repeat' split) <;> first | exact hs | (simp (maxDischargeDepth := 40) [*]; done) | (simp +contextual (maxDischargeDepth := 40) [*]; done))
@[simp] theorem recoverChannel_track (c : Channel) (last : Tag) (s : State) (hs : TrackerQuiet b s) : TrackerQuiet b (recoverChannel c last s) := by
  unfold recoverChannel; (try dsimp only) <;> (try (repeat' split) <;> first | exact hs | (simp (maxDischargeDepth := 40) [*]; done) | (simp +contextual (maxDischargeDepth := 40) [*]; done))
@[simp] theorem afterRecovery_track (c : Channel) (s : State) (hs : TrackerQuiet b s) : TrackerQuiet b (afterRecovery c s) := by
  unfold afterRecovery; (try dsimp only) <;> (try (repeat' split) <;> first | exact hs | (simp (maxDischargeDepth := 40) [*]; done) | (simp +contextual (maxDischargeDepth := 40) [*]; done))
@[simp] theorem sampleRecovered_track (c : Channel) (last : Tag) (s : State) (hs : TrackerQuiet b s) : TrackerQuiet b (sampleRecovered c last s) := by
  unfold sampleRecovered; (try dsimp only) <;> (try (repeat' split) <;> first | exact hs | (simp (maxDischargeDepth := 40) [*]; done) | (simp +contextual (maxDischargeDepth := 40) [*]; done))
@[simp] theorem endPulseWidth_track (c : Channel) (s : State) (hs : TrackerQuiet b s) : TrackerQuiet b (endPulseWidth c s) := by
  unfold endPulseWidth; (try dsimp only) <;> (try (repeat' split) <;> first | exact hs | (simp (maxDischargeDepth := 40) [*]; done) | (simp +contextual (maxDischargeDepth := 40) [*]; done))
@[simp] theorem endRecovery_track (c : Channel) (s : State) (hs : TrackerQuiet b s) : TrackerQuiet b (endRecovery c s) := by
  unfold endRecovery; (try dsimp only) <;> (try (repeat' split) <;> first | exact hs | (simp (maxDischargeDepth := 40) [*]; done) | (simp +contextual (maxDischargeDepth := 40) [*]; done))
@[simp] theorem takeGap_track (lane : Lane) (c : CurrentFrame) (s : State) (hs : TrackerQuiet b s) : TrackerQuiet b (takeGap lane c s) := by
  unfold takeGap; (try dsimp only) <;> (try (repeat' split) <;> first | exact hs | (simp (maxDischargeDepth := 40) [*]; done) | (simp +contextual (maxDischargeDepth := 40) [*]; done))
@[simp] theorem starve_track (c : CurrentFrame) (dueTag : Tag) (s : State) (hs : TrackerQuiet b s) : TrackerQuiet b (starve c dueTag s) := by
  unfold starve; (try dsimp only) <;> (try (repeat' split) <;> first | exact hs | (simp (maxDischargeDepth := 40) [*]; done) | (simp +contextual (maxDischargeDepth := 40) [*]; done))
@[simp] theorem closeExpired_track (s : State) (hs : TrackerQuiet b s) : TrackerQuiet b (closeExpired s) := by
  unfold closeExpired; (try dsimp only) <;> (try (repeat' split) <;> first | exact hs | (simp (maxDischargeDepth := 40) [*]; done) | (simp +contextual (maxDischargeDepth := 40) [*]; done))
@[simp] theorem takeCloseExpiry_track (s : State) (hs : TrackerQuiet b s) : TrackerQuiet b (takeCloseExpiry s) := by
  unfold takeCloseExpiry; (try dsimp only) <;> (try (repeat' split) <;> first | exact hs | (simp (maxDischargeDepth := 40) [*]; done) | (simp +contextual (maxDischargeDepth := 40) [*]; done))
@[simp] theorem takeSlot_track (tag : Tag) (s : State) (hs : TrackerQuiet b s) : TrackerQuiet b (takeSlot tag s) := by
  unfold takeSlot; (try dsimp only) <;> (try (repeat' split) <;> first | exact hs | (simp (maxDischargeDepth := 40) [*]; done) | (simp +contextual (maxDischargeDepth := 40) [*]; done))
@[simp] theorem endWait_track (s : State) (hs : TrackerQuiet b s) : TrackerQuiet b (endWait s) := by
  unfold endWait; (try dsimp only) <;> (try (repeat' split) <;> first | exact hs | (simp (maxDischargeDepth := 40) [*]; done) | (simp +contextual (maxDischargeDepth := 40) [*]; done))
@[simp] theorem fireChannel_track (c : Channel) (s : State) (hs : TrackerQuiet b s) : TrackerQuiet b (fireChannel c s) := by
  unfold fireChannel; (try dsimp only) <;> (try (repeat' split) <;> first | exact hs | (simp (maxDischargeDepth := 40) [*]; done) | (simp +contextual (maxDischargeDepth := 40) [*]; done))
@[simp] theorem notFired_track (s : State) (hs : TrackerQuiet b s) : TrackerQuiet b (notFired s) := by
  unfold notFired; (try dsimp only) <;> (try (repeat' split) <;> first | exact hs | (simp (maxDischargeDepth := 40) [*]; done) | (simp +contextual (maxDischargeDepth := 40) [*]; done))
@[simp] theorem takeFire_track (s : State) (hs : TrackerQuiet b s) : TrackerQuiet b (takeFire s) := by
  unfold takeFire; (try dsimp only) <;> (try (repeat' split) <;> first | exact hs | (simp (maxDischargeDepth := 40) [*]; done) | (simp +contextual (maxDischargeDepth := 40) [*]; done))
@[simp] theorem beginJudging_track (s : State) (hs : TrackerQuiet b s) : TrackerQuiet b (beginJudging s) := by
  unfold beginJudging; (try dsimp only) <;> (try (repeat' split) <;> first | exact hs | (simp (maxDischargeDepth := 40) [*]; done) | (simp +contextual (maxDischargeDepth := 40) [*]; done))
@[simp] theorem takeEndTag_track (s : State) (hs : TrackerQuiet b s) : TrackerQuiet b (takeEndTag s) := by
  unfold takeEndTag; (try dsimp only) <;> (try (repeat' split) <;> first | exact hs | (simp (maxDischargeDepth := 40) [*]; done) | (simp +contextual (maxDischargeDepth := 40) [*]; done))
@[simp] theorem scrubStep_track (s : State) (hs : TrackerQuiet b s) : TrackerQuiet b (scrubStep s) := by
  unfold scrubStep; (try dsimp only) <;> (try (repeat' split) <;> first | exact hs | (simp (maxDischargeDepth := 40) [*]; done) | (simp +contextual (maxDischargeDepth := 40) [*]; done))
@[simp] theorem beginFrameOn_track (l : Lane) (s : State) (hs : TrackerQuiet b s) : TrackerQuiet b (beginFrameOn l s) := by
  unfold beginFrameOn; (try dsimp only) <;> (try (repeat' split) <;> first | exact hs | (simp (maxDischargeDepth := 40) [*]; done) | (simp +contextual (maxDischargeDepth := 40) [*]; done))
@[simp] theorem goMissing_track (st : Station) (s : State) (hs : TrackerQuiet b s) : TrackerQuiet b (goMissing st s) := by
  unfold goMissing; (try dsimp only) <;> (try (repeat' split) <;> first | exact hs | (simp (maxDischargeDepth := 40) [*]; done) | (simp +contextual (maxDischargeDepth := 40) [*]; done))
@[simp] theorem askPresence_track (s : State) (hs : TrackerQuiet b s) : TrackerQuiet b (askPresence s) := by
  unfold askPresence; (try dsimp only) <;> (try (repeat' split) <;> first | exact hs | (simp (maxDischargeDepth := 40) [*]; done) | (simp +contextual (maxDischargeDepth := 40) [*]; done))
@[simp] theorem judgeReadSegment_track (n : Nat) (s : State) (hs : TrackerQuiet b s) : TrackerQuiet b (judgeReadSegment n s) := by
  unfold judgeReadSegment; (try dsimp only) <;> (try (repeat' split) <;> first | exact hs | (simp (maxDischargeDepth := 40) [*]; done) | (simp +contextual (maxDischargeDepth := 40) [*]; done))
@[simp] theorem readSegmentStep_track (n : Nat) (s : State) (hs : TrackerQuiet b s) : TrackerQuiet b (readSegmentStep n s) := by
  unfold readSegmentStep; (try dsimp only) <;> (try (repeat' split) <;> first | exact hs | (simp (maxDischargeDepth := 40) [*]; done) | (simp +contextual (maxDischargeDepth := 40) [*]; done))
@[simp] theorem judgeControl_track (kind group value mask : Byte) (s : State) (hs : TrackerQuiet b s) : TrackerQuiet b (judgeControl kind group value mask s) := by
  unfold judgeControl; (try dsimp only) <;> (try (repeat' split) <;> first | exact hs | (simp (maxDischargeDepth := 40) [*]; done) | (simp +contextual (maxDischargeDepth := 40) [*]; done))
@[simp] theorem segmentControlStep_track (kind group value mask : Byte) (s : State) (hs : TrackerQuiet b s) : TrackerQuiet b (segmentControlStep kind group value mask s) := by
  unfold segmentControlStep; (try dsimp only) <;> (try (repeat' split) <;> first | exact hs | (simp (maxDischargeDepth := 40) [*]; done) | (simp +contextual (maxDischargeDepth := 40) [*]; done))

/-! ## The operations that write the tracker -/

/-- A freeze keeps the relations whatever the tracker holds: the station is FROZEN. -/
theorem freeze_any (kind : FaultKind) (w : StoreWord) (s : State) (hc : s.port.checking = false) : TrackerQuiet b (freeze kind w s) := by
  unfold freeze
  exact requestUnchecked_track _ _ _ ⟨hc, Or.inl rfl⟩

/-- So does a fault found by a station that is not FROZEN. -/
theorem usingConfig_fresh (offsets : List Nat) (f : State → State) (s : State) (hc : s.port.checking = false) (hf : s.member.station ≠ .frozen) (h : TrackerQuiet b (f s)) : TrackerQuiet b (usingConfig offsets f s) := by
  unfold usingConfig readingConfig
  split
  · split
    · rename_i hl
      unfold readFault
      split
      · exact freeze_any _ _ _ hc
      · exact freeze_any _ _ _ hc
      · rename_i h3; exact absurd h3 hf
      · rename_i h1 h2 h3
        have : s.linkUp = true := hl
        unfold State.linkUp State.atWork at this
        cases hs : s.member.station <;> simp_all
    · exact h
  · exact h

theorem enterPhase_track (p : Phase) (s : State) (hc : s.port.checking = false) (h : TrackerKind b { s.tracker with phase := p }) : TrackerQuiet b (enterPhase p s) := by
  unfold enterPhase
  exact usingConfig_track _ _ _ (fun t ht => offerPolicy_track t ht) ⟨hc, Or.inr h⟩

theorem movePhase_track (p : Phase) (s : State) (hc : s.port.checking = false) (hk : TrackerKind true s.tracker) (h1 : s.tracker.phase ≠ .idle) (h2 : s.tracker.phase ≠ .ret) (h3 : p ≠ .idle) (h4 : p ≠ .ret) : TrackerQuiet true (enterPhase p s) := by
  refine enterPhase_track _ _ hc ?_
  obtain ⟨k1, k2, k3, k4⟩ := hk
  exact ⟨fun ho => ⟨(k1 ho).1, h3⟩, ⟨fun h => absurd (k2.1 h).2 h2, fun h => absurd h.2 h4⟩, fun h => absurd (k3 h).2 h2,
    ⟨fun h => absurd (k4.1 h) h1, fun h => absurd h h3⟩⟩

/-- A close leaves the cycle closed, the settle timer stopped, and the phase and the cycle timer as they were (R13). -/
theorem closeCycle_track (cause : CloseCause) (s : State) (hc : s.port.checking = false) (ht : s.tracker.cycleTimer = .stopped ↔ s.tracker.phase = .idle) : TrackerQuiet false (closeCycle cause s) := by
  unfold closeCycle; dsimp only
  have h : TrackerQuiet false (s.withTracker (closedTracker s.tracker)) := ⟨hc, Or.inr ⟨rfl, rfl, ht⟩⟩
  unfold closeTables
  exact selectNext_track _ (unlessFrozen_track _ _ (fun t ht => agreementClose_track _ _ ht)
    (evidenceClose_track _ _ _ (closeHits_track _ (cycleFlagNotice_track _ _ _ h))))

theorem goIdle_track (s : State) (hc : s.port.checking = false) (ho : s.tracker.isOpen = false) (hs : s.tracker.settle = none) : TrackerQuiet true (goIdle s) := by
  unfold goIdle
  refine enterPhase_track _ _ hc ⟨fun h => ?_, ⟨fun h => ?_, fun h => ?_⟩, fun h => CycleTimer.noConfusion h, ⟨fun _ => rfl, fun _ => rfl⟩⟩
  · exact absurd (ho.symm.trans h) Bool.noConfusion
  · exact absurd ((congrArg Option.isSome hs).symm.trans h) Bool.noConfusion
  · exact absurd h.2 Phase.noConfusion

theorem startCycle_track (s : State) (hc : s.port.checking = false) (ho : s.tracker.isOpen = false) : TrackerQuiet true (startCycle s) := by
  unfold startCycle countCycle; dsimp only
  have hk : ∀ tag, TrackerKind true { countedTracker tag s.tracker with phase := .feed } := by
    intro tag
    unfold countedTracker
    split
    · exact ⟨fun _ => ⟨rfl, Phase.noConfusion⟩, ⟨fun h => Bool.noConfusion h, fun h => absurd h.2 Phase.noConfusion⟩,
        fun h => CycleTimer.noConfusion h, ⟨fun h => CycleTimer.noConfusion h, fun h => Phase.noConfusion h⟩⟩
    · refine ⟨fun h => ?_, ⟨fun h => Bool.noConfusion h, fun h => absurd h.2 Phase.noConfusion⟩,
        fun h => CycleTimer.noConfusion h, ⟨fun h => CycleTimer.noConfusion h, fun h => Phase.noConfusion h⟩⟩
      exact absurd (ho.symm.trans h) Bool.noConfusion
  refine unlessFrozen_track _ _ (fun t ht => couplingCyc_track t ht) (enterPhase_track _ _ ?_ ?_)
  · split <;> exact hc
  · split <;> exact hk _

theorem cycEdge_track (s : State) (hc : s.port.checking = false) (hk : TrackerKind true s.tracker) : TrackerQuiet true (cycEdge s) := by
  have hgo : ∀ t : State, t.port.checking = false → t.member.station ≠ .frozen → t.tracker.isOpen = false →
      TrackerQuiet true (usingConfig [0x04, 0x05] startCycle t) := fun t h1 h2 h3 =>
    usingConfig_fresh _ _ _ h1 h2 (startCycle_track t h1 h3)
  unfold cycEdge earlyClose
  split
  · have h := closeCycle_track .cyc (s.withTracker (flagEarly s.tracker)) hc (by
      show (flagEarly s.tracker).cycleTimer = .stopped ↔ (flagEarly s.tracker).phase = .idle
      unfold flagEarly; split <;> exact hk.2.2.2)
    unfold State.unlessFrozen
    split
    · rename_i hf; exact ⟨h.1, Or.inl hf⟩
    · rename_i hf; exact hgo _ h.1 hf (h.2.resolve_left hf).1
  · rename_i ho
    unfold State.unlessFrozen
    split
    · exact ⟨hc, Or.inr hk⟩
    · rename_i hf; exact hgo _ hc hf (by simpa using ho)

/-- The entry to RETURN starts the settle timer of an open cycle (R6). -/
theorem startSettle_track (t : Tracker) (hk : TrackerKind true t) (hi : t.cycleTimer ≠ .stopped) (hp : t.phase ≠ .ret) (s : State) (hc : s.port.checking = false) (hf : s.member.station ≠ .frozen)
    (ht : s.tracker = { t with phase := .ret }) : TrackerQuiet true (startSettle s) := by
  obtain ⟨k1, k2, k3, k4⟩ := hk
  unfold startSettle
  split
  · rename_i ho
    refine usingConfig_fresh _ _ _ hc hf ⟨hc, Or.inr ?_⟩
    have ho' : t.isOpen = true := by rw [ht] at ho; exact ho
    show TrackerKind true { s.tracker with settle := some (s.now + closeDelay s) }
    rw [ht]
    exact ⟨fun _ => ⟨(k1 ho').1, Phase.noConfusion⟩, ⟨fun _ => ⟨ho', rfl⟩, fun _ => rfl⟩, fun _ => ⟨ho', rfl⟩,
      ⟨fun h => absurd h hi, fun h => Phase.noConfusion h⟩⟩
  · rename_i ho
    have ho' : ¬ t.isOpen = true := by rw [ht] at ho; exact ho
    refine ⟨hc, Or.inr ?_⟩
    rw [ht]
    exact ⟨fun h => absurd h ho', ⟨fun h => absurd (k2.1 h).1 ho', fun h => absurd h.1 ho'⟩,
      fun h => absurd (k3 h).1 ho', ⟨fun h => absurd h hi, fun h => Phase.noConfusion h⟩⟩

theorem enterReturn_track (s : State) (hc : s.port.checking = false) (hk : TrackerKind true s.tracker) (hp : s.tracker.phase = .strip) (hf : s.member.station ≠ .frozen) : TrackerQuiet true (enterReturn s) := by
  unfold enterReturn
  refine unlessFrozen_track _ _ (fun t ht => placeSlot_track t ht) ?_
  have hi : s.tracker.cycleTimer ≠ .stopped := fun h => by rw [hk.2.2.2.1 h] at hp; cases hp
  unfold enterPhase usingConfig readingConfig
  have hgo : ∀ t : State, TrackerQuiet true t → TrackerQuiet false t → TrackerQuiet true (t.unlessFrozen startSettle) := by
    intro t h1 h2
    unfold State.unlessFrozen
    split
    · exact h1
    · rename_i hn
      unfold startSettle
      rw [if_neg (by rw [(h2.2.resolve_left hn).1]; exact Bool.noConfusion)]
      exact h1
  have hlive : TrackerQuiet true ((offerPolicy (s.withTracker { s.tracker with phase := .ret })).unlessFrozen startSettle) := by
    unfold State.unlessFrozen
    split
    · rename_i hn; exact absurd hn hf
    · rename_i hn; exact startSettle_track s.tracker hk hi (by simp [hp]) _ hc hn rfl
  split
  · split
    · rename_i hl
      unfold readFault
      split
      · exact hgo _ (freeze_any _ _ _ hc) (freeze_any _ _ _ hc)
      · exact hgo _ (freeze_any _ _ _ hc) (freeze_any _ _ _ hc)
      · rename_i h3; exact absurd h3 hf
      · rename_i h1 h2 h3
        have hl' : (s.withTracker { s.tracker with phase := .ret }).linkUp = true := hl
        unfold State.linkUp State.atWork at hl'
        cases hs : (s.withTracker { s.tracker with phase := .ret }).member.station <;> simp_all
    · exact hlive
  · exact hlive

theorem disorderly_track (s : State) (hc : s.port.checking = false) (hk : TrackerKind true s.tracker) (h1 : s.tracker.phase ≠ .idle) (h2 : s.tracker.phase ≠ .ret) : TrackerQuiet true (disorderly s) := by
  unfold disorderly flagDisordered
  obtain ⟨k1, k2, k3, k4⟩ := hk
  split <;> exact enterPhase_track _ _ hc ⟨fun ho => ⟨(k1 ho).1, Phase.noConfusion⟩,
    ⟨fun h => absurd (k2.1 h).2 h2, fun h => absurd h.2 Phase.noConfusion⟩, fun h => absurd (k3 h).2 h2,
    ⟨fun h => absurd (k4.1 h) h1, fun h => absurd h Phase.noConfusion⟩⟩

theorem settleClose_track (s : State) (hc : s.port.checking = false) (hk : TrackerKind true s.tracker) : TrackerQuiet true (settleClose s) := by
  unfold settleClose State.unlessFrozen
  have h := closeCycle_track .settle s hc hk.2.2.2
  split
  · rename_i hf; exact ⟨h.1, Or.inl hf⟩
  · rename_i hf
    obtain ⟨h1, h2, h3⟩ := h.2.resolve_left hf
    unfold idleIfExpired
    split
    · exact goIdle_track _ h.1 h1 h2
    · rename_i he
      refine ⟨h.1, Or.inr ⟨fun h' => absurd (h1.symm.trans h') Bool.noConfusion, ⟨fun h' => ?_, fun h' => absurd (h1.symm.trans h'.1) Bool.noConfusion⟩,
        fun h' => absurd h' he, h3⟩⟩
      rw [h2] at h'; cases h'

theorem cycleExpired_track (s : State) (hc : s.port.checking = false) (hk : TrackerKind true s.tracker) (hr : s.tracker.cycleTimer ≠ .stopped) : TrackerQuiet true (cycleExpired s) := by
  have hi : s.tracker.phase ≠ .idle := fun h => hr (hk.2.2.2.2 h)
  unfold cycleExpired
  split
  · rename_i ho
    split
    · rename_i hp
      refine ⟨hc, Or.inr ⟨hk.1, hk.2.1, fun _ => ⟨ho, hp⟩, ⟨fun h => CycleTimer.noConfusion h, fun h => absurd h hi⟩⟩⟩
    · unfold closeByTimer State.unlessFrozen
      have h := closeCycle_track .cycleTimer (s.withTracker { s.tracker with abandoned := true }) hc hk.2.2.2
      split
      · rename_i hf; exact ⟨h.1, Or.inl hf⟩
      · rename_i hf
        obtain ⟨h1, h2, h3⟩ := h.2.resolve_left hf
        exact goIdle_track _ h.1 h1 h2
  · rename_i ho
    refine goIdle_track _ hc (by simpa using ho) ?_
    cases hst : s.tracker.settle with
    | none => rfl
    | some d => exact absurd (hk.2.1.1 (by simp [hst])).1 ho

theorem filEdge_track (s : State) (hc : s.port.checking = false) (hk : TrackerKind true s.tracker) : TrackerQuiet true (filEdge s) := by
  unfold filEdge
  split
  · rename_i hp; exact movePhase_track _ _ hc hk (by simp [hp]) (by simp [hp]) (by decide) (by decide)
  · rename_i hp; exact movePhase_track _ _ hc hk (by simp [hp]) (by simp [hp]) (by decide) (by decide)
  · exact strayEdge_track _ ⟨hc, Or.inr hk⟩

theorem vibEdge_track (s : State) (hc : s.port.checking = false) (hk : TrackerKind true s.tracker) : TrackerQuiet true (vibEdge s) := by
  unfold vibEdge
  split
  · rename_i hp
    refine usingConfig_at_track _ _ _ ⟨hc, Or.inr hk⟩ ?_
    unfold firstShake
    split <;> exact movePhase_track _ _ hc hk (by simp [hp]) (by simp [hp]) (by decide) (by decide)
  · rename_i hp; exact movePhase_track _ _ hc hk (by simp [hp]) (by simp [hp]) (by decide) (by decide)
  · exact strayEdge_track _ ⟨hc, Or.inr hk⟩

theorem strEdge_track (s : State) (hc : s.port.checking = false) (hk : TrackerKind true s.tracker) : TrackerQuiet true (strEdge s) := by
  have hd := disorderly_track s hc hk
  unfold strEdge
  split
  · rename_i hp; exact movePhase_track _ _ hc hk (by simp [hp]) (by simp [hp]) (by decide) (by decide)
  · rename_i hp; exact hd (by simp [hp]) (by simp [hp])
  · rename_i hp; exact hd (by simp [hp]) (by simp [hp])
  · rename_i hp; exact hd (by simp [hp]) (by simp [hp])
  · rename_i hp; exact hd (by simp [hp]) (by simp [hp])
  · exact strayEdge_track _ ⟨hc, Or.inr hk⟩

theorem strFall_track (s : State) (hc : s.port.checking = false) (hk : TrackerKind true s.tracker) (hf : s.member.station ≠ .frozen) : TrackerQuiet true (strFall s) := by
  unfold strFall
  split
  · rename_i hp; exact enterReturn_track s hc hk hp hf
  · exact strayEdge_track _ ⟨hc, Or.inr hk⟩
end Sys2Proof.Machine
end

