-- ==== Sys2Proof/WellFormed.lean ====
section
/-! DEFINITION. Which commands are well formed: whose operands the outside of the block can really give. -/

namespace Sys2Proof

/-- An upset names a bit that its word has: 8 bits in a byte of the configuration block, a segment from 1, and so on.
The widest record has 8 + 2 × 16 bytes (R115, 12.2). -/
def Upset.wf (u : Upset) : Bool :=
  match u.word with
  | .config i => i < 2048 && u.bit < 8
  | .segment n => 1 ≤ n && n ≤ 96 && u.bit < 320
  | .snapshot n => n ≤ 96 && u.bit < 320
  | .window _ => true
  | .applied _ => true

/-- A moment's upsets are well formed, at most one to a word: parity shows one flipped bit (R161). -/
def Moment.wf (m : Moment) : Bool := m.upsets.all Upset.wf && decide (m.upsets.map (·.word)).Nodup

/-- Whether the bytes of a completed frame have the shape the receiver assembles (R42, R56): the two sync bytes, a payload
length of at most 240, and exactly as many bytes as the header announces. -/
def frameShape (bytes : List Byte) : Bool :=
  match bytes with
  | b0 :: b1 :: _ :: _ :: _ :: _ :: _ :: _ :: _ :: _ :: n :: _ =>
    b0 == 0xD5#8 && b1 == 0x6B#8 && n.toNat ≤ 240 && bytes.length == 13 + n.toNat
  | _ => false

/-- The checks on a command's operands, one for each operand that has a limit. -/
def Instr.wf : Instr → Bool
  | .cycRising m => m.wf
  | .filRising m => m.wf
  | .vibRising m => m.wf
  | .strRising m => m.wf
  | .strFalling m => m.wf
  | .settleTimerExpiry m => m.wf
  | .cycleTimerExpiry m => m.wf
  | .sample m _ _ => m.wf
  | .lockoutTimerExpiry m _ => m.wf
  | .sampleLoss m _ => m.wf
  | .sampleRecovery m _ => m.wf
  | .pulseWidthEnd m _ => m.wf
  | .recoveryEnd m _ => m.wf
  | .accessGapReached m _ => m.wf
  | .accessTimerExpiry m => m.wf
  | .attemptSent m => m.wf
  | .echoMismatch m => m.wf
  | .echoTimeout m index => m.wf && index < 253
  | .frameComplete m _ bytes => m.wf && frameShape bytes
  | .frameBroken m _ _ => m.wf
  | .frameHandlerTake m => m.wf
  | .joinTimerExpiry m => m.wf
  | .silenceTimerExpiry m _ => m.wf
  | .presenceTimerExpiry m => m.wf
  | .closeExpiry m => m.wf
  | .publicationDeadline m _ => m.wf
  | .digestWindowExpiry m => m.wf
  | .transferLeadExpiry m => m.wf
  | .slotTagReached m => m.wf
  | .slotWaitEnd m => m.wf
  | .fireTagReached m => m.wf
  | .windowFireTag m => m.wf
  | .endTagReached m => m.wf
  | .scrubRead m => m.wf
  | .logoutTimerExpiry m => m.wf
  | .load m block => m.wf && block.length == 2048
  | .loadCheckComplete m => m.wf
  | .start m => m.wf
  | .restart m => m.wf
  | .status m => m.wf
  | .nextNotice m => m.wf
  | .readSegment m _ => m.wf
  | .readPeer m _ => m.wf
  | .readCoupling m => m.wf
  | .readFault m => m.wf
  | .clearFault m => m.wf
  | .segmentControl m _ _ _ _ => m.wf
  | .selectRise m _ => m.wf
  | .reset => true
  | .powerOn => true
  | .frameStart m _ => m.wf
  | .resetRelease => true
  | .noCommandByte m b => m.wf && (b.toNat == 0 || 11 < b.toNat)

end Sys2Proof
end

