-- ==== Sys2Proof/Tests/Slice0.lean ====
section
/-! SUPPORT. The model's own tests: ill-formed commands, the check codes and layouts, one step of each kind on a small state, and a
state for the hypotheses of every statement. -/

namespace Sys2Proof.Tests

open Sys2Proof Sys2Proof.Machine

set_option maxRecDepth 100000

/-! ## A configuration block, a station, a frame -/

/-- Bytes 00 to 3F of a block: station 4, six segments, history length 4, check period 20, two zones. -/
def parameters : List Byte :=
  ([4, 1, 2, 88, 0, 200, 1, 44, 1, 44, 3, 232, 8, 10, 10, 1] ++ [3, 2, 1, 0, 50, 50, 1, 144, 12, 5, 6, 4, 2, 2, 3, 4]
    ++ [6, 1, 30, 20, 10, 20, 20, 0, 2]) ++ List.replicate 23 0

/-- Bytes 40 to 6F: the eight phase policies and the pulse channels (station 3 knocks on channel 2, station 4 on channel 1). -/
def policies : List Byte :=
  [0, 40, 10, 0, 0, 1, 55, 12, 0, 0, 1, 70, 15, 0, 0, 1, 60, 12, 1, 36] ++ [1, 70, 15, 0, 0, 1, 60, 12, 1, 52]
    ++ [1, 45, 8, 1, 54, 1, 45, 8, 0, 0] ++ [0, 0, 2, 1, 0, 0, 0, 0]

/-- Bytes 70 to 9F and A0 to CF: the coupling values; s4.1 is judged by station 3, s4.2 and s4.3 by station 4. -/
def couplings : List Byte := List.replicate 36 0 ++ [3, 50, 10, 4, 40, 10, 4, 60, 0] ++ List.replicate 3 0
def noCouplings : List Byte := List.replicate 48 0

/-- Bytes D0 to FD: the single-hit segments and two Zone Map entries. -/
def zones : List Byte :=
  (List.replicate 5 [1, 2, 3, 4, 5, 6]).flatten ++ [1, 2] ++ [0x11, 0x12, 0, 0, 0, 100, 3] ++ [0x41, 0x00, 0, 20, 1, 44, 5]

/-- The block's used bytes, and two that bring the check code of what stands before them to 0. -/
def blockHead : List Byte := parameters ++ policies ++ couplings ++ noCouplings ++ zones ++ [0x23, 0xA9]

/-- The whole block: zeros after the head keep its check code at 0. -/
def wholeBlock : List Byte := (blockHead ++ List.replicate 1790 0) ++ [0, 0]

/-- A moment without upsets. -/
def at_ (t : Tag) : Moment := ⟨t, []⟩

/-- A channel in service. -/
def listener : ChannelUnit := { ChannelUnit.reset with state := .quiet, role := .listen, watch := .watching 1000 }

/-- Station 4 in a station state and a press phase, with cycle 20 open. -/
def station (st : StationState) (p : Phase) : State :=
  { State.reset with
    clock := 1000
    tracker := { Tracker.reset with
      phase := p, cycle := some 20, isOpen := true, lastClosed := some 19, cycleTimer := .running 5000
      settle := if p = .ret then some 3000 else none }
    channels := { Channels.reset with units := .all listener }
    member := { Membership.reset with station := st, number := some .s4, fingerprint := some 7 }
    evid := .reset 6
    port := { BoardPort.reset with config := some blockHead, loadResult := .passed } }

/-- Station 4 RUNNING in SHAKE-2. -/
def running : State := station .running .shake2

/-- The state after one step from this command; itself where the step has none. -/
def after (c : Instr) (s : State) : State :=
  match exec c s with
  | .next t => t
  | _ => s

/-- A bit of this word has flipped, and a freeze has set the word aside. -/
def setAside (w : StoreWord) (s : State) : State := s.withFault { s.fault with flipped := [⟨w, 3⟩], faultedWord := some w }

/-! ## Ill-formed commands (WellFormed.lean) -/

theorem test_illFormed_configOffset : (Upset.wf ⟨.config 2048, 0⟩, Upset.wf ⟨.config 2047, 7⟩) = (false, true) := by decide
theorem test_illFormed_configBit : Upset.wf ⟨.config 0, 8⟩ = false := by decide
theorem test_illFormed_segment : (Upset.wf ⟨.segment 0, 0⟩, Upset.wf ⟨.segment 97, 0⟩, Upset.wf ⟨.segment 1, 320⟩,
    Upset.wf ⟨.segment 96, 319⟩) = (false, false, false, true) := by decide
theorem test_illFormed_snapshot : (Upset.wf ⟨.snapshot 97, 0⟩, Upset.wf ⟨.snapshot 0, 320⟩, Upset.wf ⟨.snapshot 0, 0⟩) =
    (false, false, true) := by decide
theorem test_illFormed_twoUpsets : Instr.wf (.scrubRead ⟨0, [⟨.config 1, 0⟩, ⟨.config 1, 3⟩]⟩) = false := by decide
theorem test_illFormed_echoIndex : (Instr.wf (.echoTimeout (at_ 0) 253), Instr.wf (.echoTimeout (at_ 0) 252)) =
    (false, true) := by decide
theorem test_illFormed_frame : Instr.wf (.frameComplete (at_ 0) .x [0xD5, 0x6B, 8]) = false := by decide
theorem test_wellFormed_frame :
    Instr.wf (.frameComplete (at_ 0) .x (frameBytes .pulse 3 0 (some 20) (pulseBytes 2))) = true := by decide
theorem test_wellFormed_restingLane : (Instr.wf (.accessGapReached (at_ 0) ⟨.y, some 5⟩),
    Instr.wf (.accessGapReached ⟨0, [⟨.config 2048, 0⟩]⟩ ⟨.y, none⟩)) = (true, false) := by decide
theorem test_illFormed_load : Instr.wf (.load (at_ 0) [1, 2, 3]) = false := by decide
theorem test_illFormed_noCommand : (Instr.wf (.noCommandByte (at_ 0) 11), Instr.wf (.noCommandByte (at_ 0) 12)) =
    (false, true) := by decide

/-! ## Codes and layouts -/

/-- The ASCII digits 1 to 9. -/
def digits : List Byte := [0x31, 0x32, 0x33, 0x34, 0x35, 0x36, 0x37, 0x38, 0x39]

theorem test_crc16_check : crc16 digits = 0x29B1 := by decide
theorem test_crc32_check : crc32 digits = 0xCBF43926 := by decide
theorem test_amplitudes : [0, 1, 9, 10, 100, 1000, 31622, 31623, 32768].map amplitude = [0, 0, 19, 20, 40, 60, 89, 90, 90] := by
  decide
theorem test_thresholdLevel : (thresholdLevel 64, thresholdLevel 60) = (1585, 1000) := by decide
theorem test_lengths : ((statusReply running).length, (peerBytes PeerRecord.reset).length,
    (faultRecordBytes FaultRecord.reset).length, (couplingReply running).length) = (119, 77, 13, 8) := by decide
theorem crc_parameters : parameters.foldl crc16Byte 0xFFFF#16 = 0x19BC#16 := by decide
theorem crc_policies : policies.foldl crc16Byte 0x19BC#16 = 0xF533#16 := by decide
theorem crc_couplings : couplings.foldl crc16Byte 0xF533#16 = 0xF3A1#16 := by decide
theorem crc_noCouplings : noCouplings.foldl crc16Byte 0xF3A1#16 = 0x8151#16 := by decide
theorem crc_zones : zones.foldl crc16Byte 0x8151#16 = 0x23A9#16 := by decide
theorem crc_zeros (n : Nat) : (List.replicate n (0 : Byte)).foldl crc16Byte 0#16 = 0#16 := by
  induction n with
  | zero => rfl
  | succ n ih =>
    have h : crc16Byte 0#16 0 = 0#16 := by decide
    rw [List.replicate_succ, List.foldl_cons, h]; exact ih
theorem test_blockCheck : crc16 (wholeBlock.take 2046) = Block.check wholeBlock := by
  have h : wholeBlock.take 2046 = blockHead ++ List.replicate 1790 0 := List.take_left' (by
    have hb : blockHead.length = 256 := by decide
    rw [List.length_append, List.length_replicate, hb])
  have hc : Block.check wholeBlock = 0#16 := by decide
  have hl : ([0x23, 0xA9] : List Byte).foldl crc16Byte 0x23A9#16 = 0#16 := by decide
  rw [h, hc]
  simp only [crc16, blockHead, List.foldl_append, crc_parameters, crc_policies, crc_couplings, crc_noCouplings, crc_zones, hl]
  exact crc_zeros 1790
theorem check_one (b : List Byte) (h : crc16 (b.take 2046) = Block.check b) : loadCheck b 1 = none := by
  simp [loadCheck, single, h]
theorem check_rest : firstFailure wholeBlock ((upTo 19).drop 1) = none := by decide
theorem test_block_passes : loadVerdict wholeBlock = none := by
  have hu : upTo 19 = 1 :: (upTo 19).drop 1 := by decide
  rw [loadVerdict, hu, firstFailure, check_one _ test_blockCheck]
  exact check_rest

/-! ## States for the hypotheses of the statements: one conjunct for each clause -/

theorem noWaiting_of {s : State} (h : s.coup.slot = .none) : NoWaiting s := fun t ht => by rw [h] at ht; exact Slot.noConfusion ht
theorem noJudging_of {s : State} (h : s.coup.window = none) : NoJudging s := fun w hw => by rw [h] at hw; cases hw
theorem noJudging_of_open {s : State} {w : PulseWindow} (h : s.coup.window = some w) (hw : w.stage ≠ .judging) : NoJudging s :=
  fun v hv => by rw [h] at hv; cases hv; exact hw

/-! ### The queue, reset, the press cycle -/

theorem test_hyps_StepRunsFrontCommand :
    { running with pending := [.powerOn] }.pending = .powerOn :: [] ∧ (running.pending = [] ∧ running.resetHeld = false) ∧
    ((after .reset running).pending = [] ∧ (after .reset running).resetHeld = true) := by decide

theorem test_hyps_ResetReturnsPowerOnValues :
    (after .reset running).resetHeld = true ∧ Instr.cycRising (at_ 1) ≠ .reset ∧ Instr.cycRising (at_ 1) ≠ .powerOn ∧
      Instr.cycRising (at_ 1) ≠ .resetRelease := by decide

/-- Station 4 with no cycle number. -/
def unnumbered : State :=
  { running with tracker := { running.tracker with cycle := none, isOpen := false } }

theorem test_hyps_CycRisingStartsCycle : Sound (at_ 1001) running ∧ running.atWork = true ∧
    (running.tracker.cycle.isSome = true ∧ running.tracker.isOpen = true ∧ running.port.notices.length < 32 ∧
      (running.tracker.disordered || running.tracker.abandoned || beforeStrip running.tracker.phase) = true) ∧
    (Sound (at_ 1001) unnumbered ∧ unnumbered.atWork = true ∧ unnumbered.tracker.cycle = none ∧
      unnumbered.tracker.isOpen = false) := by
  unfold Sound; decide

/-- Station 4 with its pulse channel armed, its PULSE descriptor behind a PRESENCE frame, and its slot as given. -/
def armedSlot (v : Slot) : State :=
  let s := running.setUnit .c1 { listener with role := .pulse, state := .hush }
  (s.withCoup { s.coup with slot := v }).withLink { s.link with
    queue := [⟨5, .pulse, [], 900⟩, ⟨6, .presence, [], 900⟩], nextRef := 7
    current := some
      { ref := some 6, kind := .presence, payload := [], cycle := some 20, lane := .x, attempt := .waiting 4000, retries := 0
        lastFailure := none, noRetry := false, unreported := false } }

theorem test_hyps_CycRisingStartsCycle_slot :
    (∀ s ∈ [armedSlot (.queued 5), armedSlot (.announced 2000)], Sound (at_ 1001) s ∧ s.atWork = true ∧
      pulseChannel s = some .c1 ∧ (s.channels.units.get .c1).role = .pulse ∧ (s.channels.units.get .c1).state = .hush ∧
      (s.coup.records.get .c1).state ≠ .dead ∧ (s.channels.units.get .c2).role = .listen ∧
      (s.channels.units.get .c2).state = .quiet) ∧
    ((armedSlot (.queued 5)).coup.slot = .queued 5 ∧
      (after (.cycRising (at_ 1001)) (armedSlot (.queued 5))).link.current.map (·.ref) = some (some 6)) ∧
    (armedSlot (.announced 2000)).coup.slot = .announced 2000 := by
  unfold Sound; decide

/-- Station 4 with a block of simple fill. -/
def simpleFill (p : Phase) : State :=
  { station .running p with port := { BoardPort.reset with config := some (blockHead.set 1 0) } }

theorem test_hyps_FillAndShakeEdgesMovePhase :
    (∀ p ∈ [Phase.feed, .shake1, .fill1, .fill2, .shake2],
      Sound (at_ 1001) (station .running p) ∧ (station .running p).atWork = true ∧ (station .running p).tracker.phase = p) ∧
    Block.doubleFill (station .running .fill1).block = 1 ∧
    (Sound (at_ 1001) (simpleFill .fill1) ∧ (simpleFill .fill1).atWork = true ∧ (simpleFill .fill1).tracker.phase = .fill1 ∧
      Block.doubleFill (simpleFill .fill1).block ≠ 1) := by
  unfold Sound; decide

theorem test_hyps_StrayEdgesAreOnlyCounted :
    (∀ p ∈ [Phase.idle, .fill1, .fill2, .shake2, .strip, .ret], Sound (at_ 1001) (station .joining p) ∧
      (station .joining p).atWork = true ∧ (station .joining p).tracker.phase ≠ .feed ∧
      (station .joining p).tracker.phase ≠ .shake1) ∧
    (running.tracker.phase ≠ .fill1 ∧ running.tracker.phase ≠ .fill2 ∧ running.tracker.phase ≠ .strip) ∧
    (station .joining .idle).tracker.phase = .idle ∧ (station .joining .strip).tracker.phase = .strip ∧
    (station .joining .ret).tracker.phase = .ret := by
  unfold Sound; decide

theorem test_hyps_StrEdgesEnterStripAndReturn_rising :
    ∀ p ∈ [Phase.shake2, .feed, .fill1, .shake1, .fill2], Sound (at_ 1001) (station .running p) ∧
      (station .running p).atWork = true ∧ (station .running p).tracker.phase = p := by
  unfold Sound; decide

theorem test_hyps_StrEdgesEnterStripAndReturn_falling :
    let s := station .running .strip
    let t := { s with tracker := { s.tracker with cycle := some 21 } }
    let j := station .joining .strip
    (Sound (at_ 1001) s ∧ s.atWork = true ∧ s.tracker.phase = .strip ∧ s.member.station = .running ∧
      Block.checkPeriod s.block ≠ 0 ∧ Block.pulseChannel s.block s.ownNo ≠ 0 ∧ s.tracker.cycle = some 20 ∧
      (20 : CycleNo).val % Block.checkPeriod s.block = 0) ∧
    (Sound (at_ 1001) t ∧ t.atWork = true ∧ t.tracker.phase = .strip ∧ t.tracker.cycle = some 21 ∧
      (21 : CycleNo).val % Block.checkPeriod t.block ≠ 0) ∧
    (Sound (at_ 1001) j ∧ j.atWork = true ∧ j.tracker.phase = .strip ∧ j.member.station ≠ .running) ∧
    (s.withCoup { s.coup with slot := .firing }).coup.slot = .firing := by
  unfold Sound; decide

theorem test_hyps_StrayEdgesAreOnlyCounted_outsideWork :
    ∀ st ∈ [StationState.unconfigured, .configured, .frozen],
      (at_ 1001).upsets = [] ∧ (station st .shake2).resetHeld = false ∧ (station st .shake2).member.station = st ∧
      (setAside (.segment 2) (station st .shake2)).member.station = st := by decide

/-- Station 4 in RETURN, its settle timer running to 3000, with a disordered cycle. -/
def settling : State :=
  { station .running .ret with tracker := { (station .running .ret).tracker with disordered := true } }

theorem test_hyps_SettleExpiryClosesCycle : Sound (at_ 3000) settling ∧ settling.atWork = true ∧
    settling.tracker.isOpen = true ∧ settling.tracker.settle = some 3000 ∧ reached 3000 3000 = true ∧
    (settling.tracker.disordered || settling.tracker.abandoned) = true ∧ settling.port.notices.length < 32 := by
  unfold Sound; decide

theorem test_hyps_CycleTimerExpiryEndsCycle :
    (∀ s ∈ [settling, unnumbered, running],
      Sound (at_ 5000) s ∧ s.atWork = true ∧ s.tracker.cycleTimer = .running 5000 ∧ reached 5000 5000 = true) ∧
    (settling.tracker.isOpen = true ∧ settling.tracker.phase = .ret) ∧ unnumbered.tracker.isOpen = false ∧
    (running.tracker.isOpen = true ∧ running.tracker.phase ≠ .ret ∧ running.port.notices.length < 32) := by
  unfold Sound; decide

theorem test_hyps_ClosesFoldTheTable :
    ClosesNow (at_ 3000) settling (.settleTimerExpiry (at_ 3000)) .settle true false ∧
    ClosesNow (at_ 3000) (station .running .ret) (.settleTimerExpiry (at_ 3000)) .settle false false ∧
    ClosesNow (at_ 1001) running (.cycRising (at_ 1001)) .cyc false true ∧
    ClosesNow (at_ 1001) (station .running .ret) (.cycRising (at_ 1001)) .cyc false false ∧
    ClosesNow (at_ 5000) running (.cycleTimerExpiry (at_ 5000)) .cycleTimer false true ∧
    (running.agree.standing ≠ .outOfStep ∧ (running.withAgree { running.agree with standing := .outOfStep }).agree.standing = .outOfStep) :=
  ⟨⟨⟨rfl, rfl, rfl⟩, rfl, rfl, rfl, Or.inl ⟨3000, rfl, by decide, rfl, rfl, rfl⟩⟩,
   ⟨⟨rfl, rfl, rfl⟩, rfl, rfl, rfl, Or.inl ⟨3000, rfl, by decide, rfl, rfl, rfl⟩⟩,
   ⟨⟨rfl, rfl, rfl⟩, rfl, rfl, rfl, Or.inr (Or.inl ⟨rfl, rfl, rfl⟩)⟩,
   ⟨⟨rfl, rfl, rfl⟩, rfl, rfl, rfl, Or.inr (Or.inl ⟨rfl, rfl, rfl⟩)⟩,
   ⟨⟨rfl, rfl, rfl⟩, rfl, rfl, rfl, Or.inr (Or.inr ⟨5000, rfl, by decide, by decide, rfl, rfl, rfl⟩)⟩,
   by decide, rfl⟩

theorem test_hyps_ClosesTakeSnapshotAndDigest :
    let s := (station .running .ret).withAgree { (station .running .ret).agree with
      window := some ⟨4000, 500⟩, transfer := .awaiting .s3 (some 19) 5 1 none [] }
    ClosesNow (at_ 3000) s (.settleTimerExpiry (at_ 3000)) .settle false false ∧ s.agree.window ≠ none :=
  ⟨⟨⟨rfl, rfl, rfl⟩, rfl, rfl, rfl, Or.inl ⟨3000, rfl, by decide, rfl, rfl, rfl⟩⟩, by decide⟩

/-! ### Channels -/

theorem test_hyps_AmplitudeAndThreshold :
    (List.replicate 31999 0).length < 32000 ∧ 32000 ≤ (List.replicate 32000 0).length ∧
    noiseFloor (List.replicate 31999 0) = none ∧ noiseFloor (List.replicate 32000 0) = some 0 ∧ (1 : Nat) ≤ 32768 ∧ 1 ≤ 90 := by
  have h : noiseFloor (List.replicate 32000 0) = some (amplitudeOfRatio 0 32000) := by
    unfold noiseFloor
    rw [if_neg (by rw [List.length_replicate]; decide), List.sum_replicate, List.length_replicate]
    rfl
  have h0 : amplitudeOfRatio 0 32000 = 0 := by decide
  refine ⟨by rw [List.length_replicate]; decide, by rw [List.length_replicate], ?_, by rw [h, h0], by decide, by decide⟩
  unfold noiseFloor
  rw [if_pos (by rw [List.length_replicate]; decide)]

/-- A mean of 0 lies below 1; a mean of exactly 1 is the least with a logarithm. -/
theorem test_hyps_AmplitudeAndThreshold_floor :
    (32000 ≤ (List.replicate 32000 0).length ∧ (List.replicate 32000 0).sum < (List.replicate 32000 0).length) ∧
    (32000 ≤ (List.replicate 32000 1).length ∧ (List.replicate 32000 1).length ≤ (List.replicate 32000 1).sum) := by
  simp only [List.sum_replicate, List.length_replicate]
  decide

/-- Station 4 with channel 1 as given. -/
def withUnit (u : ChannelUnit) (s : State) : State := s.setUnit .c1 u

/-- An open pulse window of station 3, with channel 1's capture as given. -/
def windowOf (stage : WindowStage) (cap : Capture) : PulseWindow :=
  { stage := stage, pulser := .s3, fire := 1100, finish := 3100, captures := ⟨cap, .none, .none, .none⟩ }

/-- Station 4 with that window. -/
def windowed (stage : WindowStage) (cap : Capture) : State :=
  running.withCoup { running.coup with window := some (windowOf stage cap) }

/-- A full Hit Window. -/
def fullWindow : State :=
  running.withCoin { running.coin with
    window := (List.range 64).map fun i => ⟨⟨1, 1, BitVec.ofNat 32 i⟩, BitVec.ofNat 32 i, .shake2, none, false⟩ }

theorem test_hyps_SampleAtThresholdOpensHit :
    ∀ s ∈ [running, windowed .isOpen .none, station .joining .shake2, fullWindow],
      Sound (at_ 1001) s ∧ s.atWork = true ∧ (s.channels.units.get .c1).state = .quiet ∧
      s.threshold (noteSample 1001 (envelope 1000) (s.channels.units.get .c1)) ≤ amplitude (envelope 1000) := by
  unfold Sound; decide

theorem test_hyps_SampleAtThresholdOpensHit_kinds :
    (windowed .isOpen .none).windowOpen = true ∧ (running.member.station = .running ∧ running.tracker.isOpen = true ∧
      running.coin.window.length < 64) ∧ 64 ≤ fullWindow.coin.window.length ∧
    (windowed .isOpen .none).coup.window = some (windowOf .isOpen .none) := by decide

theorem test_hyps_SamplesNotedAndMeasured_noted :
    (Sound (at_ 1001) running ∧ running.atWork = true ∧ (running.channels.units.get .c1).state = .quiet ∧
      amplitude (envelope 999) < running.threshold (noteSample 1001 (envelope 999) (running.channels.units.get .c1))) ∧
    (let s := withUnit { listener with state := .lockout } running
     Sound (at_ 1001) s ∧ s.atWork = true ∧ (s.channels.units.get .c1).state ≠ .quiet ∧
      (s.channels.units.get .c1).state ≠ .inHit) := by
  unfold Sound; decide

/-- A hit open on channel 1 since 1000, with threshold 60. -/
def hitOfKind (k : HitKind) : OpenHit :=
  { kind := k, arrival := 1000, phase := .shake2, threshold := 60, level := 1000, peak := 65, peakTag := 1010
    crossings := 3, lastCrossing := 1050, below := true, energySum := 9000, saturated := false, cycleGone := false }

/-- Station 4 with that hit. -/
def hitting (h : OpenHit) (s : State) : State := withUnit { listener with state := .inHit, openHit := some h } s

theorem test_hyps_SamplesNotedAndMeasured_measured :
    let h := hitOfKind .own
    let s := hitting h running
    (Sound (at_ 1300) s ∧ s.atWork = true ∧ (s.channels.units.get .c1).state = .inHit ∧
      (s.channels.units.get .c1).openHit = some h ∧ elapsed 1300 h.arrival < Block.hitCapMs s.block * 1000) ∧
    (h.threshold ≤ amplitude (envelope 2000) ∧ elapsed 1300 h.arrival ≤ Block.pdt s.block ∧
      h.peak < amplitude (envelope 2000) ∧ h.below = true) ∧
    (elapsed 1301 h.lastCrossing < Block.hdt s.block ∧ Block.pdt s.block < elapsed 1301 h.arrival ∧
      amplitude (envelope 999) ≤ h.peak ∧ amplitude (envelope 999) < h.threshold) ∧
    (amplitude (envelope 1800) ≤ h.peak ∧ h.threshold ≤ amplitude (envelope 1800)) := by
  unfold Sound; decide

/-- A record of the Own Hit Queue. -/
def someRecord : QueuedHit := ⟨⟨4, 1, 5, .shake2, ⟨60, 1, 2, 3, 4, false, false⟩⟩, 900⟩

/-- A frame waiting for its gap on lane X. -/
def waitingFrame (k : FrameKind) : CurrentFrame :=
  { ref := some 5, kind := k, payload := [], cycle := some 20, lane := .x, attempt := .waiting 4000, retries := 0
    lastFailure := none, noRetry := false, unreported := false }

/-- Station 4 with a current frame, whose descriptor is the queue's only one. -/
def sending (c : CurrentFrame) (s : State) : State :=
  s.withLink { s.link with
    current := some c, nextRef := 6
    queue := match c.ref with
      | some r => [⟨r, c.kind, c.payload, 900⟩]
      | none => [] }

theorem test_hyps_ClosesDiscardTheCycle :
    let s := hitting (hitOfKind .own) (station .running .ret)
    let w := sending { waitingFrame .hit with ref := none } s
    let x := sending { waitingFrame .hit with ref := none, attempt := .transmitting 900 } s
    let e := sending (waitingFrame .event) s
    (∀ t ∈ [s, w, x, e], ClosesNow (at_ 3000) t (.settleTimerExpiry (at_ 3000)) .settle false false) ∧
    ((s.channels.units.get .c1).state = .inHit ∧ (s.channels.units.get .c1).openHit = some (hitOfKind .own)) ∧
    (w.link.current.map (·.attempt) = some (.waiting 4000) ∧ x.link.current.map (·.attempt) = some (.transmitting 900) ∧
      w.link.current.map (·.kind) = some .hit ∧ x.link.current.map (·.kind) = some .hit ∧
      e.link.current.map (·.kind) = some .event) := by
  refine ⟨fun t ht => ?_, by decide, by decide⟩
  simp only [List.mem_cons, List.not_mem_nil, or_false] at ht
  obtain rfl | rfl | rfl | rfl := ht <;>
    exact ⟨⟨rfl, rfl, rfl⟩, rfl, rfl, rfl, Or.inl ⟨3000, rfl, by decide, rfl, rfl, rfl⟩⟩

theorem test_hyps_SampleEndsHit :
    let s := hitting (hitOfKind .own) running
    let f := hitting (hitOfKind .own) (running.withChannels { running.channels with queue := List.replicate 16 someRecord })
    let g := hitting { hitOfKind .own with cycleGone := true } running
    let b := hitting (hitOfKind .own) (sending (waitingFrame .presence) running)
    let w := hitting (hitOfKind .capture) (windowed .isOpen (.started 1000))
    let l := hitting (hitOfKind .localHit) running
    (∀ t ∈ [s, f, g, b, w, l], Sound (at_ 1350) t ∧ t.atWork = true ∧ (t.channels.units.get .c1).state = .inHit ∧
      (t.channels.units.get .c1).openHit.isSome = true ∧ Block.hdt t.block ≤ elapsed 1350 (hitOfKind .own).lastCrossing ∧
      amplitude (envelope 999) < (hitOfKind .own).threshold ∧
      Block.hitCapMs t.block * 1000 ≤ elapsed 9000 (hitOfKind .own).arrival) ∧
    (s.channels.queue = [] ∧ s.link.current = none ∧ s.link.queue = []) ∧ 16 ≤ f.channels.queue.length ∧
    (b.channels.queue.length < 16 ∧ b.link.current.isSome = true) ∧
    (∃ x, w.coup.window = some x ∧ x.stage = .isOpen ∧ x.captures.get .c1 = .started (hitOfKind .capture).arrival) := by
  refine ⟨by unfold Sound; decide, by decide, by decide, by decide,
    windowOf .isOpen (.started 1000), by decide⟩

theorem test_hyps_SampleEndsHit_captureWithoutWindow :
    let s := hitting (hitOfKind .capture) running
    (s.channels.units.get .c1).openHit = some (hitOfKind .capture) ∧ s.coup.window = none := by decide

theorem test_hyps_LockoutAndPulseEnds_lockout :
    let u : ChannelUnit := { listener with state := .lockout, lockout := some 2000 }
    let s := withUnit u running
    let m := withUnit { u with role := .muted } running
    let w := (withUnit u running).withCoup { running.coup with slot := .waiting 1500 }
    (∀ t ∈ [s, m, w], Sound (at_ 2000) t ∧ t.atWork = true ∧ (t.channels.units.get .c1).state = .lockout ∧
      (t.channels.units.get .c1).lockout = some 2000 ∧ reached 2000 2000 = true) ∧
    (s.coup.slot = .none ∧ (s.channels.units.get .c1).role ≠ .muted) ∧
    (m.coup.slot = .none ∧ (m.channels.units.get .c1).role = .muted) ∧
    (w.coup.slot = .waiting 1500 ∧ later 2000 (1500 + span (Block.pulseSpacingMs w.block * 500)) = false ∧
      pulseChannel w = some .c1 ∧ (w.channels.units.get .c1).role = .listen ∧ w.link.queue.length < 12) := by
  unfold Sound; decide

theorem test_hyps_SampleLossAndRecovery_loss :
    let s := hitting (hitOfKind .own) running
    let p := (withUnit { listener with state := .pulsing, role := .pulse, pulseTimer := some 1010 } running).withCoup
      { running.coup with slot := .firing }
    (∀ t ∈ [s, p], Sound (at_ 1008) t ∧ t.atWork = true ∧ (t.channels.units.get .c1).state ≠ .off ∧
      (t.channels.units.get .c1).watch = .watching 1000 ∧ 8 ≤ elapsed 1008 1000) ∧
    ((s.channels.units.get .c1).openHit = some (hitOfKind .own) ∧ s.port.notices.length < 32) ∧
    ((p.channels.units.get .c1).state = .pulsing ∧ p.coup.slot = .firing) := by
  unfold Sound; decide

theorem test_hyps_SampleLossAndRecovery_recovery :
    let s := withUnit { ChannelUnit.reset with watch := .lost (some (1000, 1993)) } running
    Sound (at_ 2000) s ∧ s.atWork = true ∧ (s.channels.units.get .c1).watch = .lost (some (1000, 1993)) ∧
      1000 ≤ elapsed 2000 1000 ∧ elapsed 2000 1993 < 8 ∧ (s.channels.units.get .c1).openHit = none ∧
      s.coup.slot = .none := by
  unfold Sound; decide

theorem test_hyps_LockoutAndPulseEnds_pulse :
    let s := withUnit { listener with state := .pulsing, role := .pulse, pulseTimer := some 1010 } running
    let r := withUnit { listener with state := .recover, role := .pulse, pulseTimer := some 1010 } running
    let d := (withUnit { listener with state := .recover, role := .pulse, pulseTimer := some 1010 } running).withCoup
      { running.coup with slot := .firing, records := .all ⟨.dead, none, 2⟩ }
    (∀ t ∈ [s, r, d], Sound (at_ 1010) t ∧ t.atWork = true ∧ (t.channels.units.get .c1).pulseTimer = some 1010 ∧
      reached 1010 1010 = true ∧ t.coup.window = none) ∧
    (s.channels.units.get .c1).state = .pulsing ∧
    ((r.channels.units.get .c1).state = .recover ∧ (r.coup.records.get .c1).state ≠ .dead) ∧
    ((d.channels.units.get .c1).state = .recover ∧ (d.coup.records.get .c1).state = .dead ∧ d.coup.slot = .firing) := by
  unfold Sound; decide

/-! ### The Mould Link -/

/-- Where nothing has flipped there is no fault to find: the witnesses with `Sound` serve the statements with `NoFaultToFind`. -/
theorem noFaultToFind_of_sound {m : Moment} {s : State} (h : Sound m s) : NoFaultToFind m s :=
  ⟨h.1, h.2.2, fun u hu => by rw [h.2.1] at hu; cases hu⟩

/-- Station 4 waiting for the gap of a PRESENCE frame on lane X, idle since 0. -/
def waiting : State := sending (waitingFrame .presence) running

/-- The same frame in transmission. -/
def transmitting (k : FrameKind) (st : StationState) : State :=
  sending { waitingFrame k with attempt := .transmitting 900 } (station st .shake2)

theorem test_hyps_AccessGapStartsTransmission :
    (Sound (at_ 1001) waiting ∧ waiting.linkUp = true ∧ waiting.link.current = some (waitingFrame .presence) ∧
      (waitingFrame .presence).attempt = .waiting 4000 ∧ (waitingFrame .presence).lane = .x ∧
      (waiting.link.lanes.get .x).receiver = .hunting ∧ (waitingFrame .presence).lane ≠ .y) ∧
    8 + 20 * frameClass .presence + 2 * (waiting.ownNo - 1) ≤
      (waiting.withNow 1001).clock - (waiting.link.lanes.get .x).idleFrom ∧
    (waiting.withNow 1001).clock - max (waiting.link.lanes.get .x).idleFrom ((waiting.withNow 1001).clock - elapsed 1001 990) <
      8 + 20 * frameClass .presence + 2 * (waiting.ownNo - 1) ∧
    (let a := waiting.setLane .x { LaneUnit.reset with receiver := .assembling 900 false }
     Sound (at_ 1001) a ∧ a.linkUp = true ∧ (a.link.lanes.get .x).receiver ≠ .hunting) := by
  unfold Sound; decide

theorem test_hyps_FailedAttemptIsRetried :
    (Sound (at_ 4000) waiting ∧ waiting.linkUp = true ∧ waiting.link.current = some (waitingFrame .presence) ∧
      (waitingFrame .presence).noRetry = false ∧ (waitingFrame .presence).retries < Block.retryCount waiting.block) ∧
    FailsNow (at_ 4000) (waitingFrame .presence) (.accessTimerExpiry (at_ 4000)) .starved ∧
    (let c : CurrentFrame := { waitingFrame .digest with attempt := .transmitting 900 }
     (transmitting .digest .frozen).link.current = some c ∧ Sound (at_ 1001) (transmitting .digest .frozen) ∧
      (transmitting .digest .frozen).linkUp = true) ∧
    FailsNow (at_ 1001) { waitingFrame .digest with attempt := .transmitting 900 } (.echoMismatch (at_ 1001)) .clash ∧
    FailsNow (at_ 1001) { waitingFrame .digest with attempt := .transmitting 900 } (.echoTimeout (at_ 1001) 0) .mute ∧
    FailsNow (at_ 1001) { waitingFrame .digest with attempt := .transmitting 900 } (.echoTimeout (at_ 1001) 1) .clash := by
  refine ⟨by unfold Sound; decide, Or.inl ⟨4000, rfl, by decide, rfl, rfl⟩, by unfold Sound; decide,
    Or.inr (Or.inl ⟨900, rfl, rfl, rfl⟩), Or.inr (Or.inr ⟨900, 0, rfl, rfl, rfl⟩), Or.inr (Or.inr ⟨900, 1, rfl, rfl, rfl⟩)⟩

theorem test_hyps_LastFailureDropsFrame :
    let c : CurrentFrame := { waitingFrame .presence with retries := 2 }
    let u : CurrentFrame := { waitingFrame .logout with noRetry := true, unreported := true }
    let h : CurrentFrame := { waitingFrame .hit with retries := 2, ref := none }
    (∀ x ∈ [c, u, h], Sound (at_ 4000) (sending x running) ∧ (sending x running).linkUp = true ∧
      (sending x running).link.current = some x ∧
      (x.noRetry = true ∨ Block.retryCount (sending x running).block ≤ x.retries) ∧
      (x.kind ≠ .logout ∨ x.unreported = true) ∧ (x.ref = none ∨ x.kind = .presence ∨ x.unreported = true) ∧
      (sending x running).channels.queue = [] ∧ (∀ d ∈ (sending x running).link.queue, x.ref = some d.ref)) ∧
    FailsNow (at_ 4000) c (.accessTimerExpiry (at_ 4000)) .starved ∧
    FailsNow (at_ 4000) u (.accessTimerExpiry (at_ 4000)) .starved ∧
    FailsNow (at_ 4000) h (.accessTimerExpiry (at_ 4000)) .starved := by
  refine ⟨by unfold Sound; decide, Or.inl ⟨4000, rfl, by decide, rfl, rfl⟩, Or.inl ⟨4000, rfl, by decide, rfl, rfl⟩,
    Or.inl ⟨4000, rfl, by decide, rfl, rfl⟩⟩

theorem test_hyps_SentAttemptCompletesFrame :
    (∀ s ∈ [transmitting .digest .running, transmitting .presence .frozen], Sound (at_ 1200) s ∧ s.linkUp = true ∧
      (s.link.current.any fun c => c.attempt == .transmitting 900 && (c.kind == .digest || c.kind == .presence)) = true ∧
      s.channels.queue = [] ∧ (∀ d ∈ s.link.queue, (s.link.current.bind (·.ref)) = some d.ref)) := by
  unfold Sound; decide

/-- Station 4 with these failure runs on its lanes, lane X home. -/
def withRuns (x y : Nat) (lost : Bool) (s : State) : State :=
  s.withLink { s.link with lanes := ⟨{ LaneUnit.reset with run := x }, { LaneUnit.reset with run := y }⟩, lost := lost }

theorem test_hyps_LaneHealthIsNoticed :
    (∀ s ∈ [withRuns 0 0 false waiting, withRuns 3 4 false (waiting.withLink { waiting.link with home := .y }),
        withRuns 3 3 false waiting, withRuns 3 0 false (waiting.withLink { waiting.link with home := .y })],
      Sound (at_ 4000) s ∧ s.linkUp = true ∧ s.link.current = some (waitingFrame .presence) ∧
      (waitingFrame .presence).noRetry = false ∧ (waitingFrame .presence).retries < Block.retryCount s.block) ∧
    FailsNow (at_ 4000) (waitingFrame .presence) (.accessTimerExpiry (at_ 4000)) .starved ∧
    (waitingFrame .presence).lane = (withRuns 3 3 false waiting).link.home ∧ (waitingFrame .presence).lane ≠ .y ∧
    (let c : CurrentFrame := { waitingFrame .presence with attempt := .transmitting 900 }
     let b := (sending c running).setLane .x { LaneUnit.reset with receiver := .assembling 900 true }
     FailsNow (at_ 1001) c (.echoMismatch (at_ 1001)) .clash ∧ Sound (at_ 1001) b ∧ b.linkUp = true ∧ b.link.current = some c ∧
      (b.link.lanes.get .x).receiver = .assembling 900 true ∧
      ∀ s ∈ [withRuns 0 0 false (sending c running), withRuns 5 4 true (sending c running)], Sound (at_ 1001) s ∧
        s.linkUp = true ∧ s.link.current = some c ∧ c.attempt = .transmitting 900) := by
  refine ⟨by unfold Sound; decide, Or.inl ⟨4000, rfl, by decide, rfl, rfl⟩, by decide, by decide,
    Or.inr (Or.inl ⟨900, rfl, rfl, rfl⟩), by unfold Sound; decide⟩

/-- A frame whose last retry waits; and the same in transmission. -/
def lastTry (k : FrameKind) : CurrentFrame := { waitingFrame k with retries := 2 }
def onAir (k : FrameKind) : CurrentFrame := { waitingFrame k with attempt := .transmitting 900 }

theorem endsNow_sent (k : FrameKind) (s : State) : EndsNow (at_ 1200) s (onAir k) (.attemptSent (at_ 1200)) none :=
  Or.inl ⟨rfl, ⟨900, rfl⟩, rfl⟩
theorem endsNow_dropped (k : FrameKind) {s : State} (h : Block.retryCount s.block ≤ 2) :
    EndsNow (at_ 4000) s (lastTry k) (.accessTimerExpiry (at_ 4000)) (some .starved) :=
  Or.inr ⟨.starved, rfl, Or.inl ⟨4000, rfl, by simp only [at_]; decide, rfl, rfl⟩, Or.inr h⟩

/-- Station 4 RUNNING, giving its table: a ROW that begins with segment 1 is in the queue. -/
def givingRow (last : Bool) (c : CurrentFrame) : State :=
  let s := sending c running
  s.withAgree { s.agree with
    snapshot := some ⟨some 20, 3, List.replicate 6 (.clean false)⟩, ownDigest := some 9, transfer := .sending 5 (.row 5 last) }

theorem test_hyps_RequestersHearOutcomes :
    (∀ k ∈ [FrameKind.event, .pulse, .control, .row, .digest], ∀ c ∈ [lastTry k, onAir k],
      Sound (at_ 4000) (sending c running) ∧ (sending c running).linkUp = true ∧ (sending c running).link.current = some c ∧
      c.ref = some 5 ∧ c.unreported = false ∧ c.kind = k ∧ Block.retryCount (sending c running).block ≤ 2 ∧
      (sending c running).coup.slot ≠ .queued 5 ∧ (sending c running).port.control = none ∧
      (sending c running).agree.transfer = .idle) ∧
    (∀ s ∈ [sending (onAir .pulse) (armedSlot (.queued 5)), sending (lastTry .pulse) (armedSlot (.queued 5))],
      Sound (at_ 4000) s ∧ s.linkUp = true ∧ s.coup.slot = .queued 5 ∧ s.coup.window = none ∧ pulseChannel s = some .c1 ∧
      (s.coup.records.get .c1).state ≠ .dead ∧ (s.channels.units.get .c1).role = .pulse ∧
      (s.channels.units.get .c1).state = .hush) ∧
    (let x := sending (onAir .control) running
     let s := x.withPort { x.port with control := some (5, ⟨.release, 0, 0, 1⟩) }
     Sound (at_ 1200) s ∧ s.port.control = some (5, ⟨.release, 0, 0, 1⟩) ∧ s.port.notices.length < 30) ∧
    (∀ s ∈ [givingRow true (onAir .row), givingRow false (onAir .row), givingRow false (lastTry .row)],
      Sound (at_ 4000) s ∧ s.linkUp = true ∧ s.port.notices.length < 30 ∧
      s.agree.snapshot = some ⟨some 20, 3, List.replicate 6 (.clean false)⟩ ∧
      (s.link.queue.filter fun d => d.ref != 5).length < 12 ∧ ∀ x ∈ s.link.queue, x.kind = .row → x.ref = 5) ∧
    ((givingRow true (onAir .row)).agree.transfer = .sending 5 (.row 5 true) ∧
      (givingRow false (onAir .row)).agree.transfer = .sending 5 (.row 5 false)) := by
  unfold Sound; decide

/-- Station 4 with lane X's unit as given. -/
def withLane (u : LaneUnit) (s : State) : State := s.setLane .x u

/-- A frame of station 3. -/
def frameOf (k : FrameKind) (cycle : Option CycleNo) (payload : List Byte) : RxFrame :=
  ⟨frameBytes k 3 500 cycle payload, 990, false⟩

theorem test_hyps_ReceiversFollowFrames :
    let a := withLane { LaneUnit.reset with receiver := .assembling 900 false } running
    let b := withLane { LaneUnit.reset with receiver := .assembling 900 false, hold := some (frameOf .pulse none []) } running
    (∀ s ∈ [running, a, b], Sound (at_ 1001) s ∧ s.linkUp = true) ∧ (running.link.lanes.get .x).receiver = .hunting ∧
    (let f := setAside (.segment 2) (withLane { LaneUnit.reset with receiver := .assembling 900 false } (station .frozen .ret))
     NoFaultToFind (at_ 1001) f ∧ f.linkUp = true ∧ f.fault.flipped ≠ []) ∧
    ((a.link.lanes.get .x).receiver = .assembling 900 false ∧ (a.link.lanes.get .x).hold = none) ∧
    ((b.link.lanes.get .x).receiver = .assembling 900 false ∧ (b.link.lanes.get .x).hold ≠ none) := by
  unfold Sound NoFaultToFind; decide

/-- Station 4 with a frame in lane X's hold buffer. -/
def holding (f : RxFrame) (s : State) : State := withLane { LaneUnit.reset with hold := some f } s

theorem test_hyps_HandlerRefusesBadFrames :
    let bad : RxFrame := ⟨[0xD5, 0x6B, 8, 3, 0, 0, 0, 0, 0, 0, 0, 1, 2], 990, false⟩
    let own : RxFrame := ⟨frameBytes .pulse 4 500 (some 20) (pulseBytes 1), 990, false⟩
    let two := holding bad (running.setLane .y { LaneUnit.reset with hold := some own })
    (∀ s ∈ [holding bad running, holding bad (station .frozen .ret), holding own running, two],
      Sound (at_ 1001) s ∧ ∃ p, heldFrame s.link = some p) ∧
    (holding bad (station .frozen .ret)).member.station = .frozen ∧
    ((holding bad running).atWork = true ∧ acceptance (Block.histLen (holding bad running).block) bad = none) ∧
    (acceptance (Block.histLen (holding own running).block) own = some (.pulse, .s4) ∧
      (holding own running).member.number = some .s4 ∧ own.own = false) ∧
    (two.link.lanes.get .y).hold ≠ none := by
  refine ⟨?_, by decide, by decide, by decide, by decide⟩
  intro s hs
  have h : ∀ s ∈ [holding ⟨[0xD5, 0x6B, 8, 3, 0, 0, 0, 0, 0, 0, 0, 1, 2], 990, false⟩ running,
      holding ⟨[0xD5, 0x6B, 8, 3, 0, 0, 0, 0, 0, 0, 0, 1, 2], 990, false⟩ (station .frozen .ret),
      holding ⟨frameBytes .pulse 4 500 (some 20) (pulseBytes 1), 990, false⟩ running,
      holding ⟨[0xD5, 0x6B, 8, 3, 0, 0, 0, 0, 0, 0, 0, 1, 2], 990, false⟩ (running.setLane .y { LaneUnit.reset with
        hold := some ⟨frameBytes .pulse 4 500 (some 20) (pulseBytes 1), 990, false⟩ })],
      Sound (at_ 1001) s ∧ (heldFrame s.link).isSome = true := by unfold Sound; decide
  exact ⟨(h s hs).1, Option.isSome_iff_exists.1 (h s hs).2⟩

theorem test_hyps_HandlerRefusesBadFrames_frozen :
    let bad : RxFrame := ⟨[0xD5, 0x6B, 8, 3, 0, 0, 0, 0, 0, 0, 0, 1, 2], 990, false⟩
    let s := setAside (.segment 2) (holding bad (station .frozen .ret))
    NoFaultToFind (at_ 1001) s ∧ s.fault.flipped ≠ [] ∧ s.member.station = .frozen ∧ heldFrame s.link = some (.x, bad) := by
  unfold NoFaultToFind; decide

/-- The attempts of a FROZEN station that keeps its flipped bit: its last frame of another kind, cut from its requester. -/
theorem test_hyps_frozenAttempts :
    let c : CurrentFrame := { onAir .digest with noRetry := true, unreported := true }
    let s := setAside (.segment 2) (sending c (station .frozen .shake2))
    let w := setAside (.segment 2) (sending (waitingFrame .logout) (station .frozen .shake2))
    (NoFaultToFind (at_ 1200) s ∧ s.fault.flipped ≠ [] ∧ s.linkUp = true ∧ s.link.current = some c ∧
      c.attempt = .transmitting 900 ∧ c.unreported = true ∧ s.channels.queue = [] ∧ ∀ d ∈ s.link.queue, c.ref = some d.ref) ∧
    FailsNow (at_ 1200) c (.echoMismatch (at_ 1200)) .clash ∧
    (NoFaultToFind (at_ 4000) w ∧ w.fault.flipped ≠ [] ∧ w.linkUp = true ∧ w.link.current = some (waitingFrame .logout) ∧
      (waitingFrame .logout).attempt = .waiting 4000 ∧ (waitingFrame .logout).lane = .x ∧
      (w.link.lanes.get .x).receiver = .hunting ∧ (waitingFrame .logout).noRetry = false ∧
      (waitingFrame .logout).retries < Block.retryCount w.block) ∧
    FailsNow (at_ 4000) (waitingFrame .logout) (.accessTimerExpiry (at_ 4000)) .starved := by
  refine ⟨by unfold NoFaultToFind; decide, Or.inr (Or.inl ⟨900, rfl, rfl, rfl⟩), by unfold NoFaultToFind; decide,
    Or.inl ⟨4000, rfl, by decide, rfl, rfl⟩⟩

theorem test_hyps_NoticesAreQueuedOrStacked :
    let n : Notice := ⟨none, 4, .restarted .command⟩
    running.port.notices.length < 32 ∧
    32 ≤ (running.withPort { running.port with notices := List.replicate 32 n }).port.notices.length := by decide

/-! ### Members -/

/-- A PRESENCE payload with this fingerprint. -/
def presenceBytes (fp : BitVec 32) : List Byte := be32 fp ++ [5, 0, 3, 1, 0, 0]

theorem test_hyps_PresenceMakesPeerRecord :
    let f := frameOf .presence (some 20) (presenceBytes 7)
    let g := frameOf .presence (some 20) (presenceBytes 8)
    let h := frameOf .pulse (some 20) (pulseBytes 2)
    (∀ x ∈ [f, g, h], Sound (at_ 1001) (holding x running) ∧ (holding x running).atWork = true ∧
      heldFrame (holding x running).link = some (.x, x) ∧ (holding x running).member.number ≠ some .s3) ∧
    (acceptance 4 f = some (.presence, .s3) ∧ some (u32 f.payload 0) = running.member.fingerprint) ∧
    (acceptance 4 g = some (.presence, .s3) ∧ some (u32 g.payload 0) ≠ running.member.fingerprint) ∧
    (acceptance 4 h = some (.pulse, .s3) ∧ (running.member.peers.get .s3).fingerprint = none) ∧
    Block.histLen running.block = 4 ∧ running.port.notices.length < 32 := by
  unfold Sound; decide

theorem test_hyps_JoiningStationAdoptsNumber_frame :
    let f := frameOf .presence (some 77) (presenceBytes 7)
    let h := frameOf .pulse (some 77) (pulseBytes 2)
    let known (p : Phase) := (station .joining p).setPeer .s3 { PeerRecord.reset with state := .missing, fingerprint := some 7 }
    (∀ p ∈ [Phase.idle, .ret, .feed], (known p).tracker.phase = p ∧
      ∀ x ∈ [f, h], Sound (at_ 1001) (holding x (known p)) ∧ (holding x (known p)).member.station = .joining ∧
        heldFrame (holding x (known p)).link = some (.x, x) ∧ (holding x (known p)).member.number ≠ some .s3 ∧
        (acceptance (Block.histLen (holding x (known p)).block) x).isSome = true ∧ x.cycle = some 77) ∧
    (acceptance 4 f = some (.presence, .s3) ∧ some (u32 f.payload 0) = (known .idle).member.fingerprint) ∧
    (acceptance 4 h = some (.pulse, .s3) ∧ ((known .idle).member.peers.get .s3).fingerprint ≠ none ∧
      ((known .idle).member.peers.get .s3).state = .missing) := by
  unfold Sound; decide

/-- Station 4 JOINING, its join timer running to 2000. -/
def joining (p : Phase) : State :=
  let s := station .joining p
  s.withMember { s.member with joinTimer := some 2000, presenceTimer := some 2000 }

theorem test_hyps_JoiningStationAdoptsNumber_timer :
    ∀ p ∈ [Phase.idle, .ret, .feed], Sound (at_ 2000) (joining p) ∧ (joining p).member.station = .joining ∧
      (joining p).member.joinTimer = some 2000 ∧ reached 2000 2000 = true ∧ (joining p).tracker.phase = p := by
  unfold Sound; decide

/-- Station 4 with station 3 PRESENT, its silence timer running to 2000. -/
def withPeer : State :=
  running.setPeer .s3 { PeerRecord.reset with state := .present, fingerprint := some 7, silence := some 2000 }

theorem test_hyps_SilenceAndPresenceTimers_silence :
    let a := withPeer.withAgree { withPeer.agree with transfer := .awaiting .s3 (some 19) 5 1 none [] }
    (∀ s ∈ [withPeer, a], Sound (at_ 2000) s ∧ s.atWork = true ∧ (s.member.peers.get .s3).state = .present ∧
      (s.member.peers.get .s3).silence = some 2000 ∧ reached 2000 2000 = true) ∧
    (∀ c v n r b, withPeer.agree.transfer ≠ .awaiting .s3 c v n r b) ∧
    a.agree.transfer = .awaiting .s3 (some 19) 5 1 none [] := by
  refine ⟨by unfold Sound; decide, fun _ _ _ _ _ h => Transfer.noConfusion h, rfl⟩

/-- Twelve descriptors. -/
def fullQueue (s : State) : State := s.withLink { s.link with queue := List.replicate 12 ⟨1, .event, [], 900⟩ }

theorem test_hyps_SilenceAndPresenceTimers_presence :
    (∀ s ∈ [joining .feed, fullQueue (joining .feed)], Sound (at_ 2000) s ∧ s.atWork = true ∧
      s.member.presenceTimer = some 2000 ∧ reached 2000 2000 = true) ∧
    (joining .feed).link.queue.length < 12 ∧ 12 ≤ (fullQueue (joining .feed)).link.queue.length := by
  unfold Sound; decide

/-! ### Groups, events, the table -/

/-- An entry of the Hit Window. -/
def entry (st ch : Nat) (t : Tag) : HitEntry :=
  ⟨⟨st, ch, t⟩, t, .shake2, some ⟨60, 1, 2, 3, 4, false, false⟩, st == 4⟩

/-- Station 4 with these hits in its window. -/
def windowWith (w : List HitEntry) : State := running.withCoin { running.coin with window := w }

theorem test_hyps_CloseExpiryTakesGroups :
    let s := windowWith [entry 4 1 1000, entry 3 1 1100]
    Sound (at_ 13400) s ∧ s.atWork = true ∧ s.openGroup.map (·.expiry) = some 13400 ∧ reached 13400 13400 = true ∧
      reached 13399 13400 = false ∧ CapacityInv s := by
  refine ⟨by unfold Sound; decide, by decide, by decide, by decide, by decide, ?_⟩
  unfold CapacityInv; decide

theorem test_hyps_GroupPublishedOrPended_close :
    let own := windowWith [entry 4 1 1000, entry 3 1 1100]
    let second := windowWith [entry 3 1 1000, entry 4 1 1100]
    let none_ := windowWith [entry 3 1 1000, entry 2 1 1100]
    let pended := second.withCoin { second.coin with
      pendingGroups := List.replicate 8 ⟨[entry 3 1 5, entry 4 1 6], false, 1, 9000, .waiting⟩ }
    (∀ s ∈ [own, second, none_, pended, fullQueue own], Sound (at_ 13400) s ∧ s.atWork = true ∧
      s.openGroup.map (fun g => (g.expiry, g.members)) = some (13400, s.coin.window)) ∧
    (rankOf 4 own.coin.window = some 0 ∧ own.link.queue.length < 12 ∧ 12 ≤ (fullQueue own).link.queue.length) ∧
    (rankOf 4 second.coin.window = some 1 ∧ second.coin.pendingGroups.length < 8 ∧
      8 ≤ pended.coin.pendingGroups.length) ∧ rankOf 4 none_.coin.window = none ∧ own.ownNo = 4 := by
  unfold Sound; decide

theorem test_hyps_GroupPublishedOrPended_deadline :
    let p : PendingGroup := ⟨[entry 3 1 1000, entry 4 1 1100], false, 1, 9000, .waiting⟩
    let s := running.withCoin { running.coin with pendingGroups := [p] }
    ∀ t ∈ [s, fullQueue s], Sound (at_ 9000) t ∧ t.atWork = true ∧
      deadlineEntry ⟨3, 1, 1000⟩ (t.withNow 9000) = some p := by
  unfold Sound; decide

theorem test_hyps_PlacementMethods :
    leadHits [entry 4 1 1000] = [entry 4 1 1000] ∧
    leadHits [entry 1 1 1000, entry 1 2 1100] = [entry 1 1 1000, entry 1 2 1100] ∧
    (1 ≤ Block.zoneCount blockHead ∧
      zoneMatches blockHead (sensorOf (entry 1 1 1000)) (sensorOf (entry 1 2 1100)) (elapsed 1100 1000) 1 = true) ∧
    (∀ j, 1 ≤ j → j ≤ Block.zoneCount blockHead →
      zoneMatches blockHead (sensorOf (entry 1 1 1000)) (sensorOf (entry 1 2 1101)) (elapsed 1101 1000) j = false) := by
  refine ⟨by decide, by decide, by decide, ?_⟩
  intro j h1 h2
  have hc : Block.zoneCount blockHead = 2 := by decide
  rw [hc] at h2
  obtain rfl | rfl : j = 1 ∨ j = 2 := by omega
  · decide
  · decide

theorem test_hyps_PlacementMethods_record :
    let g := [entry 4 1 1000, entry 3 2 1050]
    (∃ x ∈ g, sensorOf x = sensorOf (entry 4 1 1100)) ∧ (∀ x ∈ g, sensorOf x ≠ sensorOf (entry 3 1 1100)) ∧
    g = entry 4 1 1000 :: [entry 3 2 1050] ∧ g ≠ [] ∧
    (entry 4 1 1000).features = some ⟨60, 1, 2, 3, 4, false, false⟩ ∧
    leadHits (g ++ [entry 4 1 1100]) = g ∧ leadHits (g ++ [entry 3 1 1100]) = g ++ [entry 3 1 1100] := by decide

/-- An EVENT of `n` hits from a station. -/
def event (publisher n : Nat) (t : Tag) : AppliedEvent :=
  ⟨⟨some 20, .shake2, 1, 3, 0, n, 1, 60, 5, 2, [⟨3, 1, t⟩]⟩, publisher⟩

theorem test_hyps_EventJudgedAgainstList :
    ((∀ b ∈ [event 3 1 5], overlaps (event 4 1 6).event b.event = false) ∧ [event 3 1 5].length < 96) ∧
    ((∃ b ∈ [event 3 1 5], overlaps (event 4 2 5).event b.event = true) ∧
      ∀ b ∈ [event 3 1 5], overlaps (event 4 2 5).event b.event = true → beats (event 4 2 5) b = true) ∧
    (∃ b ∈ [event 3 1 5], overlaps (event 4 1 5).event b.event = true ∧ beats (event 4 1 5) b = false) ∧
    ((∀ b ∈ List.replicate 96 (event 3 1 5), overlaps (event 4 1 6).event b.event = false) ∧
      96 ≤ (List.replicate 96 (event 3 1 5)).length ∧
      (∀ b ∈ List.replicate 96 (event 3 1 5), (event 4 1 6).event.hitCount ≤ b.event.hitCount) ∧
      (∃ b ∈ List.replicate 96 (event 3 1 5), b.event.hitCount < (event 4 2 6).event.hitCount)) := by decide

/-- A segment record in a state, with a history. -/
def record (st : SegState) (h : List HistoryEntry) (quiet : Nat) : SegmentRecord :=
  { SegmentRecord.clean false with state := st, history := h, quietRun := quiet }

theorem test_hyps_ControlChangesSelectedSegments :
    (∃ i, i < 8 ∧ (0x21 : Byte).getLsbD i = true ∧ 6 = 8 * (0 : Byte).toNat + 1 + i ∧ 6 ≤ 6) ∧
    (let c : Control := ⟨.excludeSet, 0, 0x20, 0x21⟩
     c.kind = .excludeSet ∧ valueBit c 6 = true ∧ valueBit c 1 = false ∧ (record .suspect [] 2).excluded = false ∧
      (SegmentRecord.clean true).excluded = true) ∧
    (⟨.release, 0, 0, 1⟩ : Control).kind = .release := by
  refine ⟨⟨5, by decide⟩, by decide, rfl⟩

theorem test_hyps_FoldMovesOneSegment :
    let b := blockHead
    let both : HistoryEntry := ⟨2, 0x60⟩
    let f (r : SegmentRecord) (es : List AppliedEvent) := foldRecord b (some 20) es r
    (Block.aMin b, Block.kS b, Block.kC b, Block.qW b, Block.qS b) = (2, 2, 3, 4, 6) ∧
    decide (Block.aMin b ≤ min [event 3 1 5, event 3 1 6].length 255) = true ∧
    Block.kS b ≤ activeEntries (Block.aMin b) (f (record .watch [both] 0) [event 3 1 5, event 3 1 6]).history ∧
    (activeEntries (Block.aMin b) (f (record .watch [] 3) []).history < Block.kS b ∧
      Block.qW b ≤ (f (record .watch [] 3) []).quietRun ∧ (f (record .watch [] 2) []).quietRun < Block.qW b) ∧
    (Block.kC b ≤ activeEntries (Block.aMin b) (f (record .suspect [both, both] 0) [event 3 1 5, event 3 1 6]).history ∧
      phaseTest (unionPhases (f (record .suspect [both, both] 0) [event 3 1 5, event 3 1 6]).history) = true) ∧
    (activeEntries (Block.aMin b) (f (record .suspect [] 5) []).history < Block.kC b ∧
      Block.qS b ≤ (f (record .suspect [] 5) []).quietRun ∧ (f (record .suspect [] 4) []).quietRun < Block.qS b) := by
  decide

/-! ### Frames handed on -/

/-- A frame of this kind and payload from station 3 in lane X's hold buffer. -/
def handing (k : FrameKind) (payload : List Byte) (s : State) : State := holding (frameOf k (some 20) payload) s

/-- Station 3 as given in the records. -/
def peerIs (st : PeerState) (s : State) : State :=
  s.setPeer .s3 { s.member.peers.s3 with state := st, fingerprint := some 7 }

/-- Payloads of station 3's frames. -/
def digestBytes : List Byte := be16 20 ++ be32 9 ++ be16 3 ++ List.replicate 15 0
def logoutBytes (part : Nat) : List Byte := byte part :: List.replicate 9 0
def hitBytes3 : List Byte := hitBytes ⟨3, 2, 700, .shake2, ⟨60, 1, 2, 3, 4, false, false⟩⟩
def eventOf3 (t : Tag) : List Byte := eventBytes (event 3 1 t).event
def release : Control := ⟨.release, 0, 0, 1⟩

/-- The ROW of six clean segments that begins with segment 1 or 5. -/
def cleanRow (first count : Nat) (last : Bool) : RowFrame :=
  { cycle := some 20, digest := digestOf 4 (some 20) 30 (List.replicate 6 (.clean false)), age := 30, first := first
    count := count, last := last, records := List.replicate count (.clean false) }

/-- Station 4 with its own record as JOINING begins with it, and an own echo held. -/
def ownEcho (f : RxFrame) : State :=
  holding f (running.setPeer .s4 { PeerRecord.reset with state := .present, fingerprint := some 7 })

theorem test_hyps_DigestAndLogoutFramesRecorded :
    (∀ st ∈ [PeerState.present, .missing, .loggedOut],
      Handed (at_ 1001) (handing .digest digestBytes (peerIs st running)) .x (frameOf .digest (some 20) digestBytes) .digest .s3) ∧
    (∀ part ∈ [0, 1, 2, 3, 4], Handed (at_ 1001) (handing .logout (logoutBytes part) (peerIs .present running)) .x
      (frameOf .logout (some 20) (logoutBytes part)) .logout .s3 ∧ u8 (logoutBytes part) 0 = part) ∧
    (let s := peerIs .present running
     s.member.number ≠ some .s3 ∧ (s.member.peers.get .s3).state ≠ .loggedOut) := by
  unfold Handed Sound; decide

theorem test_hyps_DigestAndLogoutFramesRecorded_own :
    let f : RxFrame := ⟨frameBytes .logout 4 500 (some 20) (logoutBytes 2), 990, true⟩
    Handed (at_ 1001) (ownEcho f) .x f .logout .s4 ∧ (ownEcho f).member.number = some .s4 ∧ u8 f.payload 0 = 2 := by
  unfold Handed Sound; decide

theorem test_hyps_HitFramesEnterTheWindow :
    let s := handing .hit hitBytes3 (peerIs .present running)
    let f := frameOf .hit (some 20) hitBytes3
    let o : RxFrame := ⟨frameBytes .hit 4 500 (some 20) hitBytes3, 990, true⟩
    Handed (at_ 1001) s .x f .hit .s3 ∧ f.own = false ∧ s.tracker.isOpen = true ∧ f.cycle = s.tracker.cycle ∧
      s.member.station = .running ∧ Handed (at_ 1001) (ownEcho o) .x o .hit .s4 ∧ o.own = true ∧
      (holding f (peerIs .present (station .joining .ret))).member.station = .joining ∧
      (frameOf .hit (some 19) hitBytes3).cycle ≠ s.tracker.cycle := by
  unfold Handed Sound; decide

theorem test_hyps_HitFramesEnterTheWindow_records :
    let w := windowOf .isOpen .none
    (stNo .s3 = 3 ∧ running.coin.window = [] ∧ running.coup.window = none ∧ running.coin.horizon = none) ∧
    (windowed .isOpen .none).coup.window = some w ∧
    (reached 1100 w.fire = true ∧ reached w.finish 1100 = true ∧ reached 3100 w.fire = true ∧ reached w.finish 3100 = true) ∧
    (reached 1099 w.fire = false ∧ reached w.finish 3101 = false) ∧ (reached 700 700 = true ∧ reached 700 701 = false) ∧
    64 ≤ fullWindow.coin.window.length := by decide

theorem test_hyps_EventFramesAreApplied :
    (let s := handing .event (eventOf3 5) (peerIs .missing running)
     Handed (at_ 1001) s .x (frameOf .event (some 20) (eventOf3 5)) .event .s3 ∧ s.tracker.isOpen = true ∧
      (eventOf (eventOf3 5)).cycle = s.tracker.cycle ∧ eventWellFormed (Block.nSeg s.block) (eventOf (eventOf3 5)) = true) ∧
    eventWellFormed 2 (eventOf (eventOf3 5)) = false ∧
    (handing .event (eventOf3 5) (peerIs .missing unnumbered)).tracker.isOpen = false := by
  unfold Handed Sound; decide

theorem test_hyps_ControlFramesAreApplied :
    let s := peerIs .present running
    let full := s.withAgree { s.agree with
      snapshot := some ⟨some 20, 3, List.replicate 6 (.clean false)⟩, carry := List.replicate 8 release }
    let held := s.withAgree { s.agree with standing := .outOfStep, transfer := .awaiting .s3 (some 19) 5 1 none [] }
    (∀ t ∈ [s, full, held], Handed (at_ 1001) (handing .control (controlBytes release) t) .x
      (frameOf .control (some 20) (controlBytes release)) .control .s3) ∧
    Handed (at_ 1001) (handing .control [0, 0, 0, 0] s) .x (frameOf .control (some 20) [0, 0, 0, 0]) .control .s3 ∧
    controlOf (controlBytes release) = some release ∧ controlValid (Block.nSeg s.block) release = true ∧
    controlOf [0, 0, 0, 0] = none ∧ controlValid (Block.nSeg s.block) ⟨.release, 1, 0, 1⟩ = false ∧
    (s.agree.snapshot = none ∧ full.agree.snapshot ≠ none ∧ s.agree.carry.length < 8 ∧ 8 ≤ full.agree.carry.length) ∧
    (s.agree.standing ≠ .outOfStep ∧ held.agree.standing = .outOfStep) := by
  unfold Handed Sound; decide

theorem test_hyps_RowFramesAreTaken :
    let first := cleanRow 1 4 false
    let last := cleanRow 5 2 true
    let await (n : Nat) (r : Option RowFrame) (b : List SegmentRecord) := (peerIs .present running).withAgree
      { running.agree with standing := .outOfStep, transfer := .awaiting .s3 (some 20) first.digest n r b }
    (∀ c ∈ [(await 1 none [], first), (await 5 (some first) first.records, last), (await 5 (some first) first.records, first),
        (peerIs .present running, first), (await 1 none [], last)],
      Handed (at_ 1001) (handing .row (rowBytes 4 c.2) c.1) .x (frameOf .row (some 20) (rowBytes 4 c.2)) .row .s3 ∧
      rowOf (Block.histLen c.1.block) (frameOf .row (some 20) (rowBytes 4 c.2)).payload = c.2) ∧
    (repeatsRow first none = false ∧ nextInOrder 6 1 first = true ∧ first.last = false) ∧
    (repeatsRow last (some first) = false ∧ nextInOrder 6 5 last = true ∧ last.last = true ∧
      digestOf 4 last.cycle last.age (first.records ++ last.records) = last.digest ∧
      digestOf 4 last.cycle last.age (List.replicate 4 (record .watch [] 0) ++ last.records) ≠ last.digest) ∧
    repeatsRow first (some first) = true ∧ nextInOrder 6 1 last = false := by
  unfold Handed Sound; decide

theorem test_hyps_PulseFramesPlaceWindow :
    let f := frameOf .pulse (some 20) (pulseBytes 2)
    let s := handing .pulse (pulseBytes 2) (peerIs .present running)
    (∀ t ∈ [s, handing .pulse (pulseBytes 2) (peerIs .present (windowed .isOpen .none))],
      Handed (at_ 1001) t .x f .pulse .s3 ∧ t.member.station = .running ∧ f.cycle = t.tracker.cycle ∧ t.coup.slot = .none ∧
      later 1001 (f.stamp - span (Block.linkDelay t.block) + 1000#32 + span (Block.pulseWindow100Us t.block * 100)) = false) ∧
    Handed (at_ 9000) s .x f .pulse .s3 ∧
    later 9000 (f.stamp - span (Block.linkDelay s.block) + 1000#32 + span (Block.pulseWindow100Us s.block * 100)) = true := by
  unfold Handed Sound; decide

/-! ### Agreement, coupling -/

/-- Station 4 after the close of cycle 20: a snapshot, a digest, the digest window running to 2000. -/
def decidingWith (d : Option DigestContent) : State :=
  (running.setPeer .s3 { PeerRecord.reset with state := .present, fingerprint := some 7, digest := d }).withAgree
    { running.agree with
      snapshot := some ⟨some 20, 3, List.replicate 6 (.clean false)⟩, ownDigest := some 9, window := some ⟨2000, 1500⟩ }

/-- A DIGEST of cycle `c` with digest `d`, from a table of age 30. -/
def digestFrom (c : CycleNo) (d : BitVec 32) : Option DigestContent := some ⟨some c, d, 30, 0, [], 1600⟩

/-- The senders of the decision at 2000. -/
def sendersAt (s : State) : List DigestSender :=
  digestSenders (s.withNow 2000) ⟨2000, 1500⟩ .s4 ⟨some 20, 3, List.replicate 6 (.clean false)⟩ 9

/-- The same with station 2's digest as well. -/
def decidingWith2 (d e : Option DigestContent) : State :=
  (decidingWith d).setPeer .s2 { PeerRecord.reset with state := .present, fingerprint := some 7, digest := e }

theorem test_hyps_DigestWindowDecides :
    let alone := decidingWith none
    let younger := decidingWith (digestFrom 20 8)
    let divided := (decidingWith2 (digestFrom 20 9) (digestFrom 20 8)).withAgree
      { (decidingWith2 (digestFrom 20 9) (digestFrom 20 8)).agree with
        snapshot := some ⟨some 20, 30, List.replicate 6 (.clean false)⟩, standing := .inStep }
    let out := decidingWith2 (digestFrom 20 8) (digestFrom 20 8)
    let adopts := decidingWith2 (digestFrom 30 9) (digestFrom 30 9)
    let full := out.withAgree { out.agree with carryOverflow := true, carry := List.replicate 8 release }
    (∀ s ∈ [alone, younger, divided, out, adopts, full], Sound (at_ 2000) s ∧ s.atWork = true ∧
      s.agree.window = some ⟨2000, 1500⟩ ∧ reached 2000 2000 = true ∧ s.agree.snapshot.isSome = true ∧
      s.agree.ownDigest = some 9 ∧ s.member.number = some .s4) ∧
    (adoptedCycle (some 20) (sendersAt alone) = none ∧ standingOf 20 3 9 (sendersAt alone) = .novice) ∧
    standingOf 20 3 9 (sendersAt younger) = .outOfStep ∧
    (adoptedCycle (some 20) (sendersAt divided) = none ∧ majorityDigest 20 (sendersAt divided) = none) ∧
    (adoptedCycle (some 20) (sendersAt out) = none ∧ standingOf 20 3 9 (sendersAt out) = .outOfStep ∧
      majorityDigest 20 (sendersAt out) = some 8 ∧ donorOf 20 (sendersAt out) 8 = some .s2) ∧
    adoptedCycle (some 20) (sendersAt adopts) = some 30 ∧
    (out.agree.carryOverflow = false ∧ full.agree.carryOverflow = true ∧ alone.agree.standing = .novice) := by
  unfold Sound; decide

theorem test_hyps_DigestWindowDecides_standings :
    let c (st : Station) (d : BitVec 32) : DigestSender := ⟨st, some 20, d, 30⟩
    [c .s4 9].length ≤ 1 ∧ (2 ≤ [c .s3 8, c .s4 9].length ∧ majorityDigest 20 [c .s3 8, c .s4 9] = none) ∧
    majorityDigest 20 [c .s3 9, c .s4 9] = some 9 ∧ (majorityDigest 20 [c .s2 8, c .s3 8, c .s4 9] = some 8 ∧
      (8 : BitVec 32) ≠ 9) ∧
    (donorOf 20 [c .s4 9, c .s5 9, c .s6 8] 9 = some .s4 ∧ majorityDigest 20 [c .s4 9, c .s5 9, c .s6 8] = some 9) ∧
    (running.tracker.cycle = some 20 ∧ running.tracker.lastClosed = some 19) := by decide

theorem test_hyps_DigestWindowDecides_donor :
    let s := (running.setPeer .s5 { PeerRecord.reset with state := .present, fingerprint := some 7, digest := digestFrom 20 9 }).setPeer
      .s6 { PeerRecord.reset with state := .present, fingerprint := some 7, digest := digestFrom 20 8 }
    let d := s.withAgree { s.agree with
      snapshot := some ⟨some 20, 30, List.replicate 6 (.clean false)⟩, ownDigest := some 9, window := some ⟨2000, 1500⟩ }
    let ss := digestSenders (d.withNow 2000) ⟨2000, 1500⟩ .s4 ⟨some 20, 30, List.replicate 6 (.clean false)⟩ 9
    Sound (at_ 2000) d ∧ adoptedCycle (some 20) ss = none ∧ standingOf 20 30 9 ss = .inStep ∧
      majorityDigest 20 ss = some 9 ∧ donorOf 20 ss 9 = some .s4 ∧ ∃ x ∈ ss, x.cycle ≠ some 20 ∨ x.digest ≠ 9 := by
  unfold Sound; decide

theorem test_hyps_TransferLeadSendsRow :
    let s := (decidingWith none).withAgree { (decidingWith none).agree with transfer := .sending 5 (.lead 2000) }
    let r := s.withLink { s.link with queue := [⟨1, .row, [], 900⟩] }
    (∀ t ∈ [s, r, fullQueue s], Sound (at_ 2000) t ∧ t.atWork = true ∧ t.agree.transfer = .sending 5 (.lead 2000) ∧
      reached 2000 2000 = true ∧ t.agree.snapshot.isSome = true) ∧
    (s.link.queue.length < 12 ∧ ∀ x ∈ s.link.queue, x.kind ≠ .row) ∧ (∃ x ∈ r.link.queue, x.kind = .row) ∧
    12 ≤ (fullQueue s).link.queue.length := by
  unfold Sound; decide

/-- Station 4 RUNNING with a slot. -/
def slotted (v : Slot) : State := running.withCoup { running.coup with slot := v }

theorem test_hyps_SlotWaitsArmsAndFires_slotTag :
    let s := slotted (.placed 2000)
    let d := s.withCoup { s.coup with records := .all ⟨.dead, none, 2⟩ }
    let b := withUnit { listener with state := .lockout } s
    (∀ t ∈ [s, d, b, fullQueue s], Sound (at_ 12000) t ∧ t.atWork = true ∧ t.coup.slot = .placed 2000 ∧
      reached 12000 2000 = true ∧ later 12000 (2000 + span (Block.pulseSpacingMs t.block * 500)) = false ∧
      pulseChannel t = some .c1 ∧ t.coup.window = none) ∧
    (d.coup.records.get .c1).state = .dead ∧
    ((b.coup.records.get .c1).state ≠ .dead ∧ armable (b.channels.units.get .c1) = false) ∧
    ((s.coup.records.get .c1).state ≠ .dead ∧ armable (s.channels.units.get .c1) = true ∧ s.link.queue.length < 12) ∧
    12 ≤ (fullQueue s).link.queue.length := by
  unfold Sound; decide

theorem test_hyps_SlotWaitsArmsAndFires_fire :
    let w := slotted (.waiting 2000)
    let f := slotted (.announced 12000)
    let a := withUnit { listener with role := .pulse, state := .hush } f
    (∀ t ∈ [w, f, a], Sound (at_ 12000) t ∧ t.atWork = true ∧ t.coup.window = none) ∧
    (w.coup.slot = .waiting 2000 ∧ reached 12000 (2000 + span (Block.pulseSpacingMs w.block * 500)) = true) ∧
    (∀ t ∈ [f, a], t.coup.slot = .announced 12000 ∧ reached 12000 12000 = true ∧ pulseChannel t = some .c1) ∧
    ((a.channels.units.get .c1).role = .pulse ∧ (a.channels.units.get .c1).state = .hush) ∧
    ((f.channels.units.get .c1).role ≠ .pulse ∧ f.coup.counts.fired < 65535) := by
  unfold Sound; decide

theorem test_hyps_PulseWindowJudged :
    (∀ s ∈ [windowed .pending .none, windowed .isOpen (.started 3000), windowed .isOpen (.peaked 60)],
      Sound (at_ 3100) s ∧ s.atWork = true ∧ s.coup.slot = .none) ∧
    ((windowed .pending .none).coup.window = some (windowOf .pending .none) ∧ reached 1100 (windowOf .pending .none).fire = true) ∧
    ((windowed .isOpen (.started 3000)).coup.window = some (windowOf .isOpen (.started 3000)) ∧
      reached 3100 (windowOf .isOpen (.started 3000)).finish = true ∧
      judgeable (windowed .isOpen (.started 3000)) { windowOf .isOpen (.started 3000) with stage := .judging } = false) ∧
    ((windowed .isOpen (.peaked 60)).coup.window = some (windowOf .isOpen (.peaked 60)) ∧
      judgeable (windowed .isOpen (.peaked 60)) { windowOf .isOpen (.peaked 60) with stage := .judging } = true) := by
  unfold Sound; decide

/-- A window in JUDGING that still waits: for the capture of the open hit (its quiet end and its cap at their least tags), for the
channel that pulses, for the recovery time. -/
theorem test_hyps_PulseWindowJudged_later :
    let capture := hitting (hitOfKind .capture) (windowed .judging (.started 1000))
    let w := windowOf .judging (.started 1000)
    let firing (u : ChannelUnit) := (withUnit u (windowed .judging .none)).withCoup
      { (windowed .judging .none).coup with slot := .firing }
    let pulsing := firing { listener with state := .pulsing, role := .pulse, pulseTimer := some 1010 }
    let recovering := firing { listener with state := .recover, role := .pulse, pulseTimer := some 1010 }
    (∀ m ∈ [at_ 1350, at_ 9000, at_ 1008, at_ 1010], Sound m capture ∧ Sound m pulsing ∧ Sound m recovering) ∧
    (capture.atWork = true ∧ capture.coup.window = some w ∧ w.stage = .judging ∧ capture.coup.slot = .none ∧
      (capture.channels.units.get .c1).state = .inHit ∧
      (capture.channels.units.get .c1).openHit = some (hitOfKind .capture) ∧
      w.captures.get .c1 = .started (hitOfKind .capture).arrival ∧
      (amplitude (envelope 0) < (hitOfKind .capture).threshold ∧
        Block.hdt capture.block ≤ elapsed 1350 (hitOfKind .capture).lastCrossing) ∧
      Block.hitCapMs capture.block * 1000 ≤ elapsed 9000 (hitOfKind .capture).arrival ∧
      (capture.channels.units.get .c1).watch = .watching 1000 ∧ 8 ≤ elapsed 1008 1000 ∧
      judgeable capture { w with captures := w.captures.set .c1 (.peaked 65) } = true) ∧
    (∀ s ∈ [pulsing, recovering], s.atWork = true ∧ s.coup.window = some (windowOf .judging .none) ∧
      (windowOf .judging .none).stage = .judging ∧ s.coup.slot = .firing ∧
      ((s.channels.units.get .c1).state = .pulsing ∨ (s.channels.units.get .c1).state = .recover) ∧
      (s.channels.units.get .c1).openHit = none ∧ (s.channels.units.get .c1).watch = .watching 1000 ∧
      (s.channels.units.get .c1).pulseTimer = some 1010 ∧ reached 1010 1010 = true) := by
  unfold Sound; decide

/-- The own station's window in JUDGING, its slot WAITING, the transmit queue full: the offer that a lockout's end or a recovery makes is
refused, the slot is skipped and the window judged (R151, R156). -/
theorem test_hyps_PulseWindowJudged_refused :
    let w : PulseWindow := { windowOf .judging .none with pulser := .s4 }
    let full (u : ChannelUnit) : State := ((withUnit u running).withCoup { running.coup with
      slot := .waiting 1500, window := some w }).withLink
        { running.link with queue := List.replicate 12 ⟨0, .presence, [], 1000⟩ }
    let l := full { listener with state := .lockout, lockout := some 2000 }
    let r := full { listener with state := .off, role := .off, watch := .lost (some (1000, 1999)) }
    (∀ s ∈ [l, r], Sound (at_ 2000) s ∧ s.atWork = true ∧ s.coup.window = some w ∧ w.stage = .judging ∧
      s.coup.slot = .waiting 1500 ∧ later 2000 (1500 + span (Block.pulseSpacingMs s.block * 500)) = false ∧
      pulseChannel s = some .c1 ∧ 12 ≤ s.link.queue.length ∧ (s.coup.records.get .c1).state ≠ .dead) ∧
    ((l.channels.units.get .c1).state = .lockout ∧ (l.channels.units.get .c1).role = .listen ∧
      (l.channels.units.get .c1).lockout = some 2000 ∧ reached 2000 2000 = true) ∧
    ((r.channels.units.get .c1).watch = .lost (some (1000, 1999)) ∧ 1000 ≤ elapsed 2000 1000 ∧ elapsed 2000 1999 < 8 ∧
      (r.channels.units.get .c1).openHit = none) ∧
    (∀ t ∈ [after (.lockoutTimerExpiry (at_ 2000) .c1) l, after (.sampleRecovery (at_ 2000) .c1) r],
      t.coup.slot = .none ∧ t.coup.window = none ∧ t.coup.counts.skipped = 1 ∧ t.coup.counts.judged = 1) := by
  unfold Sound; decide

theorem test_hyps_PulseWindowJudged_record :
    (50 ≤ 50 ∧ 49 < 50) ∧ (∀ p, Capture.withdrawn ≠ .peaked p) ∧
    ((⟨.dead, none, 2⟩ : CouplingRecord).state = .dead ∧ (⟨.good, some 60, 0⟩ : CouplingRecord).state ≠ .dead ∧
      (⟨.good, some 60, 0⟩ : CouplingRecord).misses = 0 ∧ 1 ≤ (⟨.weak, some 40, 1⟩ : CouplingRecord).misses) := by
  refine ⟨by decide, fun p h => Capture.noConfusion h, by decide⟩

/-! ### Integrity, logout, the Board Port -/

/-- The scrub at this word. -/
def scrubAt (w : StoreWord) (s : State) : State := s.withFault { s.fault with scrub := w }

theorem test_hyps_FaultyReadFreezesStation_scrubMovesOn :
    let d := decidingWith none
    let f (w : StoreWord) := setAside (.segment 2) (scrubAt w (station .frozen .ret))
    (∀ s ∈ [running, scrubAt (.config 2047) running, scrubAt (.segment 5) running, scrubAt (.segment 6) running,
        scrubAt (.config 2047) (running.withEvid (.reset 0)), scrubAt (.segment 6) d, scrubAt (.snapshot 5) d,
        scrubAt (.snapshot 6) d, f (.config 7), f (.segment 1), f (.segment 6)],
      s.resetHeld = false ∧ s.linkUp = true ∧ ∀ u ∈ s.fault.flipped, u.word ≠ s.fault.scrub) ∧
    (running.fault.scrub = .config 0 ∧ running.evid.table.length = 6 ∧ running.evid.table ≠ [] ∧ d.evid.table.length = 6 ∧
      running.agree.snapshot = none ∧ d.agree.snapshot ≠ none ∧ (Evidence.reset 0).table = []) ∧
    (let s := f (.segment 2)
     s.resetHeld = false ∧ s.linkUp = true ∧ s.member.station = .frozen ∧ s.fault.faultedWord = some s.fault.scrub ∧
      (∃ u ∈ s.fault.flipped, u.word = s.fault.scrub) ∧
      (after (.scrubRead (at_ 1001)) s).fault = { s.fault with scrub := .segment 3 }) := by decide

/-- Station 4 with a flipped bit in segment 2's record, where the scrub is. -/
def upset : State := running.withFault { running.fault with flipped := [⟨.segment 2, 3⟩], scrub := .segment 2 }

theorem test_hyps_FaultyReadFreezesStation_scrub :
    (at_ 1001).upsets = [] ∧ upset.resetHeld = false ∧ upset.atWork = true ∧ StoreWord.segment 2 = upset.fault.scrub ∧
      (∃ u ∈ upset.fault.flipped, u.word = .segment 2) ∧ upset.fault.faultedWord ≠ some (.segment 2) ∧
      upset.link.current = none ∧ ∀ u ∈ upset.fault.flipped, u.word ≠ .config 0x10 := by decide

/-- Station 4 with a flipped bit in the access timeout too. -/
def upsetTwice : State :=
  upset.withFault { upset.fault with flipped := ⟨.config 0x10, 0⟩ :: upset.fault.flipped }

/-- A freeze whose LOGOUT part 1 reads a faulty access timeout ends in the restart of a second fault (R166), and the restarted
station, which reads that word again, freezes on it. -/
theorem test_secondFaultInFreezingStep :
    (match exec (.scrubRead (at_ 1001)) upset, exec (.scrubRead (at_ 1001)) upsetTwice with
      | .next t, .next u => some ((t.fault.faultedWord, t.fault.record.restarts), u.fault.faultedWord, u.fault.record.restarts,
          u.member.station)
      | _, _ => none) = some ((some (.segment 2), 0), some (.config 0x10), 1, .frozen) := by decide

/-- A flipped bit in this word, away from the scrub. -/
def flipIn (w : StoreWord) (s : State) : State := s.withFault { s.fault with flipped := [⟨w, 3⟩] }

theorem test_hyps_FaultyReadFreezesStation_reads :
    let r := flipIn (.segment 2) running
    let c := flipIn (.segment 2) (station .running .ret)
    let d := (decidingWith none).withAgree { (decidingWith none).agree with transfer := .sending 5 (.lead 2000) }
    (OnlyBad (at_ 1001) r (.segment 2) ∧ r.atWork = true ∧ r.port.slot = none ∧ r.port.checking = false ∧
      1 ≤ (2 : Byte).toNat ∧ (2 : Byte).toNat ≤ Block.nSeg r.block) ∧
    (OnlyBad (at_ 3000) c (.segment 2) ∧ c.atWork = true ∧ c.tracker.isOpen = true ∧ c.tracker.settle = some 3000 ∧
      reached 3000 3000 = true ∧ c.tracker.disordered = false ∧ c.tracker.abandoned = false ∧ 2 ≤ c.evid.table.length) ∧
    (∀ k ∈ [0, 5, 6], let s := flipIn (.snapshot k) d
      OnlyBad (at_ 2000) s (.snapshot k) ∧ s.atWork = true ∧ s.agree.transfer = .sending 5 (.lead 2000) ∧
        reached 2000 2000 = true ∧ s.agree.snapshot = some ⟨some 20, 3, List.replicate 6 (.clean false)⟩) := by
  unfold OnlyBad; decide

/-- A faulty N_SEG (R161): no segment is folded, no snapshot taken, no ROW requested. -/
theorem test_hyps_FaultyReadFreezesStation_segments :
    let bad (s : State) := flipIn (.config 0x1A) (s.withEvid { s.evid with applied := [event 3 1 5] })
    let r := station .running .ret
    let d := (decidingWith none).withAgree { (decidingWith none).agree with transfer := .sending 5 (.lead 2000) }
    (∀ s ∈ [bad r, bad (r.withTracker { r.tracker with disordered := true }), bad (r.withTracker { r.tracker with abandoned := true })],
      (OnlyBad (at_ 3000) s (.config 0x1A) ∧ s.atWork = true ∧ s.tracker.isOpen = true ∧ s.tracker.settle = some 3000 ∧
        reached 3000 3000 = true) ∧
      (let t := after (.settleTimerExpiry (at_ 3000)) s
       t.member.station = .frozen ∧ t.evid.table = s.evid.table ∧ t.agree.snapshot = s.agree.snapshot ∧
        t.agree.ownDigest = s.agree.ownDigest ∧
        (t.evid.applied = if s.tracker.disordered || s.tracker.abandoned then [] else s.evid.applied))) ∧
    (∀ w ∈ [StoreWord.config 0x1A, .config 0x1B], let s := flipIn w d
      (OnlyBad (at_ 2000) s w ∧ s.atWork = true ∧ s.agree.transfer = .sending 5 (.lead 2000) ∧ reached 2000 2000 = true ∧
        s.agree.snapshot = some ⟨some 20, 3, List.replicate 6 (.clean false)⟩) ∧
      (let t := after (.transferLeadExpiry (at_ 2000)) s
       t.member.station = .frozen ∧ t.agree = s.agree ∧ t.fault.faultedWord = some w)) := by
  unfold OnlyBad; decide

theorem test_hyps_SoftFaultsDropEntries :
    let w := flipIn (.window ⟨4, 1, 1000⟩) (windowWith [entry 4 1 1000, entry 3 1 1100])
    let l := flipIn (.applied ⟨3, 1, 5⟩)
      ((station .running .ret).withEvid { running.evid with applied := [event 3 1 5, event 3 1 6] })
    (w.resetHeld = false ∧ w.fault.faultedWord = none ∧ w.fault.softFaults ≤ 65535 ∧ w.member.station = .running ∧
      w.tracker.isOpen = true ∧ w.windowOpen = false ∧ (w.channels.units.get .c1).state = .quiet ∧
      w.threshold (noteSample 1001 (envelope 1000) (w.channels.units.get .c1)) ≤ amplitude (envelope 1000)) ∧
    (∀ u ∈ w.fault.flipped, u.word = .window ⟨4, 1, 1000⟩) ∧
    (l.resetHeld = false ∧ l.fault.faultedWord = none ∧ l.atWork = true ∧ l.tracker.isOpen = true ∧
      l.tracker.settle = some 3000 ∧ reached 3000 3000 = true ∧ l.tracker.disordered = false ∧ l.tracker.abandoned = false) ∧
    (∀ u ∈ l.fault.flipped, u.word = .applied ⟨3, 1, 5⟩) ∧
    (eventWellFormed (Block.nSeg l.block) (event 3 1 6).event = true ∧ (event 3 1 6).event.cycle = l.tracker.cycle) := by decide

/-- An own hit open on channel 1 with its entry and a peer's in the window. -/
def lossOfHit : State := hitting (hitOfKind .own) (windowWith [entry 4 1 1000, entry 3 1 1100])

theorem test_hyps_FaultyReadFreezesStation_group : ∀ k ∈ [0x16, 0x17, 0x18],
    let r := flipIn (.config k) running
    let l := flipIn (.config k) lossOfHit
    (OnlyBad (at_ 1001) r (.config k) ∧ r.atWork = true ∧ r.member.station = .running ∧ r.tracker.isOpen = true ∧
      r.windowOpen = false ∧ (r.channels.units.get .c1).state = .quiet ∧
      r.threshold (noteSample 1001 (envelope 1000) (r.channels.units.get .c1)) ≤ amplitude (envelope 1000) ∧
      r.coin.window.length < 64) ∧
    (OnlyBad (at_ 1008) l (.config k) ∧ l.atWork = true ∧ (l.channels.units.get .c1).state = .inHit ∧
      (l.channels.units.get .c1).openHit = some (hitOfKind .own) ∧ (hitOfKind .own).kind = .own ∧
      (l.channels.units.get .c1).watch = .watching 1000 ∧ 8 ≤ elapsed 1008 1000 ∧
      (∃ e ∈ l.coin.window, e.id = ⟨l.ownNo, 1, 1000⟩) ∧ ∃ e ∈ l.coin.window, e.id ≠ ⟨l.ownNo, 1, 1000⟩) ∧
    (after (.sampleLoss (at_ 1008) .c1) l).member.station = .frozen := by
  unfold OnlyBad; decide

theorem test_hyps_SoftFaultsDropEntries_loss :
    let l := flipIn (.window ⟨3, 1, 1100⟩) lossOfHit
    (l.resetHeld = false ∧ l.fault.faultedWord = none ∧ l.fault.softFaults ≤ 65535 ∧ l.atWork = true ∧
      (∀ u ∈ l.fault.flipped, u.word = .window ⟨3, 1, 1100⟩) ∧ (l.channels.units.get .c1).state = .inHit ∧
      (l.channels.units.get .c1).openHit = some (hitOfKind .own) ∧ (hitOfKind .own).kind = .own ∧
      (l.channels.units.get .c1).watch = .watching 1000 ∧ 8 ≤ elapsed 1008 1000 ∧
      (∃ e ∈ l.coin.window, e.id = ⟨l.ownNo, 1, 1000⟩) ∧ l.coup.window = none) ∧
    (after (.sampleLoss (at_ 1008) .c1) l).coin.window = [] ∧
    (after (.sampleLoss (at_ 1008) .c1) l).fault.softFaults = 1 := by decide

/-- Station 4 FROZEN at a part of its logout, a bit of this word having flipped. -/
def frozenBy (w : StoreWord) (p : LogoutPart) : State :=
  let s := setAside w (transmitting .logout .frozen)
  (s.withFault { s.fault with logout := some p, logoutTimer := some 2000 }).withLink
    { s.link with queue := [⟨5, .logout, [], 1000⟩] }

/-- The same, frozen by segment 2's record. -/
def frozen (p : LogoutPart) : State := frozenBy (.segment 2) p

/-- The station that a freeze leaves keeps the flipped bit of its word, and no other read finds a fault. -/
theorem test_frozenKeepsFlip :
    let t := after (.scrubRead (at_ 1001)) upset
    NoFaultToFind (at_ 1002) t ∧ t.member.station = .frozen ∧ t.fault.flipped = [⟨.segment 2, 3⟩] ∧
      t.fault.faultedWord = some (.segment 2) ∧ t.fault.logoutTimer = some 101001 := by
  unfold NoFaultToFind; decide

theorem test_hyps_FreezeEndsInRestart_timer : ∀ s ∈ [frozen .part2, frozenBy (.config 0x14) .part2,
      after (.scrubRead (at_ 1001)) upset], s.resetHeld = false ∧ s.member.station = .frozen ∧ s.fault.flipped ≠ [] ∧
    (s.fault.logoutTimer = some 2000 ∨ s.fault.logoutTimer = some 101001) ∧
    reached 2000 2000 = true ∧ reached 101001 101001 = true := by decide

theorem test_hyps_FreezeEndsInRestart_outcome :
    let c : CurrentFrame := { waitingFrame .logout with attempt := .transmitting 900 }
    ∀ p ∈ [LogoutPart.part1, .part2, .part3], ∀ w ∈ [StoreWord.segment 2, .config 0x10],
      NoFaultToFind (at_ 1200) (frozenBy w p) ∧ (frozenBy w p).fault.flipped ≠ [] ∧
      (frozenBy w p).member.station = .frozen ∧ (frozenBy w p).link.current = some c ∧ c.attempt = .transmitting 900 ∧
      c.kind = .logout ∧ c.ref = some 5 ∧ c.unreported = false ∧ (frozenBy w p).link.queue = [⟨5, .logout, [], 1000⟩] ∧
      (frozenBy w p).fault.logout = some p := by
  unfold NoFaultToFind; decide

theorem test_hyps_FreezeEndsInRestart_dropped :
    let s := (frozen .part1).withLink { (frozen .part1).link with current := some (lastTry .logout) }
    NoFaultToFind (at_ 4000) s ∧ s.link.current = some (lastTry .logout) ∧ s.link.queue = [⟨5, .logout, [], 1000⟩] ∧
    EndsNow (at_ 4000) s (lastTry .logout) (.accessTimerExpiry (at_ 4000)) (some .starved) ∧
    EndsNow (at_ 1200) (frozen .part1) (onAir .logout) (.attemptSent (at_ 1200)) none :=
  ⟨by unfold NoFaultToFind; decide, rfl, rfl, endsNow_dropped .logout (by decide), endsNow_sent .logout _⟩

theorem test_hyps_FreezeEndsInRestart_second :
    let s := (frozen .part1).withFault { (frozen .part1).fault with
      flipped := [⟨.segment 1, 3⟩, ⟨.segment 2, 3⟩], scrub := .segment 1 }
    s.resetHeld = false ∧ s.member.station = .frozen ∧ (∃ u ∈ s.fault.flipped, u.word = s.fault.scrub) ∧
      s.fault.faultedWord ≠ some s.fault.scrub ∧ s.port.slot = none ∧ s.port.checking = false ∧
      1 ≤ (1 : Byte).toNat ∧ (1 : Byte).toNat ≤ Block.nSeg s.block ∧
      ∃ u ∈ s.fault.flipped, u.word = .segment (1 : Byte).toNat ∧ s.fault.faultedWord ≠ some u.word := by decide

/-- The two ends of a restart: JOINING where only the table's record was faulty, FROZEN again where a byte that entry to JOINING reads
is (R65, R163, R165). -/
theorem test_restartAfterFreeze :
    let a := after (.logoutTimerExpiry (at_ 2000)) (frozen .part2)
    let b := after (.logoutTimerExpiry (at_ 2000)) (frozenBy (.config 0x14) .part2)
    (joinFault (frozen .part2) = none ∧ joinFault (frozenBy (.config 0x14) .part2) = some 0x14) ∧
    (a.member.station = .joining ∧ a.fault.flipped = [] ∧ a.fault.faultedWord = none ∧ a.fault.record.restarts = 1) ∧
    (b.member.station = .frozen ∧ b.fault.flipped = [⟨.config 0x14, 3⟩] ∧ b.fault.faultedWord = some (.config 0x14) ∧
      b.fault.record.restarts = 1) := by decide

theorem test_hyps_CommandsAreJudged :
    (Sound (at_ 1001) running ∧ running.port.slot = none) ∧ (List.replicate 2048 (0 : Byte)).length = 2048 ∧
    ((0 : Byte).toNat = 0 ∧ 11 < (12 : Byte).toNat) ∧
    (let s := after (.status (at_ 1001)) running
     Sound (at_ 1002) s ∧ s.port.slot ≠ none) := by
  unfold Sound
  refine ⟨by decide, List.length_replicate, by decide, by decide⟩

/-- A FROZEN station that keeps its flipped bit refuses START, RESTART, CLEAR FAULT and SEGMENT CONTROL, and reads the word set aside. -/
theorem test_hyps_CommandsAreJudged_frozen :
    let s := setAside (.segment 2) (station .frozen .ret)
    let t := after (.status (at_ 1001)) s
    (NoFaultToFind (at_ 1001) s ∧ s.fault.flipped ≠ [] ∧ s.member.station = .frozen ∧ s.port.slot = none) ∧
    (NoFaultToFind (at_ 1002) t ∧ t.port.slot ≠ none) ∧
    (∀ c ∈ [Instr.start (at_ 1001), .restart (at_ 1001), .clearFault (at_ 1001), .segmentControl (at_ 1001) 3 0 0 1],
      (after c s).port.slot.map (·.status) = some .refused) ∧
    (after (.readSegment (at_ 1001) 2) s).port.slot.map (·.status) = some .done := by
  unfold NoFaultToFind; decide

theorem test_hyps_CommandsAreJudged_layouts :
    let n : Notice := ⟨some 20, 4, .stacked (List.range 12)⟩
    let r := noticeBytes n
    (State.reset.port.notices = [] ∧ noticeReply State.reset = List.replicate 16 0) ∧
    (u8 r 0 = 12 ∧ u16 r 1 = 20 ∧ u8 r 3 = 4 ∧ r.drop 4 = (List.range 12).map byte) ∧
    (running.port.loadResult = .passed ∧ u8 (statusReply running) 10 = 1) ∧
    (∀ c ∈ channelList, (running.coup.records.get c).misses < 4) ∧
    ((reportedCounts running)[0]? = some 0 ∧ (reportedCounts running)[45]? = some 0) ∧
    ∀ u ∈ running.fault.flipped, u.word ≠ .segment 1 := by decide

theorem test_hyps_LoadCheckEnds :
    (∀ b ∈ [wholeBlock, []], let s := { State.reset with port := { BoardPort.reset with checking := true, config := some b } }
      Sound (at_ 1001) s ∧ s.port.checking = true ∧ s.port.config = some b) ∧
    loadVerdict wholeBlock = none ∧ loadVerdict [] = some (1, 0) := by
  refine ⟨?_, test_block_passes, by decide⟩
  intro b _
  exact ⟨⟨rfl, rfl, rfl⟩, rfl, rfl⟩

/-- Station 4 with a DONE command in its slot. -/
def judgedIn (c : PortCommand) (st : StationState) : State :=
  let s := station st .idle
  s.withPort { s.port with slot := some ⟨c, .done, []⟩ }

theorem test_hyps_DeselectStartsAndRestarts :
    (∀ s ∈ [judgedIn (.load []) .unconfigured, judgedIn .start .configured, judgedIn .restart .running,
        judgedIn .restart .unconfigured], Sound (at_ 1001) s ∧ s.port.slot.map (·.status) = some .done) ∧
    ((judgedIn (.load []) .unconfigured).port.slot = some ⟨.load [], .done, []⟩ ∧
      (judgedIn (.load []) .unconfigured).member.station = .unconfigured) ∧
    (let s := judgedIn .start .configured
     s.member.station = .configured ∧ s.member.number = some .s4 ∧ s.link.queue = [] ∧ s.link.current = none ∧
      s.channels.queue = []) ∧
    (judgedIn .restart .running).member.station ≠ .frozen := by
  unfold Sound; decide

/-- A RESTART, START or LOAD found in a station state that no longer takes it, and a CLEAR FAULT found FROZEN, with the flipped bit of a
freeze. -/
theorem test_hyps_Deselect_late :
    let s (c : PortCommand) := setAside (.segment 2) (judgedIn c .frozen)
    (∀ c ∈ [PortCommand.restart, .start, .load [], .clearFault],
      NoFaultToFind (at_ 1001) (s c) ∧ (s c).fault.flipped ≠ [] ∧ (s c).port.slot = some ⟨c, .done, []⟩ ∧
      (s c).member.station = .frozen) ∧
    (after (.selectRise (at_ 1001) 1) (s .restart)).member.station = .frozen := by
  unfold NoFaultToFind; decide

theorem test_hyps_DeselectServesTheProcessor :
    let n := judgedIn (.nextNotice true) .running
    let k := n.withPort { n.port with stacked := 1 :: List.replicate 11 0 }
    let c : Control := ⟨.release, 0, 0, 1⟩
    let x := judgedIn (.segmentControl c) .running
    (∀ s ∈ [judgedIn .status .running, judgedIn (.nextNotice false) .running, n, k, judgedIn .clearFault .configured, x,
        judgedIn (.segmentControl c) .joining, fullQueue x],
      Sound (at_ 1001) s ∧ s.port.slot.map (·.status) = some .done) ∧
    (∀ v ∈ n.port.stacked, v = 0) ∧ (∃ v ∈ k.port.stacked, 0 < v) ∧
    (judgedIn .clearFault .configured).member.station ≠ .frozen ∧
    (x.member.station = .running ∧ x.link.queue.length < 12 ∧ ∀ d ∈ x.link.queue, d.kind ≠ .control) ∧
    ((judgedIn (.segmentControl c) .joining).member.station ≠ .running ∧ 12 ≤ (fullQueue x).link.queue.length) := by
  unfold Sound; decide

/-! ### The invariants and the layouts -/

theorem test_hyps_InvariantsKept : TrackerInv running ∧ LanesInv running ∧ CapacityInv running ∧
    (∃ t, step running = .next t) := by
  refine ⟨?_, ?_, ?_, { running with clock := running.clock + 1 }, rfl⟩
  · unfold TrackerInv TrackerOk; decide
  · unfold LanesInv LanesOk laneFaulty
    refine ⟨by decide, by decide, fun h => ?_⟩
    exact absurd h (by decide)
  · unfold CapacityInv; decide

theorem test_hyps_SegmentRecordsKept :
    let s := (handing .row (rowBytes 4 (cleanRow 1 4 false)) (peerIs .present running)).withPending [.frameHandlerTake (at_ 1001)]
    SegmentsInv s ∧ s.pending.head? = some (.frameHandlerTake (at_ 1001)) ∧
      (∃ l f, heldFrame s.link = some (l, f) ∧ frameKindOf f.kindByte = some .row ∧
        ∀ r ∈ (rowOf (Block.histLen s.block) f.payload).records, RecordOk r) ∧ ∃ t, step s = .next t := by
  refine ⟨⟨?_, fun _ _ _ _ _ _ h => Transfer.noConfusion h⟩, rfl,
    ⟨.x, frameOf .row (some 20) (rowBytes 4 (cleanRow 1 4 false)), by decide, by decide, ?_⟩, _, rfl⟩
  · unfold RecordOk; decide
  · unfold RecordOk; decide

theorem test_hyps_RecordsReadBackAsWritten :
    (let h : HitRecord := ⟨8, 4, 0xFFFFFFFF, .ret, ⟨90, 65535, 65535, 4095, 65535, true, true⟩⟩
     1 ≤ h.station ∧ h.station ≤ 8 ∧ 1 ≤ h.channel ∧ h.channel ≤ 4 ∧ h.features.peak < 256 ∧ h.features.rise < 65536 ∧
      h.features.duration < 65536 ∧ h.features.crossings < 4096 ∧ h.features.energy < 65536) ∧
    (let r := record .cracked (List.replicate 16 ⟨255, 0x7E⟩) 65535
     (16 ≤ 16 ∧ r.history.length ≤ 16) ∧ r.quietRun < 65536 ∧ ∀ e ∈ r.history, e.count < 256) := by decide

theorem test_hyps_RecordsReadBackAsWritten_layouts :
    (let e := (event 3 1 5).event
     1 ≤ e.hitCount ∧ e.hitCount ≤ 16 ∧ 1 ≤ e.sensorCount ∧ e.sensorCount ≤ 16 ∧ e.ids[0]? = some ⟨3, 1, 5⟩) ∧
    ((cleanRow 1 1 true).count < 16 ∧ (cleanRow 1 1 true).records[0]? = some (.clean false)) ∧
    (let r := record .cracked [⟨255, 0x7E⟩] 65535
     r.history[0]? = some ⟨255, 0x7E⟩ ∧ r.history[3]? = none ∧ 0 < 4 ∧ 3 < 4) ∧
    (let s := transmitting .presence .running
     s.link.current = some (onAir .presence) ∧ (onAir .presence).attempt = .transmitting 900) := by decide

/-! ## One step of each kind of command -/

theorem test_cycRising : (after (.cycRising (at_ 1001)) running).tracker =
    { Tracker.reset with
      phase := .feed, cycle := some 21, isOpen := true, lastClosed := some 20, lastAbandoned := true
      cycleTimer := .running 20001001 } := by decide
theorem test_cycRising_wraps :
    (after (.cycRising (at_ 1001)) (running.withTracker { running.tracker with cycle := some 65534 })).tracker.cycle = some 0 := by
  decide
theorem test_strFalling_placesSlot : (after (.strFalling (at_ 1001)) (station .running .strip)).coup.slot = .placed 81001 := by decide
theorem test_settle_requestsDigest :
    let t := after (.settleTimerExpiry (at_ 3000)) settling
    t.link.queue.map (·.kind) = [.digest] ∧ t.agree.window = some ⟨303000, 3000⟩ ∧ t.port.notices.length = 1 := by decide
theorem test_sample_opensHit : ((after (.sample (at_ 1001) .c1 1000) running).channels.units.c1.openHit).map (·.level) = some 1000 := by
  decide
theorem test_sampleLoss : (after (.sampleLoss (at_ 1008) .c2) running).channels.units.c2.losses = 1 := by decide
theorem test_gap_toSent :
    (after (.attemptSent (at_ 1300)) (after (.accessGapReached (at_ 1001) ⟨.x, none⟩) waiting)).link.sent = 1 := by decide
theorem test_starved_goesToOtherLane : (after (.accessTimerExpiry (at_ 4000)) waiting).link.current.map
    (fun c => (c.lane, c.attempt, c.retries)) = some (.y, .waiting 7000, 1) := by decide
theorem test_handler_takesPresence :
    ((after (.frameHandlerTake (at_ 1001)) (holding (frameOf .presence (some 20) (presenceBytes 7)) running)).member.peers.s3.state) =
      .present := by decide
theorem test_joining_adopts :
    let t := after (.joinTimerExpiry (at_ 2000)) (joining .feed)
    t.tracker.cycle = some 0 ∧ t.tracker.isOpen = true ∧ t.member.station = .running := by decide
theorem test_close_requestsEvent :
    (after (.closeExpiry (at_ 13400)) (windowWith [entry 4 1 1000, entry 3 1 1100])).link.queue.map (·.kind) = [.event] := by decide
/-- A judgment that a faulty expected amplitude cuts short: the window is NONE and counted, the record as before (log entry 50). -/
theorem test_judgment_cutShort :
    let s := flipIn (.config 0x95) (windowed .isOpen (.peaked 60))
    let t := after (.endTagReached (at_ 3100)) s
    t.member.station = .frozen ∧ t.coup.window = none ∧ t.coup.counts.judged = 1 ∧ t.coup.records = s.coup.records ∧
      t.fault.faultedWord = some (.config 0x95) := by decide
/-- A DIGEST carries the standing of the previous decision, OUT-OF-STEP after a transfer that has made the station IN-STEP since (R134, R146). -/
theorem test_digest_carriesDecision :
    let s := running.withAgree { running.agree with standing := .inStep, decided := .outOfStep }
    (digestPayload ⟨some 20, 3, []⟩ 9 s).getD 8 0 = byte (standingCode .outOfStep) := by decide
theorem test_decision_alone : (after (.digestWindowExpiry (at_ 2000)) (decidingWith none)).agree.standing = .novice := by decide
theorem test_fire : (after (.fireTagReached (at_ 12000)) (withUnit { listener with role := .pulse, state := .hush }
    (slotted (.announced 12000)))).pulseDrive .c1 = true := by decide
theorem test_scrub_freezes : (after (.scrubRead (at_ 1001)) upset).member.station = .frozen := by decide
theorem test_readSegment_ofBadWord :
    let t := after (.readSegment (at_ 1001) 2) (upset.withFault { upset.fault with scrub := .config 0 })
    t.member.station = .frozen ∧ t.port.slot.map (·.reply.take 2) = some [2, 8] := by decide
theorem test_load_thenDeselect :
    let t := after (.selectRise (at_ 1001) 1) (judgedIn (.load []) .unconfigured)
    t.port.checking = true ∧ t.port.config = some [] ∧ t.port.slot = none := by decide
theorem test_reset : (after .reset running).resetHeld = true ∧ (after .resetRelease (after .reset running)) = State.reset := by decide
theorem test_tick : step State.reset = .next { State.reset with clock := 1 } := rfl

end Sys2Proof.Tests
end

section
/-! PROOFS. The tracker's invariant along every command: a step that finds a check of a LOAD running runs in UNCONFIGURED, where no command
reaches the operations of a working station; every other step finds `TrackerQuiet`, which Laws/Track.lean carries through the operations. -/

namespace Sys2Proof.Machine

/-- An effect that keeps the tracker's invariant. -/
def KeepsTracker (f : State → State) : Prop := ∀ s, TrackerInv s → TrackerInv (f s)

/-- The invariant speaks of the load check, the station's state and the tracker alone. -/
theorem TrackerInv.of_same {s t : State} (h : TrackerInv s) (hc : t.port.checking = s.port.checking)
    (hm : t.member.station = s.member.station) (ht : t.tracker = s.tracker) : TrackerInv t := by
  unfold TrackerInv
  rw [hc, hm, ht]
  exact h

theorem linkUp_of_atWork {s : State} (h : s.atWork = true) : s.linkUp = true := by
  unfold State.linkUp
  rw [h]
  rfl

theorem atWork_not_frozen {s : State} (h : s.atWork = true) : s.member.station ≠ .frozen := by
  intro hf
  simp [State.atWork, hf] at h

theorem linkUp_not_unconfigured {s : State} (h : s.linkUp = true) : s.member.station ≠ .unconfigured := by
  intro hu
  simp [State.linkUp, State.atWork, hu] at h

/-- Where the link runs, no check of a LOAD does. -/
theorem TrackerInv.quiet_linkUp {s : State} (h : TrackerInv s) (hl : s.linkUp = true) : TrackerQuiet true s :=
  h.quiet (linkUp_not_unconfigured hl)

/-- At work, the tracker's relations hold themselves. -/
theorem TrackerInv.at_work {s : State} (h : TrackerInv s) (hw : s.atWork = true) :
    s.port.checking = false ∧ TrackerKind true s.tracker ∧ s.member.station ≠ .frozen := by
  have hq := h.quiet_linkUp (linkUp_of_atWork hw)
  exact ⟨hq.1, hq.2.resolve_left (atWork_not_frozen hw), atWork_not_frozen hw⟩

/-- The arrival of a command touches none of the three. -/
theorem TrackerInv.arrive {m : Moment} {s : State} (h : TrackerInv s) : TrackerInv (Machine.arrive m s) := h.of_same rfl rfl rfl

/-- A second fault at the end of a step is found in a FROZEN station, where no check of a LOAD runs. -/
theorem TrackerInv.lookAgain {s t : State} (h : TrackerInv t) : TrackerInv (Machine.lookAgain s t) := by
  unfold Machine.lookAgain
  split
  next hg =>
    have hf : t.member.station = .frozen := by simp at hg; tauto
    exact (secondFault_track t (h.quiet (by rw [hf]; decide))).inv
  next => exact h

/-- A command's meaning that keeps the tracker's invariant. -/
def StepKeepsTracker (e : State → Host.Outcome State Fault Refusal) : Prop := ∀ s t, TrackerInv s → e s = .next t → TrackerInv t

/-- A command at its moment keeps the invariant if its effect does. -/
theorem atMoment_keepsTracker {m : Moment} {f : State → State} (hf : KeepsTracker f) : StepKeepsTracker fun s => atMoment m s f := by
  intro s t h ht
  unfold atMoment at ht
  injection ht with ht
  subst ht
  split
  next => exact h
  next => exact (hf _ h.arrive).lookAgain

/-- What is done only while the link runs is done with no check running. -/
theorem keepsTracker_guarded {p : State → Prop} [DecidablePred p] {f : State → State} (hp : ∀ s, p s → s.linkUp = true)
    (hf : ∀ s, p s → TrackerQuiet true s → TrackerQuiet true (f s)) : KeepsTracker fun s => if p s then f s else s := by
  intro s h
  dsimp only
  split
  next hs => exact (hf s hs (h.quiet_linkUp (hp s hs))).inv
  next => exact h

/-! ## The press lines and the tracker's timers -/

/-- An edge is taken at work alone (R1). -/
theorem takeEdge_keepsTracker {f : State → State}
    (hf : ∀ s, s.port.checking = false → TrackerKind true s.tracker → s.member.station ≠ .frozen → TrackerQuiet true (f s)) :
    KeepsTracker (takeEdge f) :=
  keepsTracker_guarded (fun _ hw => linkUp_of_atWork hw) fun s hw hq =>
    hf s hq.1 (hq.2.resolve_left (atWork_not_frozen hw)) (atWork_not_frozen hw)

theorem settleDue_atWork {s : State} (h : settleDue s = true) : s.atWork = true := by
  simp only [settleDue, Bool.and_eq_true] at h
  exact h.1.1

theorem settleExpiry_keepsTracker : KeepsTracker fun s => if settleDue s then settleClose s else s :=
  keepsTracker_guarded (fun _ hd => linkUp_of_atWork (settleDue_atWork hd)) fun s hd hq =>
    settleClose_track s hq.1 (hq.2.resolve_left (atWork_not_frozen (settleDue_atWork hd)))

/-- An expiry of the cycle timer finds the station at work and the timer running (R12). -/
theorem cycleDue_running {s : State} (h : cycleDue s = true) : s.atWork = true ∧ s.tracker.cycleTimer ≠ .stopped := by
  simp only [cycleDue, Bool.and_eq_true] at h
  refine ⟨h.1, fun hs => ?_⟩
  rw [hs] at h
  exact Bool.noConfusion h.2

theorem cycleExpiry_keepsTracker : KeepsTracker fun s => if cycleDue s then cycleExpired s else s :=
  keepsTracker_guarded (fun _ hd => linkUp_of_atWork (cycleDue_running hd).1) fun s hd hq =>
    cycleExpired_track s hq.1 (hq.2.resolve_left (atWork_not_frozen (cycleDue_running hd).1)) (cycleDue_running hd).2

/-! ## Attempts on a lane -/

theorem whileWaiting_keepsTracker {f : CurrentFrame → Tag → State → State}
    (hf : ∀ c d s, TrackerQuiet true s → TrackerQuiet true (f c d s)) : KeepsTracker (whileWaiting f) := by
  intro s h
  unfold whileWaiting
  split
  next c _ =>
    split
    next d _ =>
      split
      next hl => exact (hf c d s (h.quiet_linkUp hl)).inv
      next => exact h
    next => exact h
  next => exact h

theorem whileTransmitting_keepsTracker {f : CurrentFrame → Tag → State → State}
    (hf : ∀ c d s, TrackerQuiet true s → TrackerQuiet true (f c d s)) : KeepsTracker (whileTransmitting f) := by
  intro s h
  unfold whileTransmitting
  split
  next c _ =>
    split
    next d _ =>
      split
      next hl => exact (hf c d s (h.quiet_linkUp hl)).inv
      next => exact h
    next => exact h
  next => exact h

/-! ## What is done at a moment that only a running link finds due -/

theorem lockoutDue_linkUp {c : Channel} {s : State} (h : lockoutDue c s = true) : s.linkUp = true := by
  simp only [lockoutDue, Bool.and_eq_true] at h
  exact linkUp_of_atWork h.1.1

theorem lossDue_linkUp {c : Channel} {s : State} (h : lossDue c s = true) : s.linkUp = true := by
  simp only [lossDue, Bool.and_eq_true] at h
  exact linkUp_of_atWork h.1.1

theorem pulseDue_linkUp {c : Channel} {st : ChannelState} {s : State} (h : pulseDue c st s = true) : s.linkUp = true := by
  simp only [pulseDue, Bool.and_eq_true] at h
  exact linkUp_of_atWork h.1.1

theorem silenceDue_linkUp {st : Station} {s : State} (h : silenceDue st s = true) : s.linkUp = true := by
  simp only [silenceDue, Bool.and_eq_true] at h
  exact linkUp_of_atWork h.1.1

theorem presenceDue_linkUp {s : State} (h : presenceDue s = true) : s.linkUp = true := by
  simp only [presenceDue, Bool.and_eq_true] at h
  exact linkUp_of_atWork h.1

theorem closeDue_linkUp {s : State} (h : closeDue s = true) : s.linkUp = true := by
  simp only [closeDue, Bool.and_eq_true] at h
  exact linkUp_of_atWork h.1

theorem digestDue_linkUp {s : State} (h : digestDue s = true) : s.linkUp = true := by
  simp only [digestDue, Bool.and_eq_true] at h
  exact linkUp_of_atWork h.1

theorem recoveredAt_linkUp {c : Channel} {s : State} {last : Tag} (h : recoveredAt c s = some last) : s.linkUp = true := by
  unfold recoveredAt at h
  split at h
  next =>
    split at h
    next hw => exact linkUp_of_atWork (by simp only [Bool.and_eq_true] at hw; exact hw.1.1)
    next => cases h
  next => cases h

theorem assembling_linkUp {l : Lane} {s : State} {a : Tag × Bool} (h : assembling l s = some a) : s.linkUp = true := by
  unfold assembling at h
  split at h
  next =>
    split at h
    next hl => exact hl
    next => cases h
  next => cases h

theorem leadDue_linkUp {s : State} {n : Nat} (h : leadDue s = some n) : s.linkUp = true := by
  unfold leadDue at h
  split at h
  next =>
    split at h
    next hw => exact linkUp_of_atWork (by simp only [Bool.and_eq_true] at hw; exact hw.1)
    next => cases h
  next => cases h

theorem slotDue_linkUp {s : State} {tag : Tag} (h : slotDue s = some tag) : s.linkUp = true := by
  unfold slotDue at h
  split at h
  next =>
    split at h
    next hw => exact linkUp_of_atWork (by simp only [Bool.and_eq_true] at hw; exact hw.1)
    next => cases h
  next => cases h

theorem waitOver_linkUp {s : State} (h : waitOver s = true) : s.linkUp = true := by
  unfold waitOver at h
  split at h
  next => exact linkUp_of_atWork (by simp only [Bool.and_eq_true] at h; exact h.1)
  next => cases h

theorem fireDue_linkUp {s : State} (h : fireDue s = true) : s.linkUp = true := by
  unfold fireDue at h
  split at h
  next => exact linkUp_of_atWork (by simp only [Bool.and_eq_true] at h; exact h.1)
  next => cases h

theorem windowFireDue_linkUp {s : State} (h : windowFireDue s = true) : s.linkUp = true := by
  unfold windowFireDue at h
  split at h
  next => exact linkUp_of_atWork (by simp only [Bool.and_eq_true] at h; exact h.1.1)
  next => cases h

theorem endTagDue_linkUp {s : State} (h : endTagDue s = true) : s.linkUp = true := by
  unfold endTagDue at h
  split at h
  next => exact linkUp_of_atWork (by simp only [Bool.and_eq_true] at h; exact h.1.1)
  next => cases h

theorem joinDue_joining {s : State} (h : joinDue s = true) : s.member.station = .joining := by
  simp only [joinDue, Bool.and_eq_true, beq_iff_eq] at h
  exact h.1

theorem joinExpiry_keepsTracker : KeepsTracker fun s => if joinDue s then joinAdopt 0 s else s := by
  refine keepsTracker_guarded (fun s hd => ?_) fun s hd hq => ?_
  · simp [State.linkUp, State.atWork, joinDue_joining hd]
  · exact joinAdopt_track 0 s hq (by rw [joinDue_joining hd]; decide)

theorem logoutDue_linkUp {s : State} (h : logoutDue s = true) : s.linkUp = true := by
  simp only [logoutDue, Bool.and_eq_true, beq_iff_eq] at h
  simp [State.linkUp, h.1]

/-! ## The Board Port -/

/-- A judgment writes the command slot alone. -/
theorem judgeCommand_keepsTracker (c : PortCommand) (inRange : Bool) (reply : List Byte) {s : State} (h : TrackerInv s) :
    TrackerInv (judgeCommand c inRange reply s) := by
  unfold judgeCommand
  split
  next => exact h
  next => exact h.of_same rfl rfl rfl

theorem readSegmentStep_keepsTracker (n : Nat) : KeepsTracker (readSegmentStep n) := by
  intro s h
  by_cases hl : s.linkUp = true
  · exact (readSegmentStep_track n s (h.quiet_linkUp hl)).inv
  · unfold readSegmentStep
    rw [if_pos (Or.inr (by simpa using hl))]
    exact judgeCommand_keepsTracker _ _ _ h

theorem segmentControlStep_keepsTracker (kind group value mask : Byte) : KeepsTracker (segmentControlStep kind group value mask) := by
  intro s h
  by_cases hr : s.member.station = .running
  · exact (segmentControlStep_track kind group value mask s (h.quiet (by rw [hr]; decide))).inv
  · unfold segmentControlStep
    rw [if_neg fun hc => hr hc.2]
    exact judgeCommand_keepsTracker _ _ _ h

/-- The end of a check leaves none running, in UNCONFIGURED or CONFIGURED (R170). -/
theorem endCheck_keepsTracker : KeepsTracker fun s => if s.port.checking then endCheck s else s := by
  intro s h
  dsimp only
  split
  next hc =>
    have hu := h.1 hc
    have hk : TrackerOk s.tracker := h.2.resolve_left (by rw [hu]; decide)
    unfold endCheck
    split
    next => exact ⟨fun hf => Bool.noConfusion hf, Or.inr hk⟩
    next => exact ⟨fun hf => Bool.noConfusion hf, Or.inr hk⟩
  next => exact h

/-- A notice touches neither the load check, nor the station, nor the tracker. -/
theorem raise_keepsTracker (n : Notice) {s : State} (h : TrackerInv s) : TrackerInv (raise n s) := by
  unfold raise
  split
  next => exact h.of_same rfl rfl rfl
  next => exact h.of_same rfl rfl rfl

/-- An UNCONFIGURED station does not look for parity faults (R161). -/
theorem readFault_unconfigured {s : State} (hu : s.member.station = .unconfigured) (kind : FaultKind) (w : StoreWord) :
    readFault kind w s = s := by
  unfold readFault
  rw [hu]

theorem controlResult_keepsTracker (delivered : Bool) (c : Control) (cause : Option FailCause) (retries : Nat) :
    KeepsTracker (controlResult delivered c cause retries) := by
  intro s h
  by_cases hu : s.member.station = .unconfigured
  · have hr : TrackerInv (raiseResult delivered c cause retries s) := raise_keepsTracker _ h
    have hm : (raiseResult delivered c cause retries s).member.station = .unconfigured := by
      unfold raiseResult raiseNow
      rw [raise_eq]
      exact hu
    unfold controlResult boardReads
    split
    next => rw [readFault_unconfigured hm]; exact hr
    next => exact hr
  · exact (controlResult_track delivered c cause retries s (h.quiet hu)).inv

theorem removeNotice_keepsTracker (returned : Bool) (bytesOut : Nat) : KeepsTracker (removeNotice returned bytesOut) := by
  intro s h
  unfold removeNotice offerStacked
  repeat' split
  all_goals exact h.of_same rfl rfl rfl

/-- A commanded RESTART resets the tracker, and leaves an UNCONFIGURED station so (R172). -/
theorem commandRestart_keepsTracker {s : State} (h : TrackerInv s) : TrackerInv (commandRestart s) := by
  unfold commandRestart
  dsimp only
  split
  next hu => exact ⟨fun _ => hu, Or.inr (trackerKind_ok.1 (kind_reset true))⟩
  next hu => exact (enterJoining_track (resetBlocks .command s) (h.quiet hu).1 (kind_reset true)).inv

/-- A command of the port takes effect in the station states that allow it (R168, R169). -/
theorem applyCommand_keepsTracker (c : PortCommand) (bytesOut : Nat) {s : State} (h : TrackerInv s)
    (ht : takenIn c s.member.station = true) : TrackerInv (applyCommand c bytesOut s) := by
  cases c with
  | load b =>
    have hs : s.member.station = .unconfigured := by simpa [takenIn] using ht
    exact ⟨fun _ => hs, h.2⟩
  | start =>
    have hs : s.member.station = .configured := by simpa [takenIn] using ht
    have hq := h.quiet (by rw [hs]; decide)
    exact (enterJoining_track s hq.1 (hq.2.resolve_left (by rw [hs]; decide))).inv
  | restart => exact commandRestart_keepsTracker h
  | nextNotice returned => exact removeNotice_keepsTracker returned bytesOut s h
  | clearFault => exact h.of_same rfl rfl rfl
  | segmentControl ctl =>
    have hs : s.member.station = .running := by simpa [takenIn] using ht
    exact (requestControl_track ctl s (h.quiet (by rw [hs]; decide))).inv
  | _ => exact h

theorem deselect_keepsTracker (bytesOut : Nat) : KeepsTracker (deselect bytesOut) := by
  intro s h
  unfold deselect
  split
  next => exact h
  next j _ =>
    have h1 : TrackerInv (s.withPort { s.port with slot := none }) := h.of_same rfl rfl rfl
    dsimp only
    split
    next => exact h1
    next =>
      split
      next ht => exact applyCommand_keepsTracker j.command bytesOut h1 ht
      next =>
        unfold lateCommand
        split
        next => exact controlResult_keepsTracker _ _ _ _ _ h1
        next => exact h1

/-! ## The pin -/

theorem powerOnValues_trackerInv (held : Bool) (s : State) : TrackerInv (powerOnValues held s) :=
  ⟨fun hc => Bool.noConfusion hc, Or.inr (trackerKind_ok.1 (kind_reset true))⟩

/-! ## Every command -/

theorem cycRising_keepsTracker (m : Moment) : StepKeepsTracker (execCycRising m) :=
  atMoment_keepsTracker (takeEdge_keepsTracker fun s hc hk _ => cycEdge_track s hc hk)

theorem filRising_keepsTracker (m : Moment) : StepKeepsTracker (execFilRising m) :=
  atMoment_keepsTracker (takeEdge_keepsTracker fun s hc hk _ => filEdge_track s hc hk)

theorem vibRising_keepsTracker (m : Moment) : StepKeepsTracker (execVibRising m) :=
  atMoment_keepsTracker (takeEdge_keepsTracker fun s hc hk _ => vibEdge_track s hc hk)

theorem strRising_keepsTracker (m : Moment) : StepKeepsTracker (execStrRising m) :=
  atMoment_keepsTracker (takeEdge_keepsTracker fun s hc hk _ => strEdge_track s hc hk)

theorem strFalling_keepsTracker (m : Moment) : StepKeepsTracker (execStrFalling m) :=
  atMoment_keepsTracker (takeEdge_keepsTracker strFall_track)

theorem settleTimerExpiry_keepsTracker (m : Moment) : StepKeepsTracker (execSettleTimerExpiry m) :=
  atMoment_keepsTracker settleExpiry_keepsTracker

theorem cycleTimerExpiry_keepsTracker (m : Moment) : StepKeepsTracker (execCycleTimerExpiry m) :=
  atMoment_keepsTracker cycleExpiry_keepsTracker

theorem sample_keepsTracker (m : Moment) (c : Channel) (v : Half) : StepKeepsTracker (execSample m c v) :=
  atMoment_keepsTracker
    (keepsTracker_guarded (fun _ hw => linkUp_of_atWork hw) fun s _ hq => sampleStep_track c (envelope v) s hq)

theorem lockoutTimerExpiry_keepsTracker (m : Moment) (c : Channel) : StepKeepsTracker (execLockoutTimerExpiry m c) :=
  atMoment_keepsTracker (keepsTracker_guarded (fun _ hd => lockoutDue_linkUp hd) fun s _ hq =>
    usingConfig_track _ _ s (fun t ht => endLockout_track c t ht) hq)

theorem sampleLoss_keepsTracker (m : Moment) (c : Channel) : StepKeepsTracker (execSampleLoss m c) :=
  atMoment_keepsTracker (keepsTracker_guarded (fun _ hd => lossDue_linkUp hd) fun s _ hq =>
    sampleLost_track c s hq)

theorem sampleRecovery_keepsTracker (m : Moment) (c : Channel) : StepKeepsTracker (execSampleRecovery m c) :=
  atMoment_keepsTracker fun s h => by
    split
    next last ha => exact (usingConfig_track _ _ s (fun t ht => sampleRecovered_track c last t ht) (h.quiet_linkUp (recoveredAt_linkUp ha))).inv
    next => exact h

theorem pulseWidthEnd_keepsTracker (m : Moment) (c : Channel) : StepKeepsTracker (execPulseWidthEnd m c) :=
  atMoment_keepsTracker (keepsTracker_guarded (fun _ hd => pulseDue_linkUp hd) fun s _ hq =>
    usingConfig_track _ _ s (fun t ht => endPulseWidth_track c t ht) hq)

theorem recoveryEnd_keepsTracker (m : Moment) (c : Channel) : StepKeepsTracker (execRecoveryEnd m c) :=
  atMoment_keepsTracker (keepsTracker_guarded (fun _ hd => pulseDue_linkUp hd) fun s _ hq =>
    endRecovery_track c s hq)

theorem accessGapReached_keepsTracker (m : Moment) (lane : RestingLane) : StepKeepsTracker (execAccessGapReached m lane) :=
  atMoment_keepsTracker
    (whileWaiting_keepsTracker fun c _ s hq => takeGap_track lane.lane c _ (hearBytes_track lane s hq))

theorem accessTimerExpiry_keepsTracker (m : Moment) : StepKeepsTracker (execAccessTimerExpiry m) :=
  atMoment_keepsTracker (whileWaiting_keepsTracker starve_track)

theorem attemptSent_keepsTracker (m : Moment) : StepKeepsTracker (execAttemptSent m) :=
  atMoment_keepsTracker (whileTransmitting_keepsTracker attemptSucceeded_track)

theorem echoMismatch_keepsTracker (m : Moment) : StepKeepsTracker (execEchoMismatch m) :=
  atMoment_keepsTracker (whileTransmitting_keepsTracker fun c _ s hq => echoFailed_track c .clash s hq)

theorem echoTimeout_keepsTracker (m : Moment) (index : Nat) : StepKeepsTracker (execEchoTimeout m index) :=
  atMoment_keepsTracker (whileTransmitting_keepsTracker fun c _ s hq => echoFailed_track c (timeoutCause index) s hq)

theorem frameComplete_keepsTracker (m : Moment) (l : Lane) (bytes : List Byte) : StepKeepsTracker (execFrameComplete m l bytes) :=
  atMoment_keepsTracker fun s h => by
    split
    next stamp own ha => exact (completeFrame_track l ⟨bytes, stamp, own⟩ s (h.quiet_linkUp (assembling_linkUp ha))).inv
    next => exact h

theorem frameBroken_keepsTracker (m : Moment) (l : Lane) (cause : BrokenCause) : StepKeepsTracker (execFrameBroken m l cause) :=
  atMoment_keepsTracker fun s h => by
    split
    next ha => exact (breakFrame_track l _ s (h.quiet_linkUp (assembling_linkUp ha))).inv
    next => exact h

theorem frameStart_keepsTracker (m : Moment) (l : Lane) : StepKeepsTracker (execFrameStart m l) :=
  atMoment_keepsTracker (keepsTracker_guarded (fun _ hd => id hd) fun s _ hq =>
    beginFrameOn_track l s hq)

theorem frameHandlerTake_keepsTracker (m : Moment) : StepKeepsTracker (execFrameHandlerTake m) :=
  atMoment_keepsTracker fun s h => by
    split
    next l f _ => exact keepsTracker_guarded (p := fun s => s.linkUp = true) (fun _ hl => hl) (fun s _ hq => handleFrame_track l f s hq) s h
    next => exact h

theorem joinTimerExpiry_keepsTracker (m : Moment) : StepKeepsTracker (execJoinTimerExpiry m) :=
  atMoment_keepsTracker joinExpiry_keepsTracker

theorem silenceTimerExpiry_keepsTracker (m : Moment) (st : Station) : StepKeepsTracker (execSilenceTimerExpiry m st) :=
  atMoment_keepsTracker (keepsTracker_guarded (fun _ hd => silenceDue_linkUp hd) fun s _ hq =>
    goMissing_track st s hq)

theorem presenceTimerExpiry_keepsTracker (m : Moment) : StepKeepsTracker (execPresenceTimerExpiry m) :=
  atMoment_keepsTracker (keepsTracker_guarded (fun _ hd => presenceDue_linkUp hd) fun s _ hq =>
    usingConfig_track _ _ s (fun t ht => askPresence_track t ht) hq)

theorem closeExpiry_keepsTracker (m : Moment) : StepKeepsTracker (execCloseExpiry m) :=
  atMoment_keepsTracker (keepsTracker_guarded (fun _ hd => closeDue_linkUp hd) fun s _ hq =>
    takeCloseExpiry_track s hq)

theorem publicationDeadline_keepsTracker (m : Moment) (key : HitId) : StepKeepsTracker (execPublicationDeadline m key) :=
  atMoment_keepsTracker fun s h => by
    split
    next p _ =>
      exact keepsTracker_guarded (p := fun s => s.atWork = true) (fun _ hw => linkUp_of_atWork hw)
        (fun s _ hq => publishAsStandIn_track p s hq) s h
    next => exact h

theorem digestWindowExpiry_keepsTracker (m : Moment) : StepKeepsTracker (execDigestWindowExpiry m) :=
  atMoment_keepsTracker (keepsTracker_guarded (fun _ hd => digestDue_linkUp hd) fun s _ hq =>
    usingConfig_track _ _ s (fun t ht => decide__track t ht) hq)

theorem transferLeadExpiry_keepsTracker (m : Moment) : StepKeepsTracker (execTransferLeadExpiry m) :=
  atMoment_keepsTracker fun s h => by
    split
    next n ha => exact (sendRow_track n s (h.quiet_linkUp (leadDue_linkUp ha))).inv
    next => exact h

theorem slotTagReached_keepsTracker (m : Moment) : StepKeepsTracker (execSlotTagReached m) :=
  atMoment_keepsTracker fun s h => by
    split
    next tag ha => exact (usingConfig_track _ _ s (fun t ht => takeSlot_track tag t ht) (h.quiet_linkUp (slotDue_linkUp ha))).inv
    next => exact h

theorem slotWaitEnd_keepsTracker (m : Moment) : StepKeepsTracker (execSlotWaitEnd m) :=
  atMoment_keepsTracker (keepsTracker_guarded (fun _ hd => waitOver_linkUp hd) fun s _ hq =>
    usingConfig_track _ _ s (fun t ht => endWait_track t ht) hq)

theorem fireTagReached_keepsTracker (m : Moment) : StepKeepsTracker (execFireTagReached m) :=
  atMoment_keepsTracker (keepsTracker_guarded (fun _ hd => fireDue_linkUp hd) fun s _ hq =>
    usingConfig_track _ _ s (fun t ht => takeFire_track t ht) hq)

theorem windowFireTag_keepsTracker (m : Moment) : StepKeepsTracker (execWindowFireTag m) :=
  atMoment_keepsTracker (keepsTracker_guarded (fun _ hd => windowFireDue_linkUp hd) fun s _ hq =>
    reofferPulse_track _ (openWindow_track s hq))

theorem endTagReached_keepsTracker (m : Moment) : StepKeepsTracker (execEndTagReached m) :=
  atMoment_keepsTracker (keepsTracker_guarded (fun _ hd => endTagDue_linkUp hd) fun s _ hq =>
    takeEndTag_track s hq)

theorem scrubRead_keepsTracker (m : Moment) : StepKeepsTracker (execScrubRead m) :=
  atMoment_keepsTracker (keepsTracker_guarded (fun _ hd => id hd) fun s _ hq =>
    scrubStep_track s hq)

theorem logoutTimerExpiry_keepsTracker (m : Moment) : StepKeepsTracker (execLogoutTimerExpiry m) :=
  atMoment_keepsTracker (keepsTracker_guarded (fun _ hd => logoutDue_linkUp hd) fun s _ hq =>
    selfRestart_track .fault s hq)

theorem load_keepsTracker (m : Moment) (block : List Byte) : StepKeepsTracker (execLoad m block) :=
  atMoment_keepsTracker fun s h => by
    split
    next => exact judgeCommand_keepsTracker _ _ _ h
    next => exact h

theorem loadCheckComplete_keepsTracker (m : Moment) : StepKeepsTracker (execLoadCheckComplete m) :=
  atMoment_keepsTracker endCheck_keepsTracker

theorem start_keepsTracker (m : Moment) : StepKeepsTracker (execStart m) :=
  atMoment_keepsTracker fun _ h => judgeCommand_keepsTracker _ _ _ h

theorem restart_keepsTracker (m : Moment) : StepKeepsTracker (execRestart m) :=
  atMoment_keepsTracker fun _ h => judgeCommand_keepsTracker _ _ _ h

theorem status_keepsTracker (m : Moment) : StepKeepsTracker (execStatus m) :=
  atMoment_keepsTracker fun _ h => judgeCommand_keepsTracker _ _ _ h

theorem nextNotice_keepsTracker (m : Moment) : StepKeepsTracker (execNextNotice m) :=
  atMoment_keepsTracker fun _ h => judgeCommand_keepsTracker _ _ _ h

theorem readPeer_keepsTracker (m : Moment) (n : Byte) : StepKeepsTracker (execReadPeer m n) :=
  atMoment_keepsTracker fun _ h => judgeCommand_keepsTracker _ _ _ h

theorem readCoupling_keepsTracker (m : Moment) : StepKeepsTracker (execReadCoupling m) :=
  atMoment_keepsTracker fun _ h => judgeCommand_keepsTracker _ _ _ h

theorem readFault_keepsTracker (m : Moment) : StepKeepsTracker (execReadFault m) :=
  atMoment_keepsTracker fun _ h => judgeCommand_keepsTracker _ _ _ h

theorem clearFault_keepsTracker (m : Moment) : StepKeepsTracker (execClearFault m) :=
  atMoment_keepsTracker fun _ h => judgeCommand_keepsTracker _ _ _ h

theorem readSegment_keepsTracker (m : Moment) (n : Byte) : StepKeepsTracker (execReadSegment m n) :=
  atMoment_keepsTracker (readSegmentStep_keepsTracker n.toNat)

theorem segmentControl_keepsTracker (m : Moment) (kind group value mask : Byte) : StepKeepsTracker (execSegmentControl m kind group value mask) :=
  atMoment_keepsTracker (segmentControlStep_keepsTracker kind group value mask)

theorem selectRise_keepsTracker (m : Moment) (bytesOut : Nat) : StepKeepsTracker (execSelectRise m bytesOut) :=
  atMoment_keepsTracker (deselect_keepsTracker bytesOut)

theorem noCommandByte_keepsTracker (m : Moment) (b : Byte) : StepKeepsTracker (execNoCommandByte m b) :=
  atMoment_keepsTracker fun s h => by
    split
    next => exact judgeCommand_keepsTracker _ _ _ h
    next => exact h

/-- Every command keeps the tracker's invariant. -/
theorem exec_keepsTracker (c : Instr) : StepKeepsTracker (exec c) := by
  intro s t h ht
  cases c with
  | cycRising m => exact cycRising_keepsTracker m s t h ht
  | filRising m => exact filRising_keepsTracker m s t h ht
  | vibRising m => exact vibRising_keepsTracker m s t h ht
  | strRising m => exact strRising_keepsTracker m s t h ht
  | strFalling m => exact strFalling_keepsTracker m s t h ht
  | settleTimerExpiry m => exact settleTimerExpiry_keepsTracker m s t h ht
  | cycleTimerExpiry m => exact cycleTimerExpiry_keepsTracker m s t h ht
  | sample m c v => exact sample_keepsTracker m c v s t h ht
  | lockoutTimerExpiry m c => exact lockoutTimerExpiry_keepsTracker m c s t h ht
  | sampleLoss m c => exact sampleLoss_keepsTracker m c s t h ht
  | sampleRecovery m c => exact sampleRecovery_keepsTracker m c s t h ht
  | pulseWidthEnd m c => exact pulseWidthEnd_keepsTracker m c s t h ht
  | recoveryEnd m c => exact recoveryEnd_keepsTracker m c s t h ht
  | accessGapReached m lane => exact accessGapReached_keepsTracker m lane s t h ht
  | accessTimerExpiry m => exact accessTimerExpiry_keepsTracker m s t h ht
  | attemptSent m => exact attemptSent_keepsTracker m s t h ht
  | echoMismatch m => exact echoMismatch_keepsTracker m s t h ht
  | echoTimeout m index => exact echoTimeout_keepsTracker m index s t h ht
  | frameComplete m l bytes => exact frameComplete_keepsTracker m l bytes s t h ht
  | frameBroken m l cause => exact frameBroken_keepsTracker m l cause s t h ht
  | frameHandlerTake m => exact frameHandlerTake_keepsTracker m s t h ht
  | joinTimerExpiry m => exact joinTimerExpiry_keepsTracker m s t h ht
  | silenceTimerExpiry m st => exact silenceTimerExpiry_keepsTracker m st s t h ht
  | presenceTimerExpiry m => exact presenceTimerExpiry_keepsTracker m s t h ht
  | closeExpiry m => exact closeExpiry_keepsTracker m s t h ht
  | publicationDeadline m key => exact publicationDeadline_keepsTracker m key s t h ht
  | digestWindowExpiry m => exact digestWindowExpiry_keepsTracker m s t h ht
  | transferLeadExpiry m => exact transferLeadExpiry_keepsTracker m s t h ht
  | slotTagReached m => exact slotTagReached_keepsTracker m s t h ht
  | slotWaitEnd m => exact slotWaitEnd_keepsTracker m s t h ht
  | fireTagReached m => exact fireTagReached_keepsTracker m s t h ht
  | windowFireTag m => exact windowFireTag_keepsTracker m s t h ht
  | endTagReached m => exact endTagReached_keepsTracker m s t h ht
  | scrubRead m => exact scrubRead_keepsTracker m s t h ht
  | logoutTimerExpiry m => exact logoutTimerExpiry_keepsTracker m s t h ht
  | load m block => exact load_keepsTracker m block s t h ht
  | loadCheckComplete m => exact loadCheckComplete_keepsTracker m s t h ht
  | start m => exact start_keepsTracker m s t h ht
  | restart m => exact restart_keepsTracker m s t h ht
  | status m => exact status_keepsTracker m s t h ht
  | nextNotice m => exact nextNotice_keepsTracker m s t h ht
  | readSegment m n => exact readSegment_keepsTracker m n s t h ht
  | readPeer m n => exact readPeer_keepsTracker m n s t h ht
  | readCoupling m => exact readCoupling_keepsTracker m s t h ht
  | readFault m => exact readFault_keepsTracker m s t h ht
  | clearFault m => exact clearFault_keepsTracker m s t h ht
  | segmentControl m kind group value mask => exact segmentControl_keepsTracker m kind group value mask s t h ht
  | selectRise m bytesOut => exact selectRise_keepsTracker m bytesOut s t h ht
  | frameStart m l => exact frameStart_keepsTracker m l s t h ht
  | noCommandByte m b => exact noCommandByte_keepsTracker m b s t h ht
  | reset =>
    injection ht with ht
    subst ht
    exact powerOnValues_trackerInv true s
  | powerOn =>
    injection ht with ht
    subst ht
    exact powerOnValues_trackerInv false s
  | resetRelease =>
    injection ht with ht
    subst ht
    exact h.of_same rfl rfl rfl

/-- Settles O55: a step runs the front command, or ticks. -/
theorem trackerInvariantKept : Obligations.TrackerInvariantKept := by
  intro s t h ht
  unfold step at ht
  split at ht
  next =>
    injection ht with ht
    subst ht
    unfold tick
    split
    next => exact h
    next => exact h.of_same rfl rfl rfl
  next c rest _ => exact exec_keepsTracker c (s.withPending rest) t (h.of_same rfl rfl rfl) ht

end Sys2Proof.Machine
end

section
/-! PROOFS. The press lines with sound stores: what each edge does in each phase, and the commands of the fill, the vibration and the strip
lines (R1, R4 to R7, R150). -/

namespace Sys2Proof.Machine

/-- The effect of an edge on a station at work (R1). -/
theorem takeEdge_atWork {s : State} (hw : s.atWork = true) (f : State → State) : takeEdge f s = f s := if_pos hw

/-- A station that is not at work takes no edges (R1). -/
theorem takeEdge_idle {s : State} (hw : s.atWork = false) (f : State → State) : takeEdge f s = s := by
  unfold takeEdge
  rw [hw]
  rfl

/-- Entering a phase changes the phase, and offers its policy to the channels (R16, R24). -/
theorem enterPhase_eq {s : State} (h : NoFlips s) (p : Phase) :
    enterPhase p s = offerPolicy (s.withTracker { s.tracker with phase := p }) := by
  unfold enterPhase
  exact usingConfig_sound (by exact h) _ _

/-- The same at a command's moment. -/
theorem enterPhase_sound {s : State} (h : NoFlips s) (p : Phase) (tag : Tag) : enterPhase p (s.withNow tag) = inPhase p tag s := by
  rw [enterPhase_eq (by exact h)]
  rfl

/-- A stray edge at its moment (R7). -/
theorem strayEdge_at (tag : Tag) (s : State) : strayEdge (s.withNow tag) =
    { s.withNow tag with tracker := { s.tracker with stray := min (s.tracker.stray + 1) 65535 } } := rfl

/-! ## The edges by phase -/

theorem filEdge_feed {s : State} (hp : s.tracker.phase = .feed) : filEdge s = enterPhase .fill1 s := by
  unfold filEdge; rw [hp]

theorem filEdge_shake1 {s : State} (hp : s.tracker.phase = .shake1) : filEdge s = enterPhase .fill2 s := by
  unfold filEdge; rw [hp]

theorem filEdge_stray {s : State} (h1 : s.tracker.phase ≠ .feed) (h2 : s.tracker.phase ≠ .shake1) : filEdge s = strayEdge s := by
  unfold filEdge
  split
  next hp => exact absurd hp h1
  next hp => exact absurd hp h2
  next => rfl

/-- The first vibration stage ends the first fill; which shake it is the double-fill flag says (R4). -/
theorem vibEdge_fill1 {s : State} (h : NoFlips s) (hp : s.tracker.phase = .fill1) :
    vibEdge s = if Block.doubleFill s.block = 1 then enterPhase .shake1 s else enterPhase .shake2 s := by
  unfold vibEdge
  rw [hp]
  exact usingConfig_sound h _ _

theorem vibEdge_fill2 {s : State} (hp : s.tracker.phase = .fill2) : vibEdge s = enterPhase .shake2 s := by
  unfold vibEdge; rw [hp]

theorem vibEdge_stray {s : State} (h1 : s.tracker.phase ≠ .fill1) (h2 : s.tracker.phase ≠ .fill2) : vibEdge s = strayEdge s := by
  unfold vibEdge
  split
  next hp => exact absurd hp h1
  next hp => exact absurd hp h2
  next => rfl

theorem strEdge_shake2 {s : State} (hp : s.tracker.phase = .shake2) : strEdge s = enterPhase .strip s := by
  unfold strEdge; rw [hp]

theorem strEdge_early {s : State} (hp : s.tracker.phase = .feed ∨ s.tracker.phase = .fill1 ∨ s.tracker.phase = .shake1 ∨
    s.tracker.phase = .fill2) : strEdge s = disorderly s := by
  unfold strEdge
  rcases hp with hp | hp | hp | hp <;> rw [hp]

theorem strEdge_stray {s : State} (hp : s.tracker.phase = .idle ∨ s.tracker.phase = .strip ∨ s.tracker.phase = .ret) :
    strEdge s = strayEdge s := by
  unfold strEdge
  rcases hp with hp | hp | hp <;> rw [hp]

theorem strFall_strip {s : State} (hp : s.tracker.phase = .strip) : strFall s = enterReturn s := by
  unfold strFall; rw [hp]

theorem strFall_stray {s : State} (hp : s.tracker.phase ≠ .strip) : strFall s = strayEdge s := by
  unfold strFall
  split
  next h => exact absurd h hp
  next => rfl

/-! ## The commands at work -/

theorem exec_filRising_atWork {m : Moment} {s : State} (h : Sound m s) (hw : s.atWork = true) :
    exec (.filRising m) s = .next (filEdge (s.withNow m.tag)) := by
  rw [exec_filRising_quiet m s h.noFaultToFind, takeEdge_atWork (by exact hw)]

theorem exec_vibRising_atWork {m : Moment} {s : State} (h : Sound m s) (hw : s.atWork = true) :
    exec (.vibRising m) s = .next (vibEdge (s.withNow m.tag)) := by
  rw [exec_vibRising_quiet m s h.noFaultToFind, takeEdge_atWork (by exact hw)]

theorem exec_strRising_atWork {m : Moment} {s : State} (h : Sound m s) (hw : s.atWork = true) :
    exec (.strRising m) s = .next (strEdge (s.withNow m.tag)) := by
  rw [exec_strRising_quiet m s h.noFaultToFind, takeEdge_atWork (by exact hw)]

theorem exec_strFalling_atWork {m : Moment} {s : State} (h : Sound m s) (hw : s.atWork = true) :
    exec (.strFalling m) s = .next (strFall (s.withNow m.tag)) := by
  rw [exec_strFalling_quiet m s h.noFaultToFind, takeEdge_atWork (by exact hw)]

/-- A command of the press lines moves the moment alone where the station is not at work (R1). -/
theorem atMoment_edge_idle {m : Moment} {s : State} (hu : m.upsets = []) (hr : s.resetHeld = false) (hw : s.atWork = false)
    (f : State → State) : atMoment m s (takeEdge f) = .next (s.withNow m.tag) := by
  rw [atMoment_live hu hr (takeEdge f) (Or.inl hw), takeEdge_idle (by exact hw)]

/-- Settles O5: in each phase the edge's transition is an entry to the next phase, with nothing else. -/
theorem fillAndShakeEdgesMovePhase : Obligations.FillAndShakeEdgesMovePhase := by
  intro m s h hw
  have hn : NoFlips s := h.noFlips
  refine ⟨fun hp => ?_, fun hp => ?_, fun hp hd => ?_, fun hp hd => ?_, fun hp => ?_, fun hp => ?_⟩
  · rw [exec_filRising_atWork h hw, filEdge_feed (by exact hp), enterPhase_sound hn]
  · rw [exec_filRising_atWork h hw, filEdge_shake1 (by exact hp), enterPhase_sound hn]
  · rw [exec_vibRising_atWork h hw, vibEdge_fill1 (by exact hn) (by exact hp), if_pos (by exact hd), enterPhase_sound hn]
  · rw [exec_vibRising_atWork h hw, vibEdge_fill1 (by exact hn) (by exact hp), if_neg (by exact hd), enterPhase_sound hn]
  · rw [exec_vibRising_atWork h hw, vibEdge_fill2 (by exact hp), enterPhase_sound hn]
  · rw [exec_filRising_atWork h hw, filEdge_stray (by simp [hp]) (by simp [hp]), strayEdge_at]

/-- Settles O6: an edge without a transition is stray; a station that is not at work takes none. -/
theorem strayEdgesAreOnlyCounted : Obligations.StrayEdgesAreOnlyCounted := by
  refine ⟨fun m s c h hw hc => ?_, fun m s c hu hr hst hc => ?_⟩
  · rcases hc with ⟨rfl, h1, h2⟩ | ⟨rfl, h1, h2⟩ | ⟨rfl, hp⟩ | ⟨rfl, hp⟩
    · rw [exec_filRising_atWork h hw, filEdge_stray (by exact h1) (by exact h2), strayEdge_at]
    · rw [exec_vibRising_atWork h hw, vibEdge_stray (by exact h1) (by exact h2), strayEdge_at]
    · rw [exec_strRising_atWork h hw, strEdge_stray (by exact hp), strayEdge_at]
    · rw [exec_strFalling_atWork h hw, strFall_stray (by exact hp), strayEdge_at]
  · have hw : s.atWork = false := by rcases hst with hst | hst | hst <;> simp [State.atWork, hst]
    rcases hc with rfl | rfl | rfl | rfl | rfl
    · exact atMoment_edge_idle hu hr hw cycEdge
    · exact atMoment_edge_idle hu hr hw filEdge
    · exact atMoment_edge_idle hu hr hw vibEdge
    · exact atMoment_edge_idle hu hr hw strEdge
    · exact atMoment_edge_idle hu hr hw strFall

/-! ## The strip -/

/-- The mould lifted too early flags an open cycle DISORDERED and enters STRIP (R5). -/
theorem disorderly_sound {s : State} (h : NoFlips s) (tag : Tag) : disorderly (s.withNow tag) =
    inPhase .strip tag { s with tracker := { s.tracker with disordered := s.tracker.disordered || s.tracker.isOpen } } := by
  unfold disorderly flagDisordered
  rw [withNow_tracker]
  split
  next ho =>
    rw [ho, Bool.or_true]
    exact enterPhase_sound (s := s.withTracker { s.tracker with disordered := true }) h .strip tag
  next ho =>
    rw [Bool.not_eq_true] at ho
    rw [enterPhase_sound h, ho, Bool.or_false]

/-- Whether a RETURN entry places the station's slot (R150). -/
def placesSlot (s : State) : Prop :=
  s.member.station = .running ∧ slotCycle s = true ∧ Block.pulseChannel s.block s.ownNo ≠ 0

/-- The Coupling Unit after the slot has been placed, or skipped behind a pulse still FIRING (R150). -/
def placedCoup (s : State) : CouplingUnit :=
  if s.coup.slot = .firing then
    { s.coup with counts := { s.coup.counts with skipped := min (s.coup.counts.skipped + 1) 65535 } }
  else { s.coup with slot := .placed (s.now + span (s.ownNo * (Block.pulseSpacingMs s.block * 1000))) }

/-- A RETURN entry that places the slot changes the Coupling Unit alone (R150). -/
theorem placeSlot_places {s : State} (h : NoFlips s) (hp : placesSlot s) : placeSlot s = s.withCoup (placedCoup s) := by
  obtain ⟨hrun, hcyc, hch⟩ := hp
  unfold placeSlot
  rw [if_pos hrun, usingConfig_sound h]
  unfold placeIfDue
  rw [if_pos hcyc, usingConfig_sound h]
  unfold placeInReturn placedCoup
  rw [if_neg hch]
  split <;> rfl

/-- Another leaves the station as it is (R150). -/
theorem placeSlot_leaves {s : State} (h : NoFlips s) (hp : ¬ placesSlot s) : placeSlot s = s := by
  unfold placeSlot
  split
  next hrun =>
    rw [usingConfig_sound h]
    unfold placeIfDue
    split
    next hcyc =>
      rw [usingConfig_sound h]
      unfold placeInReturn
      rw [if_pos (by by_contra hch; exact hp ⟨hrun, hcyc, hch⟩)]
    next => rfl
  next => rfl

/-- The state in which the Coupling Unit takes a RETURN entry: the phase is RETURN, and the settle timer of an open cycle runs (R6). -/
def returnEntered (tag : Tag) (s : State) : State :=
  { inPhase .ret tag s with
    tracker := { s.tracker with
      phase := .ret
      settle := if s.tracker.isOpen then some (tag + span (Block.closeDelayMs s.block * 1000)) else s.tracker.settle } }

theorem enterReturn_sound {s : State} (h : NoFlips s) (hw : s.atWork = true) (tag : Tag) :
    enterReturn (s.withNow tag) = placeSlot (returnEntered tag s) := by
  have hlive : ∀ p, (inPhase p tag s).member.station ≠ .frozen := fun _ => atWork_not_frozen hw
  have hs : startSettle (inPhase .ret tag s) = returnEntered tag s := by
    unfold startSettle returnEntered
    by_cases ho : s.tracker.isOpen = true
    · rw [if_pos (by exact ho), if_pos ho, usingConfig_sound (by exact h)]
      unfold setSettle closeDelay
      rw [show (inPhase .ret tag s).now = tag from withNow_now s tag]
      rfl
    · rw [if_neg (by exact ho), if_neg ho]
      rfl
  unfold enterReturn
  rw [enterPhase_sound h, unlessFrozen_live (hlive _), hs, unlessFrozen_live (by exact hlive .ret)]

/-- Settles O7: STR rising enters STRIP, in order or not; STR falling enters RETURN, and the Coupling Unit's part is `placeSlot`. -/
theorem strEdgesEnterStripAndReturn : Obligations.StrEdgesEnterStripAndReturn := by
  refine ⟨fun m s h hw => ⟨fun hp => ?_, fun hp => ?_⟩, fun m s h hw hp => ?_⟩
  · rw [exec_strRising_atWork h hw, strEdge_shake2 (by exact hp), enterPhase_sound h.noFlips]
  · rw [exec_strRising_atWork h hw, strEdge_early (by exact hp), disorderly_sound h.noFlips]
  · have hn : NoFlips (returnEntered m.tag s) := h.noFlips
    have hnow : (returnEntered m.tag s).now = m.tag := withNow_now s m.tag
    have hcycle : slotCycle (returnEntered m.tag s) = slotCycle s := rfl
    rw [exec_strFalling_atWork h hw, strFall_strip (by exact hp), enterReturn_sound h.noFlips hw]
    by_cases hpl : placesSlot (returnEntered m.tag s)
    · obtain ⟨hrun, hcyc, hch⟩ := id hpl
      refine ⟨_, rfl, ?_, fun hno => ?_, fun c hc hmod => ?_, fun c _ _ _ _ _ => ?_⟩
      · rw [placeSlot_places hn hpl]
        rfl
      · exfalso
        rw [hcycle] at hcyc
        rcases hno with hno | hno | hno | hno
        · exact hno hrun
        · simp [slotCycle, hno] at hcyc
        · exact hch hno
        · simp [slotCycle, hno] at hcyc
      · exfalso
        rw [hcycle] at hcyc
        simp [slotCycle, hc, hmod] at hcyc
      · rw [placeSlot_places hn hpl]
        unfold placedCoup
        rw [hnow]
        rfl
    · refine ⟨_, rfl, ?_, fun _ => ?_, fun _ _ _ => ?_, fun c hrun hper hch hc hmod => ?_⟩
      · rw [placeSlot_leaves hn hpl]
        rfl
      · rw [placeSlot_leaves hn hpl]
        rfl
      · rw [placeSlot_leaves hn hpl]
        rfl
      · exact absurd ⟨hrun, by rw [hcycle]; simp [slotCycle, hc, hmod, hper], hch⟩ hpl

end Sys2Proof.Machine
end

section
/-! PROOFS. The close of a cycle with sound stores, field by field (R13, R29, R31, R53, R95), and the two closes of the tracker's timers
(R10, R12). -/

namespace Sys2Proof.Machine

/-! ## Selection after the Own Hit Queue has been emptied -/

/-- A selection that finds the Own Hit Queue empty: a current frame stays, another than a HIT frame may be selected, and nothing is counted
dropped (R31, R48). -/
def SelectsNamed (l k : Link) : Prop :=
  k.dropped = l.dropped ∧ (l.current.isSome = true → k.current = l.current) ∧
  (l.current = none → ∀ c, k.current = some c → c.ref ≠ none)

/-- The transmit queue apart, nothing has happened. -/
theorem selectsNamed_of_same {l k : Link} (hd : k.dropped = l.dropped) (hc : k.current = l.current) : SelectsNamed l k :=
  ⟨hd, fun _ => hc, fun hnone c h => by rw [hc, hnone] at h; cases h⟩

theorem SelectsNamed.trans {l k j : Link} (h : SelectsNamed l k) (h' : SelectsNamed k j) : SelectsNamed l j := by
  obtain ⟨hd, hsome, hnone⟩ := h
  obtain ⟨hd', hsome', hnone'⟩ := h'
  refine ⟨hd'.trans hd, fun hl => ?_, fun hl c hc => ?_⟩
  · have hk := hsome hl
    rw [hsome' (by rw [hk]; exact hl), hk]
  · cases hk : k.current with
    | none => exact hnone' hk c hc
    | some d =>
      rw [hsome' (by rw [hk]; rfl)] at hc
      exact hnone hl c hc

theorem SameElsewhere.refl {s : State} (hn : NoFlips s) : SameElsewhere s s := ⟨⟨rfl, rfl, rfl, rfl, rfl⟩, rfl, hn, rfl, rfl, rfl⟩

/-- The selection itself (R48). -/
theorem selectFrame_named {s : State} (hn : NoFlips s) (hq : s.channels.queue = []) :
    SameElsewhere s (selectFrame s) ∧ SelectsNamed s.link (selectFrame s).link := by
  obtain ⟨cur, count, heq, hsome, hnone⟩ := selectFrame_noHits hq
  rw [heq]
  exact ⟨SameElsewhere.refl hn, rfl, hsome, hnone⟩

theorem selectNext_named {s : State} (hn : NoFlips s) (hq : s.channels.queue = []) :
    SameElsewhere s (selectNext s) ∧ SelectsNamed s.link (selectNext s).link := by
  rw [selectNext_sound hn]
  exact selectFrame_named hn hq

/-! ## The tables' side of a close -/

theorem evidenceClose_same (closed : Option CycleNo) (kind : CloseKind) {s : State} (hn : NoFlips s)
    (hs : s.member.station ≠ .frozen) :
    SameElsewhere s (evidenceClose closed kind s) ∧ (evidenceClose closed kind s).link = s.link := by
  cases kind with
  | normal =>
    obtain ⟨hsame, _, hlink, _⟩ := evidenceClose_normal closed hn hs rfl
    exact ⟨hsame, hlink⟩
  | disordered =>
    obtain ⟨hsame, _, hlink, _⟩ := evidenceClose_unfolded closed hn (kind := .disordered) (by decide) rfl
    exact ⟨hsame, hlink⟩
  | abandoned =>
    obtain ⟨hsame, _, hlink, _⟩ := evidenceClose_unfolded closed hn (kind := .abandoned) (by decide) rfl
    exact ⟨hsame, hlink⟩

/-- The DIGEST frame's request, taken or refused (R134). -/
theorem requestDigest_named (snap : Snapshot) (digest : BitVec 32) {s : State} (hn : NoFlips s) (hq : s.channels.queue = []) :
    SameElsewhere s (requestDigest snap digest s) ∧ SelectsNamed s.link (requestDigest snap digest s).link := by
  unfold requestDigest
  rw [request_sound _ _ _ _ (by exact hn)]
  split
  next =>
    exact selectFrame_named (s := keepNoRef s.link.nextRef (enqueue .digest (digestPayload snap digest s) s)) (by exact hn) (by exact hq)
  next => exact ⟨SameElsewhere.refl hn, selectsNamed_of_same rfl rfl⟩

theorem digestSnapshot_named (snap : Snapshot) {s : State} (hn : NoFlips s) (hq : s.channels.queue = []) :
    SameElsewhere s (digestSnapshot snap s) ∧ SelectsNamed s.link (digestSnapshot snap s).link := by
  unfold digestSnapshot
  exact requestDigest_named snap _ (s := s.withAgree _) hn hq

/-- The snapshot, its digest and the digest window (R132 to R135). -/
theorem takeSnapshot_named (closed : Option CycleNo) {s : State} (hn : NoFlips s) (hs : s.member.station ≠ .frozen)
    (hq : s.channels.queue = []) :
    SameElsewhere s (takeSnapshot closed s) ∧ SelectsNamed s.link (takeSnapshot closed s).link := by
  have hstore : storeSnapshot closed s = s.withAgree { s.agree with snapshot := some ⟨closed, s.evid.age, s.evid.table⟩ } :=
    rewrite_sound (by exact hn) _
  unfold takeSnapshot
  rw [hstore, usingConfig_sound (by exact hn)]
  obtain ⟨hsame, hlink⟩ := digestSnapshot_named ⟨closed, s.evid.age, s.evid.table⟩
    (s := s.withAgree { s.agree with snapshot := some ⟨closed, s.evid.age, s.evid.table⟩ }) hn hq
  obtain ⟨⟨htr, hch, hmem, hcoin, hcoup⟩, hrec, hflips, hclock, hconf, hheld⟩ := hsame
  rw [unlessFrozen_live (by rw [hmem]; exact hs), usingConfig_sound hflips]
  exact ⟨⟨⟨htr, hch, hmem, hcoin, hcoup⟩, hrec, hflips, hclock, hconf, hheld⟩, hlink⟩

/-- The Agreement Unit's close work (R132). -/
theorem agreementClose_named (closed : Option CycleNo) {s : State} (hn : NoFlips s) (hs : s.member.station ≠ .frozen)
    (hq : s.channels.queue = []) :
    SameElsewhere s (agreementClose closed s) ∧ SelectsNamed s.link (agreementClose closed s).link := by
  unfold agreementClose
  dsimp only
  generalize hu : State.withAgree _ _ = u
  obtain ⟨hsame, _, _, _, hlink⟩ := cutTransfer_fields hn hu
  obtain ⟨⟨_, hch, hmem, _, _⟩, _, hflips, _⟩ := id hsame
  rw [usingConfig_sound hflips]
  unfold copyTable
  rw [usingWords_sound hflips]
  obtain ⟨hsame', hlink'⟩ := takeSnapshot_named closed hflips (by rw [hmem]; exact hs) (by rw [hch]; exact hq)
  exact ⟨hsame.trans hsame', (selectsNamed_of_same (by rw [hlink]) (by rw [hlink])).trans hlink'⟩

/-- The tables' side of a close (R116, R132). -/
theorem closeTables_named (closed : Option CycleNo) (kind : CloseKind) {s : State} (hn : NoFlips s) (hs : s.member.station ≠ .frozen)
    (hq : s.channels.queue = []) :
    SameElsewhere s (closeTables closed kind s) ∧ SelectsNamed s.link (closeTables closed kind s).link := by
  obtain ⟨hsame, hlink⟩ := evidenceClose_same closed kind hn hs
  obtain ⟨⟨_, hch, hmem, _, _⟩, _, hflips, _⟩ := id hsame
  unfold closeTables
  rw [unlessFrozen_live (by rw [hmem]; exact hs)]
  obtain ⟨hsame', hlink'⟩ := agreementClose_named closed hflips (by rw [hmem]; exact hs) (by rw [hch]; exact hq)
  exact ⟨hsame.trans hsame', by rw [hlink] at hlink'; exact hlink'⟩

/-! ## The whole close -/

/-- The notice of a close changes the port alone, and not the configuration (R13). -/
theorem cycleFlagNotice_eq (t : Tracker) (cause : CloseCause) (s : State) :
    cycleFlagNotice t cause s = s.withPort (cycleFlagNotice t cause s).port ∧
      (cycleFlagNotice t cause s).port.config = s.port.config := by
  unfold cycleFlagNotice
  split
  next => exact ⟨rfl, rfl⟩
  next => exact ⟨raise_eq _ s, raise_config _ s⟩

/-- A flagged close raises its notice while there is room (R13, R174). -/
theorem cycleFlagNotice_mem {t : Tracker} {cause : CloseCause} {s : State} (hf : (t.disordered || t.abandoned) = true)
    (hroom : s.port.notices.length < 32) :
    (⟨s.tracker.cycle, s.ownNo, .cycleFlag t.cycle t.disordered t.abandoned cause⟩ : Notice) ∈
      (cycleFlagNotice t cause s).port.notices := by
  have hk : closeKind t.disordered t.abandoned ≠ .normal := by
    unfold closeKind
    cases ha : t.abandoned <;> cases hd : t.disordered <;> simp_all
  unfold cycleFlagNotice raiseNow raise
  rw [if_neg hk, if_pos (by exact hroom)]
  exact List.mem_append_right _ (List.mem_singleton.mpr rfl)

/-- The coincidence state that a close leaves (R95). -/
def discardedCoin (c : Coincidence) : Coincidence :=
  { clearCoincidence c with
    counts := { c.counts with
      hitsDiscarded := raisedBy c.window.length c.counts.hitsDiscarded
      groupsDiscarded := raisedBy c.pendingGroups.length c.counts.groupsDiscarded } }

/-- What the close of the cycle of `s` has left in `t`, the tables, the transmit queue and the agreement apart (R13). -/
structure ClosedFrom (cause : CloseCause) (s t : State) : Prop where
  tracker : t.tracker = closedTracker s.tracker
  channels : t.channels = { s.channels with queue := [], units := s.channels.units.map fun _ u => markGone u }
  link : SelectsNamed (cutLink s.link) t.link
  coin : t.coin = discardedCoin s.coin
  member : t.member = s.member
  coup : t.coup = s.coup
  record : t.fault.record = s.fault.record
  noFlips : NoFlips t
  clock : t.clock = s.clock
  config : t.port.config = s.port.config
  flagged : (s.tracker.disordered || s.tracker.abandoned) = true → s.port.notices.length < 32 →
    (⟨s.tracker.cycle, s.ownNo, .cycleFlag s.tracker.cycle s.tracker.disordered s.tracker.abandoned cause⟩ : Notice) ∈ t.port.notices

theorem ClosedFrom.now {cause : CloseCause} {s t : State} (h : ClosedFrom cause s t) : t.now = s.now :=
  congrArg (BitVec.ofNat 32) h.clock

theorem ClosedFrom.block {cause : CloseCause} {s t : State} (h : ClosedFrom cause s t) : t.block = s.block := by
  unfold State.block
  rw [h.config]

theorem closeCycle_closed (cause : CloseCause) {s : State} (hn : NoFlips s) (hs : s.member.station ≠ .frozen) :
    ClosedFrom cause s (closeCycle cause s) := by
  unfold closeCycle
  dsimp only
  obtain ⟨hport, hconf⟩ := cycleFlagNotice_eq s.tracker cause (s.withTracker (closedTracker s.tracker))
  have hmem := cycleFlagNotice_mem (t := s.tracker) (cause := cause) (s := s.withTracker (closedTracker s.tracker))
  generalize cycleFlagNotice s.tracker cause (s.withTracker (closedTracker s.tracker)) = a at hport hconf hmem ⊢
  have ha : NoFlips a := by rw [hport]; exact hn
  have hcalm : Calm a (selectNext (closeTables s.tracker.cycle (closeKind s.tracker.disordered s.tracker.abandoned) (closeHits a))) :=
    selectNext_calm _ (closeTables_calm _ _ _ (closeHits_calm _ (Calm.refl ha)))
  have hb := closeHits_eq a
  have hbn : NoFlips (closeHits a) := (closeHits_calm _ (Calm.refl ha)).noFlips
  generalize closeHits a = b at hb hbn hcalm ⊢
  have hbs : b.member.station ≠ .frozen := by rw [hb, hport]; exact hs
  have hbq : b.channels.queue = [] := by rw [hb]; rfl
  obtain ⟨htab, hlink⟩ := closeTables_named s.tracker.cycle (closeKind s.tracker.disordered s.tracker.abandoned) hbn hbs hbq
  generalize closeTables s.tracker.cycle (closeKind s.tracker.disordered s.tracker.abandoned) b = c at htab hlink hcalm ⊢
  obtain ⟨⟨_, hcch, _, _, _⟩, _, hcn, _⟩ := id htab
  obtain ⟨hsel, hlink'⟩ := selectNext_named hcn (by rw [hcch]; exact hbq)
  obtain ⟨⟨htr, hch, hme, hcoin, hcoup⟩, hrec, hflips, hclock, hcfg, _⟩ := htab.trans hsel
  refine ⟨?_, ?_, ?_, ?_, ?_, ?_, ?_, hflips, ?_, ?_, fun hf hroom => ?_⟩
  · rw [htr, hb, hport]; rfl
  · rw [hch, hb, hport]; rfl
  · refine SelectsNamed.trans (selectsNamed_of_same ?_ ?_) (hlink.trans hlink') <;> rw [hb, hport] <;> rfl
  · rw [hcoin, hb, hport]; rfl
  · rw [hme, hb, hport]; rfl
  · rw [hcoup, hb, hport]; rfl
  · rw [hrec, hb, hport]; rfl
  · rw [hclock, hb, hport]; rfl
  · rw [hcfg, hb]; exact hconf
  · exact hcalm.2.2.2.2.2.2.2.2.subset (hmem hf hroom)

/-! ## The tracker's timers -/

/-- The move to IDLE (R10, R12). -/
theorem goIdle_sound {s : State} (h : NoFlips s) :
    goIdle s = offerPolicy (s.withTracker { s.tracker with cycleTimer := .stopped, phase := .idle }) := by
  unfold goIdle
  rw [enterPhase_eq (by exact h)]
  rfl

/-- What follows the close at the settle timer's expiry: the tracker, where the expired-in-return mark moves the phase to IDLE (R10). -/
theorem idleIfExpired_sound {s : State} (h : NoFlips s) :
    idleIfExpired s = if s.tracker.cycleTimer = .expiredInReturn then
      offerPolicy (s.withTracker { s.tracker with cycleTimer := .stopped, phase := .idle }) else s := by
  unfold idleIfExpired
  rw [goIdle_sound h]

theorem exec_settleTimerExpiry_due {m : Moment} {s : State} {d : Tag} (h : Sound m s) (hw : s.atWork = true)
    (ho : s.tracker.isOpen = true) (hs : s.tracker.settle = some d) (hd : reached m.tag d = true) :
    exec (.settleTimerExpiry m) s = .next (idleIfExpired (closeCycle .settle (s.withNow m.tag))) := by
  have hdue : settleDue (s.withNow m.tag) = true := by
    unfold settleDue
    rw [withNow_tracker, withNow_now, hs, ho]
    change (s.atWork && true && reached m.tag d) = true
    rw [hw, hd]
    rfl
  have hlive : (s.withNow m.tag).member.station ≠ .frozen := atWork_not_frozen hw
  rw [exec_settleTimerExpiry_quiet m s h.noFaultToFind, if_pos hdue]
  unfold settleClose
  rw [unlessFrozen_live (by rw [(closeCycle_closed .settle (by exact h.noFlips) hlive).member]; exact hlive)]

/-- Settles O8: the close, and the move to IDLE where the mark stands. -/
theorem settleExpiryClosesCycle : Obligations.SettleExpiryClosesCycle := by
  intro m s d h hw ho hs hd
  have hcl := closeCycle_closed .settle (s := s.withNow m.tag) h.noFlips (atWork_not_frozen hw)
  refine ⟨_, exec_settleTimerExpiry_due h hw ho hs hd, ?_⟩
  generalize closeCycle .settle (s.withNow m.tag) = u at hcl
  have hnow : u.now = m.tag := hcl.now.trans (withNow_now s m.tag)
  rw [idleIfExpired_sound hcl.noFlips, hcl.tracker]
  by_cases he : s.tracker.cycleTimer = .expiredInReturn
  · rw [if_pos (by exact he), if_pos he, if_pos he]
    exact ⟨rfl, hcl.flagged, congrArg _ hcl.coin, congrArg _ hcl.coin, congrArg _ hcl.coin, congrArg _ hcl.member, hcl.config, hnow⟩
  · rw [if_neg (by exact he), if_neg he, if_neg he]
    exact ⟨hcl.tracker, hcl.flagged, congrArg _ hcl.coin, congrArg _ hcl.coin, congrArg _ hcl.coin, congrArg _ hcl.member, hcl.config, hnow⟩

theorem exec_cycleTimerExpiry_due {m : Moment} {s : State} {d : Tag} (h : Sound m s) (hw : s.atWork = true)
    (hs : s.tracker.cycleTimer = .running d) (hd : reached m.tag d = true) :
    exec (.cycleTimerExpiry m) s = .next (cycleExpired (s.withNow m.tag)) := by
  have hdue : cycleDue (s.withNow m.tag) = true := by
    unfold cycleDue
    rw [withNow_tracker, withNow_now, hs]
    change (s.atWork && reached m.tag d) = true
    rw [hw, hd]
    rfl
  rw [exec_cycleTimerExpiry_quiet m s h.noFaultToFind, if_pos hdue]

/-- The expiry that closes an open cycle ABANDONED (R12). -/
theorem cycleExpired_closes {s : State} (hn : NoFlips s) (hs : s.member.station ≠ .frozen) (ho : s.tracker.isOpen = true)
    (hp : s.tracker.phase ≠ .ret) :
    cycleExpired s = goIdle (closeCycle .cycleTimer (s.withTracker { s.tracker with abandoned := true })) := by
  have hcl := closeCycle_closed .cycleTimer (s := s.withTracker { s.tracker with abandoned := true }) hn hs
  unfold cycleExpired
  rw [if_pos ho, if_neg hp]
  unfold closeByTimer
  rw [unlessFrozen_live (by rw [hcl.member]; exact hs)]

/-- Settles O9: the three situations of R12. -/
theorem cycleTimerExpiryEndsCycle : Obligations.CycleTimerExpiryEndsCycle := by
  intro m s d h hw hs hd
  rw [exec_cycleTimerExpiry_due h hw hs hd]
  refine ⟨fun ho hp => ?_, fun ho => ?_, fun ho hp => ?_⟩
  · unfold cycleExpired
    rw [if_pos (by exact ho), if_pos (by exact hp)]
    rfl
  · unfold cycleExpired
    rw [if_neg (by rw [withNow_tracker, ho]; exact Bool.noConfusion)]
    exact congrArg _ (enterPhase_sound (s := s.withTracker { s.tracker with cycleTimer := .stopped }) h.noFlips .idle m.tag)
  · have hcl := closeCycle_closed .cycleTimer (s := (s.withNow m.tag).withTracker { s.tracker with abandoned := true }) h.noFlips
      (atWork_not_frozen hw)
    refine ⟨_, congrArg _ (cycleExpired_closes (by exact h.noFlips) (by exact atWork_not_frozen hw) (by exact ho) (by exact hp)), ?_⟩
    rw [withNow_tracker, goIdle_sound hcl.noFlips]
    have hnow := hcl.now.trans (withNow_now s m.tag)
    refine ⟨?_, hcl.flagged (by simp), congrArg _ hcl.member, hcl.config, hnow⟩
    · change { (closeCycle _ _).tracker with cycleTimer := .stopped, phase := .idle } = _
      rw [hcl.tracker]
      rfl

end Sys2Proof.Machine
end

section
/-! PROOFS. The CYC edge with sound stores (R3, R9, R11, R36, R39, R153, R159), and what the three closes have in common (R13). -/

namespace Sys2Proof.Machine

/-! ## One channel and the listen setting -/

/-- A LISTEN channel in QUIET or HUSH follows the listen setting (R24). -/
theorem followListen_listens {u : ChannelUnit} (listen : Bool) (hr : u.role = .listen) (hs : u.state = .quiet ∨ u.state = .hush) :
    (followListen listen u).role = .listen ∧ (followListen listen u).state = if listen then .quiet else .hush := by
  unfold followListen
  rw [if_pos hr]
  rcases hs with hs | hs <;> cases listen <;> simp [hs, hr]

theorem followListen_otherRole {u : ChannelUnit} (listen : Bool) (hr : u.role ≠ .listen) : followListen listen u = u := by
  unfold followListen
  rw [if_neg hr]

/-- A channel in IN-HIT does not follow it. -/
theorem followListen_inHit {u : ChannelUnit} (listen : Bool) (hs : u.state = .inHit) : followListen listen u = u := by
  unfold followListen
  simp [hs]

/-- A channel after the pulse window, if one was OPEN, has closed (R39). -/
def afterWindow (windowOpen listen : Bool) (u : ChannelUnit) : ChannelUnit := if windowOpen then closeWindowUnit listen u else u

/-- A LISTEN channel that an OPEN window has kept listening follows the listen setting again. -/
theorem afterWindow_listens {u : ChannelUnit} {windowOpen listen : Bool} (hr : u.role = .listen)
    (hs : u.state = if listen || windowOpen then .quiet else .hush) :
    (afterWindow windowOpen listen u).role = .listen ∧
      (afterWindow windowOpen listen u).state = if listen then .quiet else .hush := by
  unfold afterWindow closeWindowUnit
  cases windowOpen <;> cases listen <;> simp_all

theorem afterWindow_inHit {u : ChannelUnit} (windowOpen listen : Bool) (hs : u.state = .inHit) :
    afterWindow windowOpen listen u = u := by
  unfold afterWindow closeWindowUnit
  simp [hs]

/-! ## What changes on one channel alone -/

/-- Nothing but channel `c`, and the places where its open hit was kept, has changed from `s` to `t`. -/
structure TouchesOnly (c : Channel) (s t : State) : Prop where
  tracker : t.tracker = s.tracker
  link : t.link = s.link
  member : t.member = s.member
  fault : t.fault = s.fault
  port : t.port = s.port
  clock : t.clock = s.clock
  channels : t.channels = { s.channels with units := t.channels.units }
  others : ∀ ch, ch ≠ c → t.channels.units.get ch = s.channels.units.get ch
  coin : t.coin = { s.coin with window := t.coin.window }
  window : t.coin.window.Sublist s.coin.window
  coup : t.coup = { s.coup with window := t.coup.window }
  stage : t.coup.window.map (·.stage) = s.coup.window.map (·.stage)

theorem TouchesOnly.refl (c : Channel) (s : State) : TouchesOnly c s s :=
  ⟨rfl, rfl, rfl, rfl, rfl, rfl, rfl, fun _ _ => rfl, rfl, List.Sublist.refl _, rfl, rfl⟩

theorem TouchesOnly.trans {c : Channel} {s t u : State} (h : TouchesOnly c s t) (k : TouchesOnly c t u) : TouchesOnly c s u where
  tracker := k.tracker.trans h.tracker
  link := k.link.trans h.link
  member := k.member.trans h.member
  fault := k.fault.trans h.fault
  port := k.port.trans h.port
  clock := k.clock.trans h.clock
  channels := by rw [k.channels, h.channels]
  others ch hc := (k.others ch hc).trans (h.others ch hc)
  coin := by rw [k.coin, h.coin]
  window := k.window.trans h.window
  coup := by rw [k.coup, h.coup]
  stage := k.stage.trans h.stage

theorem touchesOnly_setUnit (c : Channel) (u : ChannelUnit) (s : State) : TouchesOnly c s (s.setUnit c u) :=
  { TouchesOnly.refl c s with channels := rfl, others := fun _ hc => Four.get_set_ne _ _ hc }

/-- An open hit that its channel gives up leaves the Hit Window or the pulse window (R33, R35). -/
theorem discardHit_touches (c : Channel) (hit : Option OpenHit) {s : State} (hn : NoFlips s) : TouchesOnly c s (discardHit c hit s) := by
  unfold discardHit
  split
  next => exact TouchesOnly.refl c s
  next h =>
    split
    next =>
      rw [requestRemoval_sound hn]
      exact { TouchesOnly.refl c s with coin := rfl, window := List.filter_sublist }
    next =>
      unfold settleCapture
      split
      next w hw =>
        split
        next => exact { TouchesOnly.refl c s with coup := rfl, stage := by rw [hw]; rfl }
        next => exact TouchesOnly.refl c s
      next => exact TouchesOnly.refl c s
    next => exact TouchesOnly.refl c s

theorem muteChannel_touches (c : Channel) {s : State} (hn : NoFlips s) : TouchesOnly c s (muteChannel c s) := by
  unfold muteChannel
  dsimp only
  split
  next => exact TouchesOnly.refl c s
  next =>
    unfold disableChannel disableInto
    exact (touchesOnly_setUnit c _ s).trans (discardHit_touches c _ (by exact hn))

/-! ## The release of the pulse channel (R36) -/

/-- A release that finds the channel not armed does nothing. -/
theorem releaseChannel_unarmed {c : Channel} {s : State} (ha : isArmed (s.channels.units.get c) = false) : releaseChannel c s = s := by
  unfold releaseChannel
  rw [if_neg]
  rintro ⟨hr, hs⟩
  simp [isArmed, hr, hs] at ha

theorem releaseChannel_armed {c : Channel} {s : State} (hn : NoFlips s) (ha : isArmed (s.channels.units.get c) = true) :
    releaseChannel c s =
      remute c (s.setUnit c { s.channels.units.get c with role := .listen, state := listenState s, pulseTimer := none }) := by
  simp only [isArmed, Bool.and_eq_true, beq_iff_eq] at ha
  unfold releaseChannel
  rw [if_pos ha]
  unfold returnToListen
  rw [usingConfig_sound hn]
  rfl

theorem releaseChannel_touches (c : Channel) {s : State} (hn : NoFlips s) : TouchesOnly c s (releaseChannel c s) := by
  cases ha : isArmed (s.channels.units.get c) with
  | false =>
    rw [releaseChannel_unarmed ha]
    exact TouchesOnly.refl c s
  | true =>
    rw [releaseChannel_armed hn ha]
    have hset := touchesOnly_setUnit c
      { s.channels.units.get c with role := .listen, state := listenState s, pulseTimer := none } s
    unfold remute
    split
    next => exact hset.trans (muteChannel_touches c (by exact hn))
    next => exact hset

/-- An armed channel whose sensor is not DEAD listens again. -/
theorem releaseChannel_listens {c : Channel} {s : State} (hn : NoFlips s) (ha : isArmed (s.channels.units.get c) = true)
    (hd : (s.coup.records.get c).state ≠ .dead) :
    ((releaseChannel c s).channels.units.get c).role = .listen ∧
      ((releaseChannel c s).channels.units.get c).state = listenState s := by
  rw [releaseChannel_armed hn ha]
  unfold remute
  rw [if_neg (by exact hd), setUnit_channels, Four.get_set]
  exact ⟨rfl, rfl⟩

/-! ## The end of the slot at a CYC edge (R153) -/

/-- What a CYC edge has made of the station's slot from `s` to `t`: the transmit queue, the slot and the pulse channel apart, nothing but
the places where that channel's open hit was kept. -/
structure SlotEnded (s t : State) : Prop where
  tracker : t.tracker = s.tracker
  member : t.member = s.member
  fault : t.fault = s.fault
  port : t.port = s.port
  clock : t.clock = s.clock
  link : t.link = { s.link with queue := t.link.queue }
  withdrawn : ∀ r, s.coup.slot = .queued r → isSelected r s = false → ∀ d ∈ t.link.queue, d.ref ≠ r
  channels : t.channels = { s.channels with units := t.channels.units }
  unarmed : ∀ ch, isArmed (s.channels.units.get ch) = false → t.channels.units.get ch = s.channels.units.get ch
  released : ∀ ch, (∃ r, s.coup.slot = .queued r) ∨ (∃ fire, s.coup.slot = .announced fire) → pulseChannel s = some ch →
    isArmed (s.channels.units.get ch) = true → (s.coup.records.get ch).state ≠ .dead →
    (t.channels.units.get ch).role = .listen ∧ (t.channels.units.get ch).state = listenState s
  coin : t.coin = { s.coin with window := t.coin.window }
  window : t.coin.window.Sublist s.coin.window
  coup : t.coup = { s.coup with
    slot := if s.coup.slot = .firing then .firing else .none
    window := t.coup.window
    counts := { s.coup.counts with
      skipped := if s.coup.slot = .none ∨ s.coup.slot = .firing then s.coup.counts.skipped
        else min (s.coup.counts.skipped + 1) 65535 } }
  stage : t.coup.window.map (·.stage) = s.coup.window.map (·.stage)

/-- The release of the pulse channel, whichever the table names (R36, R153). -/
theorem releasePulse_cases {s : State} (hn : NoFlips s) :
    (pulseChannel s = none ∧ releasePulse s = s) ∨ ∃ c, pulseChannel s = some c ∧ releasePulse s = releaseChannel c s := by
  unfold releasePulse
  rw [usingConfig_sound hn]
  unfold releaseNamed
  cases hc : pulseChannel s with
  | none => exact Or.inl ⟨rfl, rfl⟩
  | some c => exact Or.inr ⟨c, rfl, rfl⟩

/-- A slot that has been announced to the channel is skipped and the channel released: the same for the descriptor withdrawn and for the
pulse announced. -/
theorem slotEnded_of_release {s x : State} (hn : NoFlips s) (hx : x = skipSlot (s.withLink { s.link with queue := x.link.queue }))
    (hw : ∀ r, s.coup.slot = .queued r → isSelected r s = false → ∀ d ∈ x.link.queue, d.ref ≠ r)
    (hnone : s.coup.slot ≠ .none) (hfiring : s.coup.slot ≠ .firing) : SlotEnded s (releasePulse x) := by
  generalize x.link.queue = q at hx hw
  subst hx
  have hcoup : ∀ w, { s.coup with slot := .none, window := w, counts := { s.coup.counts with skipped := raised s.coup.counts.skipped } } =
      { s.coup with
        slot := if s.coup.slot = .firing then .firing else .none
        window := w
        counts := { s.coup.counts with
          skipped := if s.coup.slot = .none ∨ s.coup.slot = .firing then s.coup.counts.skipped
            else min (s.coup.counts.skipped + 1) 65535 } } := by
    intro w
    rw [if_neg hfiring, if_neg (by rintro (h | h); exacts [hnone h, hfiring h])]
    rfl
  rcases releasePulse_cases (s := skipSlot (s.withLink { s.link with queue := q })) hn with ⟨hc, heq⟩ | ⟨c, hc, heq⟩
  · rw [heq]
    exact
      { tracker := rfl, member := rfl, fault := rfl, port := rfl, clock := rfl, link := rfl, withdrawn := hw, channels := rfl
        unarmed := fun _ _ => rfl
        released := fun ch _ hch => by rw [show pulseChannel s = none from hc] at hch; cases hch
        coin := rfl, window := List.Sublist.refl _, coup := hcoup _, stage := rfl }
  · rw [heq]
    have ht := releaseChannel_touches c (s := skipSlot (s.withLink { s.link with queue := q })) hn
    exact
      { tracker := ht.tracker, member := ht.member, fault := ht.fault, port := ht.port, clock := ht.clock
        link := by rw [ht.link]; rfl
        withdrawn := fun r hr hsel => by rw [ht.link]; exact hw r hr hsel
        channels := ht.channels
        unarmed := fun ch ha => by
          by_cases hch : ch = c
          · subst hch
            rw [releaseChannel_unarmed (by exact ha)]
            rfl
          · exact ht.others ch hch
        released := fun ch _ hch ha hd => by
          rw [show pulseChannel s = some c from hc] at hch
          injection hch with hch
          subst hch
          exact releaseChannel_listens (s := skipSlot (s.withLink { s.link with queue := q })) hn ha hd
        coin := ht.coin, window := ht.window
        coup := ht.coup.trans (hcoup _)
        stage := ht.stage }

/-- A slot that no channel has been armed for is skipped. -/
theorem slotEnded_skip {s : State} (hnone : s.coup.slot ≠ .none) (hfiring : s.coup.slot ≠ .firing)
    (hq : ∀ r, s.coup.slot ≠ .queued r) (ha : ∀ fire, s.coup.slot ≠ .announced fire) : SlotEnded s (skipSlot s) where
  tracker := rfl
  member := rfl
  fault := rfl
  port := rfl
  clock := rfl
  link := rfl
  withdrawn r hr := absurd hr (hq r)
  channels := rfl
  unarmed _ _ := rfl
  released ch hs := by
    rcases hs with ⟨r, hr⟩ | ⟨fire, hf⟩
    · exact absurd hr (hq r)
    · exact absurd hf (ha fire)
  coin := rfl
  window := List.Sublist.refl _
  coup := by
    rw [if_neg hfiring, if_neg (by rintro (h | h); exacts [hnone h, hfiring h])]
    rfl
  stage := rfl

/-- A slot that is NONE, or FIRING, stays. -/
theorem slotEnded_self {s : State} (h : s.coup.slot = .none ∨ s.coup.slot = .firing) : SlotEnded s s where
  tracker := rfl
  member := rfl
  fault := rfl
  port := rfl
  clock := rfl
  link := rfl
  withdrawn r hr := by rcases h with h | h <;> rw [h] at hr <;> cases hr
  channels := rfl
  unarmed _ _ := rfl
  released ch hs := by
    rcases hs with ⟨r, hr⟩ | ⟨fire, hf⟩
    · rcases h with h | h <;> rw [h] at hr <;> cases hr
    · rcases h with h | h <;> rw [h] at hf <;> cases hf
  coin := rfl
  window := List.Sublist.refl _
  coup := by
    rw [if_pos h]
    have hs : s.coup.slot = if s.coup.slot = .firing then .firing else .none := by rcases h with h | h <;> rw [h] <;> rfl
    rw [← hs]
  stage := rfl

theorem endSlotAtCyc_ended {s : State} (hn : NoFlips s) : SlotEnded s (endSlotAtCyc s) := by
  unfold endSlotAtCyc
  split
  next h => exact slotEnded_self (Or.inl h)
  next h => exact slotEnded_skip (by simp [h]) (by simp [h]) (by simp [h]) (by simp [h])
  next h => exact slotEnded_skip (by simp [h]) (by simp [h]) (by simp [h]) (by simp [h])
  next ref h =>
    rw [withdraw_eq]
    refine slotEnded_of_release hn rfl (fun r hr hsel d hd hdr => ?_) (by simp [h]) (by simp [h])
    rw [h] at hr
    injection hr with hr
    subst hr
    have hk := (List.mem_filter.mp hd).2
    rw [hdr, hsel] at hk
    simp at hk
  next fire h =>
    refine slotEnded_of_release hn rfl (fun r hr => ?_) (by simp [h]) (by simp [h])
    rw [h] at hr
    cases hr
  next h => exact slotEnded_self (Or.inr h)

/-! ## The pulse window at a CYC edge (R159) -/

/-- The Coupling Unit without its window, an abandoned one counted. -/
def abandonedCoup (k : CouplingUnit) : CouplingUnit :=
  { k with
    window := none
    counts := { k.counts with abandoned := if k.window = none then k.counts.abandoned else min (k.counts.abandoned + 1) 65535 } }

theorem windowOpen_none {s : State} (hw : s.coup.window = none) : s.windowOpen = false := by
  unfold State.windowOpen
  rw [hw]

theorem windowOpen_some {s : State} {w : PulseWindow} (hw : s.coup.window = some w) : s.windowOpen = (w.stage == .isOpen) := by
  unfold State.windowOpen
  rw [hw]

theorem abandonWindow_sound {s : State} (hn : NoFlips s) : abandonWindow s =
    (s.withCoup (abandonedCoup s.coup)).withChannels { s.channels with
      units := s.channels.units.map fun _ u => afterWindow s.windowOpen s.listening u } := by
  unfold abandonWindow
  cases hw : s.coup.window with
  | none =>
    have hself : abandonedCoup s.coup = s.coup := by
      unfold abandonedCoup
      rw [if_pos hw, ← hw]
    rw [windowOpen_none hw, hself]
    rfl
  | some w =>
    have hcoup : { s.coup with window := none, counts := { s.coup.counts with abandoned := raised s.coup.counts.abandoned } } =
        abandonedCoup s.coup := by
      unfold abandonedCoup
      rw [if_neg (by rw [hw]; exact Option.some_ne_none w)]
      rfl
    dsimp only
    rw [hcoup, windowOpen_some hw]
    by_cases ho : w.stage = .isOpen
    · have hb : (w.stage == .isOpen) = true := beq_iff_eq.mpr ho
      rw [if_pos ho, hb]
      unfold channelsWindowClosed
      rw [usingConfig_sound (by exact hn)]
      rfl
    · have hb : (w.stage == .isOpen) = false := beq_eq_false_iff_ne.mpr ho
      rw [if_neg ho, hb]
      rfl

end Sys2Proof.Machine
end

section
/-! PROOFS. The whole CYC edge, and what every close discards (R3, R11, R13). -/

namespace Sys2Proof.Machine

/-! ## The early close (R11) -/

theorem flagEarly_eq (t : Tracker) : flagEarly t = { t with abandoned := t.abandoned || beforeStrip t.phase } := by
  unfold flagEarly
  split
  next h => rw [h, Bool.or_true]
  next h =>
    rw [Bool.not_eq_true] at h
    rw [h, Bool.or_false]

theorem earlyClose_open {s : State} (ho : s.tracker.isOpen = true) :
    earlyClose s = closeCycle .cyc (s.withTracker { s.tracker with abandoned := s.tracker.abandoned || beforeStrip s.tracker.phase }) := by
  unfold earlyClose
  rw [if_pos ho, flagEarly_eq]

theorem earlyClose_none {s : State} (ho : s.tracker.isOpen = false) : earlyClose s = s := by
  unfold earlyClose
  rw [ho]
  rfl

/-- The early close of an open cycle (R11). -/
theorem earlyClose_closes {s : State} (hn : NoFlips s) (hs : s.member.station ≠ .frozen) (ho : s.tracker.isOpen = true) :
    ClosedFrom .cyc (s.withTracker { s.tracker with abandoned := s.tracker.abandoned || beforeStrip s.tracker.phase })
      (earlyClose s) := by
  rw [earlyClose_open ho]
  exact closeCycle_closed .cyc hn hs

/-- What the early close, if there is a cycle to close, leaves in `u` of the station `s` that a CYC edge goes on with. -/
structure EarlyClosed (s u : State) : Prop where
  isOpen : u.tracker.isOpen = false
  cycle : u.tracker.cycle = s.tracker.cycle
  stray : u.tracker.stray = s.tracker.stray
  role : ∀ ch, (u.channels.units.get ch).role = (s.channels.units.get ch).role
  state : ∀ ch, (u.channels.units.get ch).state = (s.channels.units.get ch).state
  coup : u.coup = s.coup
  member : u.member = s.member
  config : u.port.config = s.port.config
  clock : u.clock = s.clock
  noFlips : NoFlips u

theorem earlyClose_closed {s : State} (hn : NoFlips s) (hs : s.member.station ≠ .frozen) : EarlyClosed s (earlyClose s) := by
  cases ho : s.tracker.isOpen with
  | false =>
    rw [earlyClose_none ho]
    exact ⟨ho, rfl, rfl, fun _ => rfl, fun _ => rfl, rfl, rfl, rfl, rfl, hn⟩
  | true =>
    have h := earlyClose_closes hn hs ho
    refine ⟨?_, ?_, ?_, fun ch => ?_, fun ch => ?_, h.coup, h.member, h.config, h.clock, h.noFlips⟩
    · rw [h.tracker]; rfl
    · rw [h.tracker]; rfl
    · rw [h.tracker]; rfl
    · rw [h.channels, Four.get_map]; rfl
    · rw [h.channels, Four.get_map]; rfl

/-! ## The new cycle (R3, R9) -/

/-- The counted-up station: the tracker, and the horizon and the Applied Event List of a cycle that opens. -/
theorem countCycle_fields {u : State} (hn : NoFlips u) :
    (countCycle u).tracker = countedTracker (u.now + maxCycle u) u.tracker ∧
    ((countCycle u).channels = u.channels ∧ (countCycle u).link = u.link ∧ (countCycle u).member = u.member ∧
      (countCycle u).coup = u.coup ∧ (countCycle u).port = u.port) ∧
    (NoFlips (countCycle u) ∧ (countCycle u).fault.record = u.fault.record ∧ (countCycle u).clock = u.clock) ∧
    ((countCycle u).coin.window = u.coin.window ∧ (u.coin.horizon = none → (countCycle u).coin = u.coin)) := by
  unfold countCycle
  dsimp only
  split
  next =>
    refine ⟨rfl, ⟨rfl, rfl, rfl, rfl, rfl⟩, ⟨congrArg (List.filter _) hn, rfl, rfl⟩, rfl, fun hh => ?_⟩
    change { u.coin with horizon := none } = u.coin
    rw [← hh]
  next => exact ⟨rfl, ⟨rfl, rfl, rfl, rfl, rfl⟩, ⟨hn, rfl, rfl⟩, rfl, fun _ => rfl⟩

/-- The OPEN window is known by its stage. -/
theorem windowOpen_of_stage {s t : State} (h : t.coup.window.map (·.stage) = s.coup.window.map (·.stage)) :
    t.windowOpen = s.windowOpen := by
  have hw : ∀ u : State, u.windowOpen = (u.coup.window.map (·.stage) == some .isOpen) := by
    intro u
    unfold State.windowOpen
    cases u.coup.window <;> rfl
  rw [hw, hw, h]

/-- What a CYC edge makes of the station `u` in which no cycle is open (R3, R9, R153, R159). -/
structure CycleStarted (u t : State) : Prop where
  tracker : t.tracker = { countedTracker (u.now + maxCycle u) u.tracker with phase := .feed }
  coup : t.coup = { u.coup with
    slot := if u.coup.slot = .firing then .firing else .none
    window := none
    counts := { u.coup.counts with
      skipped := if u.coup.slot = .none ∨ u.coup.slot = .firing then u.coup.counts.skipped
        else min (u.coup.counts.skipped + 1) 65535
      abandoned := if u.coup.window = none then u.coup.counts.abandoned else min (u.coup.counts.abandoned + 1) 65535 } }
  link : t.link = { u.link with queue := t.link.queue }
  withdrawn : ∀ r, u.coup.slot = .queued r → (∀ c, t.link.current = some c → c.ref ≠ some r) → ∀ d ∈ t.link.queue, d.ref ≠ r
  channels : t.channels = { u.channels with units := t.channels.units }
  released : ∀ ch, (∃ r, u.coup.slot = .queued r) ∨ (∃ fire, u.coup.slot = .announced fire) → pulseChannel u = some ch →
    isArmed (u.channels.units.get ch) = true → (u.coup.records.get ch).state ≠ .dead →
    (t.channels.units.get ch).role = .listen ∧
      (t.channels.units.get ch).state = if Block.listen u.block 1 == 1 then .quiet else .hush
  listens : ∀ ch, (u.channels.units.get ch).role = .listen →
    (u.channels.units.get ch).state = .quiet ∨ (u.channels.units.get ch).state = .hush →
    (t.channels.units.get ch).role = .listen ∧
      (t.channels.units.get ch).state = if Block.listen u.block 1 == 1 then .quiet else .hush
  inHit : ∀ ch, (u.channels.units.get ch).state = .inHit → t.channels.units.get ch = u.channels.units.get ch
  coin : u.coin.window = [] → u.coin.horizon = none → t.coin = u.coin
  member : t.member = u.member
  record : t.fault.record = u.fault.record
  port : t.port = u.port
  clock : t.clock = u.clock

/-- The Coupling Unit after its slot has ended and its window has been abandoned, from what each of the two has done. -/
theorem abandonedCoup_ended {k e : CouplingUnit} {slot : Slot} {skipped : Nat}
    (he : e = { k with slot := slot, window := e.window, counts := { k.counts with skipped := skipped } })
    (hs : e.window.map (·.stage) = k.window.map (·.stage)) :
    abandonedCoup e = { k with
      slot := slot
      window := none
      counts := { k.counts with
        skipped := skipped
        abandoned := if k.window = none then k.counts.abandoned else min (k.counts.abandoned + 1) 65535 } } := by
  have hw : e.window = none ↔ k.window = none := by rw [← Option.map_eq_none_iff, hs, Option.map_eq_none_iff]
  unfold abandonedCoup
  simp only [hw]
  rw [he]

/-- The station `u`, counted up, as it has entered FEED (R3, R16). -/
structure FeedEntered (u v : State) : Prop where
  tracker : v.tracker = { countedTracker (u.now + maxCycle u) u.tracker with phase := .feed }
  coup : v.coup = u.coup
  link : v.link = u.link
  member : v.member = u.member
  port : v.port = u.port
  noFlips : NoFlips v
  record : v.fault.record = u.fault.record
  clock : v.clock = u.clock
  channels : v.channels = { u.channels with units := v.channels.units }
  unit : ∀ ch, v.channels.units.get ch =
    followListen (Block.listen u.block 1 == 1 || u.windowOpen) (u.channels.units.get ch)
  coin : u.coin.horizon = none → v.coin = u.coin

theorem enterFeed_entered {u : State} (hn : NoFlips u) : FeedEntered u (enterPhase .feed (countCycle u)) := by
  obtain ⟨ctr, ⟨cch, clk, cme, cco, cpo⟩, ⟨cfl, crec, ccl⟩, _, ccoin⟩ := countCycle_fields hn
  rw [enterPhase_eq cfl, ctr]
  generalize countCycle u = w at cch clk cme cco cpo cfl crec ccl ccoin
  have hblock : w.block = u.block := by unfold State.block; rw [cpo]
  have hopen : w.windowOpen = u.windowOpen := windowOpen_of_stage (by rw [cco])
  refine
    { tracker := rfl, coup := cco, link := clk, member := cme, port := cpo, noFlips := cfl, record := crec, clock := ccl
      channels := by rw [← cch]; rfl
      unit := fun ch => ?_
      coin := ccoin }
  rw [← cch, ← hblock, ← hopen]
  exact Four.get_map _ _ ch

theorem FeedEntered.block {u v : State} (h : FeedEntered u v) : v.block = u.block := by
  unfold State.block
  rw [h.port]

theorem FeedEntered.listening {u v : State} (h : FeedEntered u v) : v.listening = (Block.listen u.block 1 == 1) := by
  unfold State.listening
  rw [h.tracker, h.block]
  rfl

theorem FeedEntered.windowOpen {u v : State} (h : FeedEntered u v) : v.windowOpen = u.windowOpen :=
  windowOpen_of_stage (by rw [h.coup])

theorem FeedEntered.pulseChannel {u v : State} (h : FeedEntered u v) : Machine.pulseChannel v = Machine.pulseChannel u := by
  unfold Machine.pulseChannel State.ownNo
  rw [h.block, h.member]

/-- The three parts of the new cycle's start one after the other: `v` has entered FEED, `e` has ended the slot, `t` has no window. -/
theorem cycleStarted_of_parts {u v e t : State} (hv : FeedEntered u v) (he : SlotEnded v e)
    (ht : t = (e.withCoup (abandonedCoup e.coup)).withChannels { e.channels with
      units := e.channels.units.map fun _ x => afterWindow u.windowOpen (Block.listen u.block 1 == 1) x }) : CycleStarted u t := by
  have tunit : ∀ ch, t.channels.units.get ch = afterWindow u.windowOpen (Block.listen u.block 1 == 1) (e.channels.units.get ch) := by
    intro ch
    rw [ht]
    exact Four.get_map _ _ ch
  have tchan : t.channels = { e.channels with units := t.channels.units } := by rw [ht]; rfl
  have tlink : t.link = e.link := by rw [ht]; rfl
  have tcoin : t.coin = e.coin := by rw [ht]; rfl
  refine
    { tracker := by rw [ht]; exact he.tracker.trans hv.tracker
      coup := ?_
      link := by rw [tlink, ← hv.link]; exact he.link
      withdrawn := fun r hr hcur => ?_
      channels := by rw [tchan, he.channels, hv.channels]
      released := fun ch hsl hch ha hd => ?_
      listens := fun ch hr hst => ?_
      inHit := fun ch hst => ?_
      coin := fun hw hh => ?_
      member := by rw [ht]; exact he.member.trans hv.member
      record := by rw [ht]; exact (congrArg FaultUnit.record he.fault).trans hv.record
      port := by rw [ht]; exact he.port.trans hv.port
      clock := by rw [ht]; exact he.clock.trans hv.clock }
  · have hcoup := he.coup
    have hstage := he.stage
    rw [hv.coup] at hcoup hstage
    rw [ht]
    exact abandonedCoup_ended hcoup hstage
  · rw [tlink] at hcur ⊢
    refine he.withdrawn r (by rw [hv.coup]; exact hr) ?_
    unfold isSelected
    split
    next c hc => exact beq_eq_false_iff_ne.mpr (hcur c (by rw [he.link]; exact hc))
    next => rfl
  · have hrole : (u.channels.units.get ch).role ≠ .listen := by
      simp only [isArmed, Bool.and_eq_true, beq_iff_eq] at ha
      rw [ha.1]
      decide
    have hsame : v.channels.units.get ch = u.channels.units.get ch := by rw [hv.unit, followListen_otherRole _ hrole]
    obtain ⟨hr, hst⟩ := he.released ch (by rw [hv.coup]; exact hsl) (by rw [hv.pulseChannel]; exact hch) (by rw [hsame]; exact ha)
      (by rw [hv.coup]; exact hd)
    unfold listenState at hst
    rw [hv.listening, hv.windowOpen] at hst
    rw [tunit]
    exact afterWindow_listens hr hst
  · obtain ⟨hr', hst'⟩ := followListen_listens (Block.listen u.block 1 == 1 || u.windowOpen) hr hst
    rw [← hv.unit] at hr' hst'
    rw [tunit, he.unarmed ch (by unfold isArmed; rw [hr']; rfl)]
    exact afterWindow_listens hr' hst'
  · have hv' : v.channels.units.get ch = u.channels.units.get ch := by rw [hv.unit, followListen_inHit _ hst]
    have hunarmed : isArmed (v.channels.units.get ch) = false := by
      rw [hv', isArmed, hst, Bool.and_eq_false_iff]
      exact Or.inr rfl
    rw [tunit, he.unarmed ch hunarmed, hv', afterWindow_inHit _ _ hst]
  · have hwe : e.coin.window = [] := List.sublist_nil.mp (by rw [← hw, ← hv.coin hh]; exact he.window)
    rw [tcoin, he.coin, hwe, hv.coin hh, ← hw]

theorem startCycle_started {u : State} (hn : NoFlips u) (hs : u.member.station ≠ .frozen) : CycleStarted u (startCycle u) := by
  have hv := enterFeed_entered hn
  unfold startCycle
  generalize enterPhase .feed (countCycle u) = v at hv
  have he := endSlotAtCyc_ended hv.noFlips
  rw [unlessFrozen_live (by rw [hv.member]; exact hs)]
  unfold couplingCyc
  generalize endSlotAtCyc v = e at he
  have hopen : e.windowOpen = u.windowOpen := (windowOpen_of_stage he.stage).trans hv.windowOpen
  have hlisten : e.listening = (Block.listen u.block 1 == 1) := by
    rw [← hv.listening]
    unfold State.listening State.block
    rw [he.tracker, he.port]
  rw [unlessFrozen_live (by rw [he.member, hv.member]; exact hs),
    abandonWindow_sound (by unfold NoFlips; rw [he.fault]; exact hv.noFlips), hopen, hlisten]
  exact cycleStarted_of_parts hv he rfl

/-- The CYC edge at work: the early close, then the new cycle (R3). -/
theorem exec_cycRising_atWork {m : Moment} {s : State} (h : Sound m s) (hw : s.atWork = true) :
    exec (.cycRising m) s = .next (startCycle (earlyClose (s.withNow m.tag))) := by
  have he := earlyClose_closed (s := s.withNow m.tag) h.noFlips (atWork_not_frozen hw)
  rw [exec_cycRising_quiet m s h.noFaultToFind, takeEdge_atWork (by exact hw)]
  unfold cycEdge
  rw [unlessFrozen_live (by rw [he.member]; exact atWork_not_frozen hw), usingConfig_sound he.noFlips]

/-- The tracker of a new cycle (R3, R9). -/
theorem countedTracker_fields (timer : Tag) (t : Tracker) :
    (countedTracker timer t).settle = none ∧ (countedTracker timer t).cycleTimer = .running timer ∧
    (countedTracker timer t).stray = t.stray ∧ (countedTracker timer t).cycle = t.cycle.map (· + 1) ∧
    (t.cycle.isSome = true → (countedTracker timer t).isOpen = true ∧ (countedTracker timer t).disordered = false ∧
      (countedTracker timer t).abandoned = false) ∧
    (t.cycle = none → (countedTracker timer t).isOpen = t.isOpen) ∧
    ((countedTracker timer t).lastClosed = t.lastClosed ∧ (countedTracker timer t).lastDisordered = t.lastDisordered ∧
      (countedTracker timer t).lastAbandoned = t.lastAbandoned) := by
  unfold countedTracker
  split
  next c hc => exact ⟨rfl, rfl, rfl, by rw [hc]; rfl, fun _ => ⟨rfl, rfl, rfl⟩, fun h => absurd (hc.symm.trans h) (Option.some_ne_none c), rfl, rfl, rfl⟩
  next hc => exact ⟨rfl, rfl, rfl, by rw [hc]; rfl, fun h => absurd hc (Option.isSome_iff_ne_none.mp h), fun _ => rfl, rfl, rfl, rfl⟩

theorem beforeStrip_iff (p : Phase) :
    beforeStrip p = true ↔ p = .feed ∨ p = .fill1 ∨ p = .shake1 ∨ p = .fill2 ∨ p = .shake2 := by
  cases p <;> simp [beforeStrip]

/-- Settles O4: the early close leaves a station without an open cycle, in which the new one starts. -/
theorem cycRisingStartsCycle : Obligations.CycRisingStartsCycle := by
  refine ⟨fun m s h hw => ⟨_, exec_cycRising_atWork h hw, ?_⟩, beforeStrip_iff, by decide⟩
  have he := earlyClose_closed (s := s.withNow m.tag) h.noFlips (atWork_not_frozen hw)
  have hlast : (s.tracker.isOpen = false → earlyClose (s.withNow m.tag) = s.withNow m.tag) ∧
      (s.tracker.isOpen = true → ClosedFrom .cyc
        ((s.withNow m.tag).withTracker { s.tracker with abandoned := s.tracker.abandoned || beforeStrip s.tracker.phase })
        (earlyClose (s.withNow m.tag))) :=
    ⟨earlyClose_none (s := s.withNow m.tag), earlyClose_closes (s := s.withNow m.tag) h.noFlips (atWork_not_frozen hw)⟩
  generalize earlyClose (s.withNow m.tag) = u at he hlast
  obtain ⟨hkept, hclosed⟩ := hlast
  have hst := startCycle_started he.noFlips (by rw [he.member]; exact atWork_not_frozen hw)
  generalize startCycle u = t at hst
  have hblock : u.block = s.block := by unfold State.block; rw [he.config]; rfl
  have hunow : u.now = m.tag := (congrArg (BitVec.ofNat 32) he.clock).trans (withNow_now s m.tag)
  obtain ⟨kset, ktimer, kstray, kcyc, kopen, knone, klast, kdis, kab⟩ := countedTracker_fields (u.now + maxCycle u) u.tracker
  have hlisten : ∀ x : ChannelState, x = (if Block.listen u.block 1 == 1 then .quiet else .hush) →
      x = if Block.listen s.block 1 = 1 then .quiet else .hush := by
    intro x hx
    rw [hx, hblock]
    simp only [beq_iff_eq]
  refine ⟨?_, ?_, ?_, ?_, ?_, fun hc => ?_, fun hc => ?_, fun ho => ?_, fun ho => ?_, fun ho hroom hf => ?_, ?_, fun r hr => ?_,
    fun ch hsl hch hrole hstate hd => ?_, fun ch hr hs => ?_, ?_, ?_, ?_⟩
  · rw [hst.tracker]
  · rw [hst.tracker]; exact kset
  · rw [hst.tracker]; exact kstray.trans he.stray
  · rw [hst.tracker]
    refine ktimer.trans ?_
    unfold maxCycle
    rw [hunow, hblock]
  · rw [hst.tracker]
    refine kcyc.trans ?_
    rw [he.cycle]
    rfl
  · rw [hst.tracker]; exact kopen (by rw [he.cycle]; exact hc)
  · rw [hst.tracker]; exact (knone (by rw [he.cycle]; exact hc)).trans he.isOpen
  · rw [hst.tracker]
    rw [hkept ho] at klast kdis kab ⊢
    exact ⟨klast, kdis, kab⟩
  · rw [hst.tracker]
    rw [(hclosed ho).tracker] at klast kdis kab
    exact ⟨by rw [(hclosed ho).tracker]; exact klast, by rw [(hclosed ho).tracker]; exact kdis,
      by rw [(hclosed ho).tracker]; exact kab⟩
  · rw [hst.port]
    exact (hclosed ho).flagged (by rw [Bool.or_assoc] at hf; exact hf) hroom
  · rw [hst.coup, he.coup]
    rfl
  · exact hst.withdrawn r (by rw [he.coup]; exact hr)
  · have ha : isArmed (u.channels.units.get ch) = true := by
      unfold isArmed
      rw [he.role, he.state]
      simp [hrole, hstate]
    have hpc : pulseChannel u = some ch := by
      rw [← hch]; unfold pulseChannel State.ownNo; rw [hblock, he.member]; rfl
    obtain ⟨h1, h2⟩ := hst.released ch (by rw [he.coup]; exact hsl) hpc ha (by rw [he.coup]; exact hd)
    exact ⟨h1, hlisten _ h2⟩
  · obtain ⟨h1, h2⟩ := hst.listens ch (by rw [he.role]; exact hr) (by rw [he.state]; exact hs)
    exact ⟨h1, hlisten _ h2⟩
  · rw [hst.member, he.member]; rfl
  · rw [hst.port, he.config]; rfl
  · exact (congrArg (BitVec.ofNat 32) hst.clock).trans hunow

/-! ## What the three closes have in common (R13) -/

/-- What the rest of a closing command leaves of the close in `u` (R13). -/
structure KeepsClose (u t : State) : Prop where
  coin : u.coin.window = [] → u.coin.horizon = none → t.coin = u.coin
  channels : t.channels = { u.channels with units := t.channels.units }
  inHit : ∀ ch, (u.channels.units.get ch).state = .inHit → t.channels.units.get ch = u.channels.units.get ch
  current : t.link.current = u.link.current
  dropped : t.link.dropped = u.link.dropped
  lastClosed : t.tracker.lastClosed = u.tracker.lastClosed
  lastDisordered : t.tracker.lastDisordered = u.tracker.lastDisordered
  lastAbandoned : t.tracker.lastAbandoned = u.tracker.lastAbandoned
  member : t.member = u.member
  record : t.fault.record = u.fault.record

theorem KeepsClose.refl (u : State) : KeepsClose u u :=
  ⟨fun _ _ => rfl, rfl, fun _ _ => rfl, rfl, rfl, rfl, rfl, rfl, rfl, rfl⟩

theorem goIdle_keepsClose {u : State} (hn : NoFlips u) : KeepsClose u (goIdle u) := by
  rw [goIdle_sound hn]
  refine ⟨fun _ _ => rfl, rfl, fun ch hs => ?_, rfl, rfl, rfl, rfl, rfl, rfl, rfl⟩
  exact (Four.get_map _ _ ch).trans (followListen_inHit _ hs)

theorem idleIfExpired_keepsClose {u : State} (hn : NoFlips u) : KeepsClose u (idleIfExpired u) := by
  unfold idleIfExpired
  split
  next => exact goIdle_keepsClose hn
  next => exact KeepsClose.refl u

/-- The move to IDLE keeps the cycle number. -/
theorem goIdle_cycle {u : State} (hn : NoFlips u) : (goIdle u).tracker.cycle = u.tracker.cycle := by
  rw [goIdle_sound hn]
  rfl

theorem idleIfExpired_cycle {u : State} (hn : NoFlips u) : (idleIfExpired u).tracker.cycle = u.tracker.cycle := by
  unfold idleIfExpired
  split
  next => exact goIdle_cycle hn
  next => rfl

theorem startCycle_keepsClose {u : State} (hn : NoFlips u) (hs : u.member.station ≠ .frozen) : KeepsClose u (startCycle u) := by
  have h := startCycle_started hn hs
  obtain ⟨_, _, _, _, _, _, klast, kdis, kab⟩ := countedTracker_fields (u.now + maxCycle u) u.tracker
  exact
    { coin := h.coin, channels := h.channels, inHit := h.inHit
      current := by rw [h.link], dropped := by rw [h.link]
      lastClosed := by rw [h.tracker]; exact klast
      lastDisordered := by rw [h.tracker]; exact kdis
      lastAbandoned := by rw [h.tracker]; exact kab
      member := h.member, record := h.record }

/-- Every closing command closes the cycle with its flags, and keeps what the close has left; a CYC edge counts the cycle number up. -/
theorem exec_closes {m : Moment} {s : State} {cmd : Instr} {cause : CloseCause} {dis ab : Bool} (h : ClosesNow m s cmd cause dis ab) :
    ∃ u t, exec cmd s = .next t ∧
      ClosedFrom cause ((s.withNow m.tag).withTracker { s.tracker with disordered := dis, abandoned := ab }) u ∧ KeepsClose u t ∧
      t.tracker.cycle = if cause = .cyc then s.tracker.cycle.map (· + 1) else s.tracker.cycle := by
  obtain ⟨hS, hw, ho, rfl, hcmd⟩ := h
  have hlive : (s.withNow m.tag).member.station ≠ .frozen := atWork_not_frozen hw
  rcases hcmd with ⟨d, hs, hd, rfl, rfl, rfl⟩ | ⟨rfl, rfl, rfl⟩ | ⟨d, hs, hd, hp, rfl, rfl, rfl⟩
  · have hcl := closeCycle_closed .settle (s := s.withNow m.tag) hS.noFlips hlive
    refine ⟨_, _, exec_settleTimerExpiry_due hS hw ho hs hd, hcl, idleIfExpired_keepsClose hcl.noFlips, ?_⟩
    rw [if_neg (by decide), idleIfExpired_cycle hcl.noFlips, hcl.tracker]
    rfl
  · have hcl := earlyClose_closes (s := s.withNow m.tag) hS.noFlips hlive ho
    have hlive' : (earlyClose (s.withNow m.tag)).member.station ≠ .frozen := by rw [hcl.member]; exact hlive
    refine ⟨_, _, exec_cycRising_atWork hS hw, hcl, startCycle_keepsClose hcl.noFlips hlive', ?_⟩
    rw [(startCycle_started hcl.noFlips hlive').tracker]
    obtain ⟨_, _, _, kcyc, _⟩ := countedTracker_fields ((earlyClose (s.withNow m.tag)).now + maxCycle (earlyClose (s.withNow m.tag)))
      (earlyClose (s.withNow m.tag)).tracker
    refine kcyc.trans ?_
    rw [hcl.tracker]
    rfl
  · have hcl := closeCycle_closed .cycleTimer (s := (s.withNow m.tag).withTracker { s.tracker with abandoned := true })
      hS.noFlips hlive
    have hex := cycleExpired_closes (s := s.withNow m.tag) hS.noFlips hlive ho hp
    refine ⟨_, _, (exec_cycleTimerExpiry_due hS hw hs hd).trans (congrArg _ hex), hcl, goIdle_keepsClose hcl.noFlips, ?_⟩
    rw [if_neg (by decide), withNow_tracker, goIdle_cycle hcl.noFlips, hcl.tracker]
    rfl

/-- A frame of another kind goes on through a close (R53). -/
theorem cutLink_other {l : Link} {c : CurrentFrame} (hc : l.current = some c) (hk : c.kind ≠ .hit) : cutLink l = l := by
  unfold cutLink
  rw [hc]
  exact if_neg hk

/-- A transmitting HIT frame finishes its attempt without a retry (R53). -/
theorem cutLink_transmitting {l : Link} {c : CurrentFrame} {stamp : Tag} (hc : l.current = some c) (hk : c.kind = .hit)
    (ha : c.attempt = .transmitting stamp) : cutLink l = { l with current := some { c with noRetry := true } } := by
  unfold cutLink
  rw [hc]
  dsimp only
  rw [if_pos hk, ha]

/-- A waiting HIT frame is dropped (R53). -/
theorem cutLink_waiting {l : Link} {c : CurrentFrame} {due : Tag} (hc : l.current = some c) (hk : c.kind = .hit)
    (ha : c.attempt = .waiting due) : cutLink l = { l with current := none, dropped := raised l.dropped } := by
  unfold cutLink
  rw [hc]
  dsimp only
  rw [if_pos hk, ha]

/-- Settles O12: the close itself discards; the rest of its command leaves that alone. -/
theorem closesDiscardTheCycle : Obligations.ClosesDiscardTheCycle := by
  intro m s cmd cause dis ab h
  obtain ⟨u, t, hex, hcl, hk, hcyc⟩ := exec_closes h
  have hcoin : t.coin = discardedCoin s.coin := by
    rw [← show u.coin = discardedCoin s.coin from hcl.coin]
    exact hk.coin (by rw [hcl.coin]; rfl) (by rw [hcl.coin]; rfl)
  obtain ⟨hdrop, hsome, hnone⟩ : SelectsNamed (cutLink s.link) u.link := hcl.link
  rw [← hk.dropped] at hdrop
  rw [← hk.current] at hsome hnone
  refine ⟨t, hex, hcoin, ?_, ?_, ?_, fun ch hit hin hopen => ?_, fun c hc hkind => ?_, fun c stamp hc hkind ha => ?_,
    fun c due hc hkind ha => ?_, hcyc, ?_, ?_, ?_, ?_, ?_⟩
  · rw [hk.channels, hcl.channels]
  · rw [hk.channels, hcl.channels]; rfl
  · rw [hk.channels, hcl.channels]; rfl
  · have hunit : u.channels.units.get ch = markGone (s.channels.units.get ch) := by rw [hcl.channels, Four.get_map]; rfl
    rw [hk.inHit ch (by rw [hunit]; exact hin), hunit]
    unfold markGone
    rw [hopen]
    rfl
  · rw [cutLink_other hc hkind] at hdrop hsome
    exact ⟨(hsome (by rw [hc]; rfl)).trans hc, hdrop⟩
  · rw [cutLink_transmitting hc hkind ha] at hdrop hsome
    exact ⟨hsome rfl, hdrop⟩
  · rw [cutLink_waiting hc hkind ha] at hdrop hnone
    exact ⟨hnone rfl, hdrop⟩
  · rw [hk.lastClosed, hcl.tracker]; rfl
  · rw [hk.lastDisordered, hcl.tracker]; rfl
  · rw [hk.lastAbandoned, hcl.tracker]; rfl
  · rw [hk.member, hcl.member]; rfl
  · rw [hk.record, hcl.record]; rfl

end Sys2Proof.Machine
end

section
/-! PROOFS. The adoption of a joining station: with sound stores the blocks that take a frame leave the Membership Unit alone, so what the
adoption made of it is what the step ends with. -/

namespace Sys2Proof.Machine

/-! ## The Membership Unit under the operations that blocks share -/

/-- The stores are sound and the Membership Unit is `mem`. -/
def MemberKept (mem : Membership) (s : State) : Prop := NoFlips s ∧ s.member = mem

section
variable {mem : Membership} {s : State}

theorem unlessFrozen_memberKept {f : State → State} (hf : ∀ t, MemberKept mem t → MemberKept mem (f t)) (h : MemberKept mem s) :
    MemberKept mem (s.unlessFrozen f) := by
  unfold State.unlessFrozen
  split
  next => exact h
  next => exact hf s h

theorem usingConfig_memberKept {offsets : List Nat} {f : State → State} (h : MemberKept mem s) (hf : MemberKept mem (f s)) :
    MemberKept mem (usingConfig offsets f s) := by
  rw [usingConfig_sound h.1]
  exact hf

theorem usingWords_memberKept {words : List StoreWord} {f : State → State} (h : MemberKept mem s) (hf : MemberKept mem (f s)) :
    MemberKept mem (usingWords words f s) := by
  rw [usingWords_sound h.1]
  exact hf

theorem rewrite_memberKept (p : StoreWord → Bool) (h : MemberKept mem s) : MemberKept mem (rewrite p s) := by
  rw [rewrite_sound h.1]
  exact h

theorem raiseNow_memberKept (subject : Nat) (d : NoticeDetail) (h : MemberKept mem s) : MemberKept mem (raiseNow subject d s) := by
  unfold raiseNow
  rw [raise_eq]
  exact h

theorem raiseChanges_memberKept (cycle : Option CycleNo) (cause : SegCause) (old new : List SegmentRecord) (h : MemberKept mem s) :
    MemberKept mem (raiseChanges cycle cause old new s) := by
  rw [raiseChanges_eq, raiseAll_eq]
  exact h

theorem selectEntry_memberKept (c : Candidate) (h : MemberKept mem s) : MemberKept mem (selectEntry c s) := by
  unfold selectEntry
  split
  next =>
    split
    next => exact h
    next => exact h
  next => exact h

theorem selectFrame_memberKept (h : MemberKept mem s) : MemberKept mem (selectFrame s) := by
  unfold selectFrame
  split
  next => exact h
  next =>
    split
    next => exact h
    next => exact selectEntry_memberKept _ h
    next => exact selectEntry_memberKept _ h

theorem request_memberKept (kind : FrameKind) (payload : List Byte) {taken : Nat → State → State} {refused : State → State}
    (ht : ∀ ref t, MemberKept mem t → MemberKept mem (taken ref t)) (hr : MemberKept mem (refused s)) (h : MemberKept mem s) :
    MemberKept mem (request kind payload taken refused s) := by
  have hq := ht s.link.nextRef (enqueue kind payload s) h
  rw [request_sound kind payload taken refused hq.1]
  split
  next => exact selectFrame_memberKept hq
  next => exact hr

/-! ## CONTROL and ROW frames (R122 to R124, R144 to R147) -/

theorem deriveUnlessHeld_memberKept (h : MemberKept mem s) : MemberKept mem (deriveUnlessHeld s) := by
  rw [deriveUnlessHeld_sound h.1]
  split
  next => exact h
  next => exact h

theorem controlSegments_memberKept (c : Control) (ns : List Nat) (h : MemberKept mem s) : MemberKept mem (controlSegments c ns s) := by
  induction ns generalizing s with
  | nil => exact h
  | cons n ns ih => exact unlessFrozen_memberKept (fun _ ht => ih ht) (usingWords_memberKept h h)

theorem applyControl_memberKept (c : Control) (h : MemberKept mem s) : MemberKept mem (applyControl c s) :=
  unlessFrozen_memberKept (fun _ ht => deriveUnlessHeld_memberKept (raiseChanges_memberKept _ _ _ _ ht))
    (controlSegments_memberKept c _ h)

theorem abandonTransfer_memberKept (cause : AbandonCause) (h : MemberKept mem s) : MemberKept mem (abandonTransfer cause s) := by
  unfold abandonTransfer
  split
  next => exact raiseNow_memberKept _ _ h
  next => exact h

theorem carryControl_memberKept (c : Control) (h : MemberKept mem s) : MemberKept mem (carryControl c s) := by
  unfold carryControl
  split
  next => exact h
  next =>
    split
    next => exact h
    next => exact abandonTransfer_memberKept _ h

theorem takeControl_memberKept (c : Control) (h : MemberKept mem s) : MemberKept mem (takeControl c s) := by
  unfold takeControl
  split
  next => exact unlessFrozen_memberKept (fun _ ht => carryControl_memberKept c ht) (applyControl_memberKept c h)
  next => exact h

theorem controlFrame_memberKept (sender : Station) (p : List Byte) (h : MemberKept mem s) : MemberKept mem (controlFrame sender p s) := by
  unfold controlFrame
  split
  next => exact h
  next =>
    split
    next => exact usingConfig_memberKept h (takeControl_memberKept _ h)
    next => exact h

theorem reapplyControls_memberKept (cs : List Control) (h : MemberKept mem s) : MemberKept mem (reapplyControls cs s) := by
  induction cs generalizing s with
  | nil => exact h
  | cons c cs ih => exact unlessFrozen_memberKept (fun _ ht => ih ht) (applyControl_memberKept c h)

theorem setStanding_memberKept (v : Standing) (h : MemberKept mem s) : MemberKept mem (setStanding v s) := by
  unfold setStanding standingChanged
  split
  next => exact h
  next =>
    have hr : MemberKept mem (raiseNow s.ownNo (.standing v) (s.withAgree { s.agree with standing := v })) :=
      raiseNow_memberKept _ _ h
    split
    next => exact hr
    next => exact usingWords_memberKept hr (usingConfig_memberKept hr hr)

theorem completeTransfer_memberKept (donor : Station) (row : RowFrame) (buffer : List SegmentRecord) (h : MemberKept mem s) :
    MemberKept mem (completeTransfer donor row buffer s) := by
  unfold completeTransfer
  split
  next => exact abandonTransfer_memberKept _ h
  next =>
    have hreplaced : MemberKept mem (replaceTable buffer row.age s) := rewrite_memberKept _ (raiseChanges_memberKept _ _ _ _ h)
    refine unlessFrozen_memberKept (fun t ht => ?_) (reapplyControls_memberKept _ hreplaced)
    exact unlessFrozen_memberKept (fun _ hu => raiseNow_memberKept _ _ hu) (setStanding_memberKept _ ht)

theorem takeRow_memberKept (donor : Station) (cycle : Option CycleNo) (digest : BitVec 32) (nextFirst : Nat) (buffer : List SegmentRecord)
    (row : RowFrame) (h : MemberKept mem s) : MemberKept mem (takeRow donor cycle digest nextFirst buffer row s) := by
  unfold takeRow
  split
  next =>
    dsimp only
    split
    next => exact completeTransfer_memberKept _ _ _ h
    next => exact h
  next => exact abandonTransfer_memberKept _ h

theorem rowFrame_memberKept (sender : Station) (own : Bool) (p : List Byte) (h : MemberKept mem s) :
    MemberKept mem (rowFrame sender own p s) := by
  have hi : MemberKept mem (ignoreRow s) := h
  unfold rowFrame
  split
  next => exact h
  next =>
    split
    next =>
      dsimp only
      split
      next => exact hi
      next =>
        split
        next => exact hi
        next =>
          split
          next => exact hi
          next => exact usingConfig_memberKept h (takeRow_memberKept _ _ _ _ _ _ h)
    next => exact hi

/-! ## EVENT and HIT frames (R81 to R93, R109 to R112) -/

theorem eventReceipt_memberKept (e : EventRecord) (h : MemberKept mem s) : MemberKept mem (eventReceipt e s) := by
  unfold eventReceipt
  split
  next =>
    dsimp only
    rw [withdrawPendings_eq, withdraws_eq]
    exact h
  next => exact h

theorem checkApplied_memberKept (h : MemberKept mem s) : MemberKept mem (checkApplied s) :=
  ⟨(checkApplied_calm s (Calm.refl h.1)).noFlips, h.2⟩

theorem judgeApplied_memberKept (sender : Station) (e : EventRecord) (h : MemberKept mem s) :
    MemberKept mem (judgeApplied sender e s) := by
  unfold judgeApplied
  split
  next => exact h
  next =>
    split
    next => exact h
    next => exact checkApplied_memberKept h

theorem applyEvent_memberKept (sender : Station) (e : EventRecord) (h : MemberKept mem s) : MemberKept mem (applyEvent sender e s) := by
  unfold applyEvent
  split
  next => exact h
  next => exact usingConfig_memberKept h (judgeApplied_memberKept sender e h)

theorem takePeerHit_memberKept (sender : Station) (offset : Tag) (r : HitRecord) (h : MemberKept mem s) :
    MemberKept mem (takePeerHit sender offset r s) := by
  obtain ⟨hfault, hmember⟩ := peerHit_keeps sender offset r s
  have hp : MemberKept mem (peerHit sender offset s r) := ⟨by unfold NoFlips; rw [hfault]; exact h.1, hmember.trans h.2⟩
  unfold takePeerHit
  dsimp only
  split
  next => exact hp
  next =>
    rw [hitEntered_sound hp.1]
    exact hp

theorem takePeerHits_memberKept (sender : Station) (offset : Tag) (rs : List HitRecord) (h : MemberKept mem s) :
    MemberKept mem (takePeerHits sender offset rs s) := by
  induction rs generalizing s with
  | nil => exact h
  | cons r rs ih => exact unlessFrozen_memberKept (fun _ ht => ih ht) (takePeerHit_memberKept sender offset r h)

theorem publishAsOwner_memberKept (members : List HitEntry) (crowded : Bool) (h : MemberKept mem s) :
    MemberKept mem (publishAsOwner members crowded s) :=
  usingConfig_memberKept h (request_memberKept _ _ (fun _ _ ht => ht) h h)

theorem pendGroup_memberKept (members : List HitEntry) (crowded : Bool) (rank : Nat) (h : MemberKept mem s) :
    MemberKept mem (pendGroup members crowded rank s) := by
  unfold pendGroup
  split
  next => exact h
  next => exact usingConfig_memberKept h h

theorem closeGroup_memberKept (g : OpenGroup) (h : MemberKept mem s) : MemberKept mem (closeGroup g s) := by
  unfold closeGroup
  dsimp only
  split
  next => exact publishAsOwner_memberKept _ _ h
  next => exact pendGroup_memberKept _ _ _ h
  next => exact h

theorem closeDueGroups_memberKept (n : Nat) (h : MemberKept mem s) : MemberKept mem (closeDueGroups n s) := by
  induction n generalizing s with
  | zero => exact h
  | succ n ih =>
    unfold closeDueGroups
    split
    next g _ =>
      split
      next => exact unlessFrozen_memberKept (fun _ ht => ih ht) (closeGroup_memberKept g h)
      next => exact h
    next => exact h

theorem closeIfMoved_memberKept (old : Option Tag) (h : MemberKept mem s) : MemberKept mem (closeIfMoved old s) := by
  unfold closeIfMoved
  split
  next => exact h
  next => exact closeDueGroups_memberKept _ h

theorem readForHits_memberKept (sender : Station) (f : RxFrame) (h : MemberKept mem s) : MemberKept mem (readForHits sender f s) := by
  unfold readForHits
  rw [readWindow_sound h.1]
  split
  next => exact h
  next => exact h

theorem hitFrame_memberKept (sender : Station) (f : RxFrame) (h : MemberKept mem s) : MemberKept mem (hitFrame sender f s) := by
  unfold hitFrame
  split
  next => exact h
  next =>
    split
    next => exact h
    next =>
      split
      next => exact h
      next =>
        refine unlessFrozen_memberKept (fun t ht => ?_) (readForHits_memberKept sender f h)
        exact unlessFrozen_memberKept (fun _ hu => closeIfMoved_memberKept _ hu) (takePeerHits_memberKept _ _ _ ht)

/-! ## PULSE frames (R151, R154) -/

theorem releaseChannel_memberKept (c : Channel) (h : MemberKept mem s) : MemberKept mem (releaseChannel c s) :=
  have ht := releaseChannel_touches c h.1
  ⟨by unfold NoFlips; rw [ht.fault]; exact h.1, ht.member.trans h.2⟩

theorem offerPulse_memberKept (h : MemberKept mem s) : MemberKept mem (offerPulse s) := by
  unfold offerPulse
  split
  next c _ =>
    split
    next => exact request_memberKept _ _ (fun _ _ ht => ht) (releaseChannel_memberKept c h) h
    next => exact h
  next => exact h

theorem reofferPulse_memberKept (h : MemberKept mem s) : MemberKept mem (reofferPulse s) := by
  unfold reofferPulse
  split
  next =>
    refine usingConfig_memberKept h ?_
    unfold offerInTime
    split
    next => exact h
    next => exact usingConfig_memberKept h (offerPulse_memberKept h)
  next => exact h

theorem openWindow_memberKept (h : MemberKept mem s) : MemberKept mem (openWindow s) := by
  unfold openWindow
  split
  next => exact h
  next => exact h

theorem placeWindow_memberKept (pulser : Station) (fire finish : Tag) (h : MemberKept mem s) :
    MemberKept mem (placeWindow pulser fire finish s) := by
  unfold placeWindow
  dsimp only
  split
  next => exact reofferPulse_memberKept (openWindow_memberKept h)
  next => exact reofferPulse_memberKept h

theorem takePulse_memberKept (pulser : Station) (stamp : Tag) (h : MemberKept mem s) : MemberKept mem (takePulse pulser stamp s) := by
  unfold takePulse
  dsimp only
  split
  next => exact h
  next =>
    refine unlessFrozen_memberKept (fun _ ht => placeWindow_memberKept _ _ _ ht) ?_
    rw [abandonWindow_sound h.1]
    exact h

theorem pulseFrame_memberKept (pulser : Station) (cycle : Option CycleNo) (stamp : Tag) (h : MemberKept mem s) :
    MemberKept mem (pulseFrame pulser cycle stamp s) := by
  unfold pulseFrame
  split
  next => exact h
  next => exact usingConfig_memberKept h (takePulse_memberKept pulser stamp h)

end

/-- Handing a frame to the blocks of its kind leaves the Membership Unit alone (R61). -/
theorem handToBlocks_member (k : FrameKind) (st : Station) (f : RxFrame) {s : State} (hn : NoFlips s) :
    (handToBlocks k st f s).member = s.member := by
  have h : MemberKept s.member s := ⟨hn, rfl⟩
  suffices MemberKept s.member (handToBlocks k st f s) from this.2
  cases k with
  | logout => exact h
  | presence => exact h
  | digest => exact h
  | control => exact controlFrame_memberKept _ _ h
  | event => exact applyEvent_memberKept _ _ (eventReceipt_memberKept _ h)
  | hit => exact hitFrame_memberKept _ _ h
  | pulse => exact pulseFrame_memberKept _ _ _ h
  | row =>
    unfold handToBlocks
    dsimp only
    split
    next => exact rowFrame_memberKept _ _ _ h
    next => exact h

/-! ## The adoption (R14, R66) -/

/-- The Membership Unit of a station that has adopted its first cycle number (R66, R67). -/
def runningMember (mem : Membership) : Membership := { mem with station := .running, joinTimer := none }

theorem joinAdopt_sound (n : CycleNo) {s : State} (hn : NoFlips s) :
    joinAdopt n s = adoptFirst n (s.withMember (runningMember s.member)) :=
  usingConfig_sound (by exact hn) _ _

theorem beginCycle_sound {s : State} (hn : NoFlips s) :
    beginCycle s = (s.withCoin { s.coin with horizon := none }).withEvid { s.evid with applied := [] } := by
  unfold beginCycle emptyApplied
  rw [rewrite_sound (by exact hn)]
  rfl

/-- With sound stores the adoption is a change of the tracker and, where a cycle is open, the start of its hits and events (R9, R14). -/
theorem adoptFirst_sound (n : CycleNo) {s : State} (hn : NoFlips s) : adoptFirst n s =
    let tr := adoptedTracker n (s.now + closeDelay s) s.tracker
    { s with
      tracker := tr
      coin := if tr.isOpen then { s.coin with horizon := none } else s.coin
      evid := if tr.isOpen then { s.evid with applied := [] } else s.evid } := by
  have hcases : adoptFirst n s = if (adoptedTracker n (s.now + closeDelay s) s.tracker).isOpen then
      beginCycle (s.withTracker (adoptedTracker n (s.now + closeDelay s) s.tracker))
    else s.withTracker (adoptedTracker n (s.now + closeDelay s) s.tracker) := rfl
  rw [hcases]
  by_cases ho : (adoptedTracker n (s.now + closeDelay s) s.tracker).isOpen = true
  · simp only [if_pos ho]
    exact beginCycle_sound (by exact hn)
  · simp only [if_neg ho]
    rfl

theorem adoptedTracker_idle (n : CycleNo) (settle : Tag) {t : Tracker} (h : t.phase = .idle) :
    adoptedTracker n settle t = { t with cycle := some n } := by
  unfold adoptedTracker
  rw [h]

theorem adoptedTracker_ret (n : CycleNo) (settle : Tag) {t : Tracker} (h : t.phase = .ret) : adoptedTracker n settle t =
    { t with cycle := some n, isOpen := true, disordered := false, abandoned := false, settle := some settle } := by
  unfold adoptedTracker
  rw [h]

theorem adoptedTracker_between (n : CycleNo) (settle : Tag) {t : Tracker} (hi : t.phase ≠ .idle) (hr : t.phase ≠ .ret) :
    adoptedTracker n settle t = { t with cycle := some n, isOpen := true, disordered := false, abandoned := false } := by
  unfold adoptedTracker
  split
  next h => exact absurd h hi
  next h => exact absurd h hr
  next => rfl

/-- Out of IDLE the cycle opens, and in RETURN alone the settle timer starts (R14). -/
theorem adoptedTracker_opens (n : CycleNo) (settle : Tag) {t : Tracker} (hi : t.phase ≠ .idle) : adoptedTracker n settle t =
    { t with
      cycle := some n, isOpen := true, disordered := false, abandoned := false
      settle := if t.phase = .ret then some settle else t.settle } := by
  by_cases hr : t.phase = .ret
  · rw [adoptedTracker_ret n settle hr, if_pos hr]
  · rw [adoptedTracker_between n settle hi hr, if_neg hr]

/-! ## The frame that a joining station adopts from (R66, R69 to R73) -/

/-- A PRESENCE with the own fingerprint makes its sender PRESENT (R72). -/
theorem takenRecord_presence {s : State} {st : Station} {f : RxFrame} (h : some (u32 f.payload 0) = s.member.fingerprint) :
    (takenRecord .presence st f s).state = .present := by
  unfold takenRecord recordByKind presenceRecord
  simp [h]

/-- A record that the frame leaves PRESENT is PRESENT when its sender's silence timer has started again (R71 to R73). -/
theorem takeRecord_present {s : State} {k : FrameKind} {st : Station} {f : RxFrame} (hn : NoFlips s)
    (h : (takenRecord k st f s).state = .present) : ((takeRecord k st f s).member.peers.get st).state = .present := by
  have hstored : (storeTaken k st f s).member = (s.setPeer st (takenRecord k st f s)).member := by
    unfold storeTaken recordChanged raiseNow
    rw [h]
    split
    next => rfl
    next => rw [if_pos rfl, raise_eq]; rfl
  have hpresent : ((storeTaken k st f s).member.peers.get st).state = .present := by
    rw [hstored]
    simpa using h
  have hcalm := storeTaken_calm k st f s (Calm.refl hn)
  unfold takeRecord enterRecord
  rw [usingConfig_sound hn]
  unfold restartSilence
  split
  next =>
    rw [usingConfig_sound hcalm.noFlips]
    unfold setSilence
    simpa using hpresent
  next => exact hpresent

/-- A joining station takes the frame's number and gives the frame to the blocks of its kind (R66, R73). -/
theorem joinAndHandOn_adopts {s : State} {k : FrameKind} {st : Station} {f : RxFrame} {n : CycleNo} (hn : NoFlips s)
    (hj : s.member.station = .joining) (ho : s.member.number ≠ some st) (hk : k ≠ .logout) (hc : f.cycle = some n)
    (hp : (s.member.peers.get st).state = .present) :
    joinAndHandOn k st f s = handToBlocks k st f (adoptFirst n (s.withMember (runningMember s.member))) := by
  have hmember : (adoptFirst n (s.withMember (runningMember s.member))).member = runningMember s.member := by
    rw [adoptFirst_sound n (by exact hn)]
    rfl
  have hpresent : ((runningMember s.member).peers.get st).state = .present := hp
  unfold joinAndHandOn joinNumber
  rw [if_pos ⟨hj, ho, hk, hp⟩, hc]
  dsimp only
  rw [joinAdopt_sound n hn, unlessFrozen_live (by rw [hmember]; exact nofun)]
  unfold handOn
  rw [hmember, hpresent, if_neg (by simp)]

/-- An accepted frame of another station is the Membership Unit's (R58 to R61). -/
theorem exec_frameHandlerTake_accepted {m : Moment} {s : State} {l : Lane} {f : RxFrame} {k : FrameKind} {st : Station} (hS : Sound m s)
    (hw : s.atWork = true) (hh : heldFrame s.link = some (l, f)) (ha : acceptance (Block.histLen s.block) f = some (k, st))
    (ho : s.member.number ≠ some st) :
    exec (.frameHandlerTake m) s =
      .next (endHandling (memberFrame k st f (countAccepted l k st (beginHandling l f (s.withNow m.tag))))) := by
  have hn : NoFlips s := hS.2.1
  have hh' : heldFrame (s.withNow m.tag).link = some (l, f) := hh
  have hl : (s.withNow m.tag).linkUp = true := linkUp_of_atWork hw
  have hf : (s.withNow m.tag).member.station ≠ .frozen := atWork_not_frozen hw
  have ha' : acceptance (Block.histLen (beginHandling l f (s.withNow m.tag)).block) f = some (k, st) := ha
  have ho' : ¬((beginHandling l f (s.withNow m.tag)).member.number = some st ∧ f.own = false) := fun h => ho h.1
  rw [exec_frameHandlerTake_quiet m s hS.noFaultToFind, hh']
  dsimp only
  rw [if_pos hl]
  unfold handleFrame handOut
  rw [if_neg hf, usingConfig_sound (by exact hn)]
  unfold acceptFrame
  rw [ha']
  dsimp only
  rw [if_neg ho']

/-- The frame qualifies: a PRESENCE with the own fingerprint, or a frame of another kind, LOGOUT apart, of a sender on record (R66). -/
def AdoptableFrom (k : FrameKind) (st : Station) (f : RxFrame) (s : State) : Prop :=
  (k = .presence ∧ some (u32 f.payload 0) = s.member.fingerprint) ∨
    (k ≠ .presence ∧ k ≠ .logout ∧ (s.member.peers.get st).fingerprint ≠ none ∧
      ((s.member.peers.get st).state = .present ∨ (s.member.peers.get st).state = .missing ∨
        (s.member.peers.get st).state = .loggedOut))

theorem AdoptableFrom.not_logout {k : FrameKind} {st : Station} {f : RxFrame} {s : State} (h : AdoptableFrom k st f s) : k ≠ .logout := by
  rcases h with ⟨hk, _⟩ | ⟨_, hk, _⟩
  · rw [hk]; exact nofun
  · exact hk

theorem AdoptableFrom.not_held {k : FrameKind} {st : Station} {f : RxFrame} {s : State} (h : AdoptableFrom k st f s) :
    heldAtOnce k (s.member.peers.get st) = false := by
  unfold heldAtOnce
  rcases h with ⟨hk, _⟩ | ⟨_, _, hprint, hs⟩
  · simp [hk]
  · have hprinted : (s.member.peers.get st).fingerprint.isNone = false := by simpa [Option.isSome_iff_ne_none] using hprint
    rcases hs with hs | hs | hs <;> simp [hs, hprinted]

theorem AdoptableFrom.taken_present {k : FrameKind} {st : Station} {f : RxFrame} {s : State} (h : AdoptableFrom k st f s) :
    (takenRecord k st f s).state = .present := by
  rcases h with ⟨rfl, hprint⟩ | ⟨hp, hl, _, hs⟩
  · exact takenRecord_presence hprint
  · exact (storeTaken_heard f hp hl hs).1

/-- A qualifying frame: once its sender's record has taken it, the joining station adopts its number and hands it on (R66). -/
theorem memberFrame_adopts {s : State} {k : FrameKind} {st : Station} {f : RxFrame} {n : CycleNo} (hn : NoFlips s)
    (hj : s.member.station = .joining) (ho : s.member.number ≠ some st) (hc : f.cycle = some n) (hq : AdoptableFrom k st f s) :
    ∃ u, Calm s u ∧
      memberFrame k st f s = handToBlocks k st f (adoptFirst n (u.withMember (runningMember u.member))) := by
  have hcalm := takeRecord_calm k st f s (Calm.refl hn)
  have hjoining : (takeRecord k st f s).member.station = .joining := hcalm.2.2.1.trans hj
  have hother : (takeRecord k st f s).member.number ≠ some st := by rw [hcalm.2.2.2.1]; exact ho
  refine ⟨takeRecord k st f s, hcalm, ?_⟩
  unfold memberFrame
  rw [hq.not_held, if_neg nofun, unlessFrozen_live (by rw [hjoining]; exact nofun)]
  exact joinAndHandOn_adopts hcalm.noFlips hjoining hother hq.not_logout hc (takeRecord_present hn hq.taken_present)

/-- What the first qualifying frame of a peer makes of a joining station: RUNNING, with the tracker that the adoption leaves (R14, R66). -/
theorem frameHandlerTake_adopts {m : Moment} {s : State} {l : Lane} {f : RxFrame} {k : FrameKind} {st : Station} {n : CycleNo}
    (hS : Sound m s) (hj : s.member.station = .joining) (hh : heldFrame s.link = some (l, f)) (ho : s.member.number ≠ some st)
    (ha : acceptance (Block.histLen s.block) f = some (k, st)) (hc : f.cycle = some n) (hq : AdoptableFrom k st f s) :
    ∃ t, exec (.frameHandlerTake m) s = .next t ∧ t.member.station = .running ∧ t.member.joinTimer = none ∧
      t.tracker = adoptedTracker n (m.tag + span (Block.closeDelayMs s.block * 1000)) s.tracker ∧
      t.member.number = s.member.number ∧ t.member.fingerprint = s.member.fingerprint ∧ t.port.config = s.port.config := by
  have hn : NoFlips (s.withNow m.tag) := hS.2.1
  have hw : s.atWork = true := by unfold State.atWork; rw [hj]; rfl
  obtain ⟨u, hu, hhanded⟩ := memberFrame_adopts (s := countAccepted l k st (beginHandling l f (s.withNow m.tag)))
    (by exact hn) (by exact hj) (by exact ho) hc (by exact hq)
  have hadopt := adoptFirst_sound n (s := u.withMember (runningMember u.member)) (by exact hu.noFlips)
  have hv : NoFlips (adoptFirst n (u.withMember (runningMember u.member))) := by rw [hadopt]; exact hu.noFlips
  have hcalm := handToBlocks_calm k st f _ (Calm.refl hv)
  have hmember : (handToBlocks k st f (adoptFirst n (u.withMember (runningMember u.member)))).member = runningMember u.member := by
    rw [handToBlocks_member k st f hv, hadopt]
    rfl
  have hsettle : (u.withMember (runningMember u.member)).now + closeDelay (u.withMember (runningMember u.member)) =
      m.tag + span (Block.closeDelayMs s.block * 1000) := by
    have hnow : u.now = m.tag := hu.now.trans (withNow_now s m.tag)
    change u.now + span (Block.closeDelayMs u.block * 1000) = _
    rw [hnow, hu.block]
    rfl
  obtain ⟨_, htracker, _, hnumber, hprint, hconfig, _⟩ := hu
  refine ⟨_, (exec_frameHandlerTake_accepted hS hw hh ha ho).trans (by rw [hhanded]), ?_⟩
  refine ⟨congrArg (·.station) hmember, congrArg (·.joinTimer) hmember, ?_, (congrArg (·.number) hmember).trans hnumber,
    (congrArg (·.fingerprint) hmember).trans hprint, ?_⟩
  · change (handToBlocks k st f (adoptFirst n (u.withMember (runningMember u.member)))).tracker = _
    rw [hcalm.2.1, hadopt, hsettle, withMember_tracker, htracker]
    rfl
  · change (handToBlocks k st f (adoptFirst n (u.withMember (runningMember u.member)))).port.config = _
    rw [hcalm.2.2.2.2.2.1, hadopt]
    exact hconfig

/-! ## The join timer (R67) -/

/-- The expiry of the join timer is an adoption of cycle number 0 (R67). -/
theorem exec_joinTimerExpiry_due {m : Moment} {s : State} {d : Tag} (hS : Sound m s) (hj : s.member.station = .joining)
    (hd : s.member.joinTimer = some d) (hr : reached m.tag d = true) :
    exec (.joinTimerExpiry m) s = .next (adoptFirst 0 ((s.withNow m.tag).withMember (runningMember s.member))) := by
  have hdue : joinDue (s.withNow m.tag) = true := by
    unfold joinDue
    simp [hj, hd, due, hr]
  rw [exec_joinTimerExpiry_quiet m s hS.noFaultToFind, if_pos hdue, joinAdopt_sound 0 (by exact hS.2.1)]
  rfl

/-- Settles O30: a qualifying frame and the join timer's expiry are both an adoption, whose tracker is `adoptedTracker`. -/
theorem joiningStationAdoptsNumber : Obligations.JoiningStationAdoptsNumber := by
  unfold Obligations.JoiningStationAdoptsNumber
  constructor
  · intro m s l f k st n hS hj hh ho ha hc hq
    obtain ⟨t, ht, hrunning, htimer, htracker, hrest⟩ := frameHandlerTake_adopts hS hj hh ho ha hc hq
    refine ⟨t, ht, hrunning, htimer, fun hi => ?_, fun hr => ?_, fun hi hr => ?_, hrest⟩
    · rw [htracker, adoptedTracker_idle _ _ hi]
    · rw [htracker, adoptedTracker_ret _ _ hr]
    · rw [htracker, adoptedTracker_between _ _ hi hr]
  · intro m s d hS hj hd hr
    have hsettle : ((s.withNow m.tag).withMember (runningMember s.member)).now +
        closeDelay ((s.withNow m.tag).withMember (runningMember s.member)) =
          m.tag + span (Block.closeDelayMs s.block * 1000) := by
      change (s.withNow m.tag).now + span (Block.closeDelayMs s.block * 1000) = _
      rw [withNow_now]
    refine ⟨_, exec_joinTimerExpiry_due hS hj hd hr, ?_⟩
    rw [adoptFirst_sound 0 (by exact hS.2.1), hsettle]
    refine ⟨rfl, fun hi => ?_, fun hi => ?_⟩
    · rw [adoptedTracker_idle _ _ (by exact hi)]
      rfl
    · rw [adoptedTracker_opens _ _ (by exact hi)]
      rfl

end Sys2Proof.Machine
end

section
/-! PROOFS. The amplitude scale, saturation, the noise floor, the threshold and its level (R20 to R22). -/

namespace Sys2Proof.Machine

/-! ## The amplitude scale (R20) -/

theorem envelope_bounds (v : Half) : -32768 ≤ v.toInt ∧ v.toInt ≤ 32767 := by
  have hlow := BitVec.le_toInt v
  have hhigh := BitVec.toInt_lt (x := v)
  norm_num at hlow hhigh
  omega

/-- The envelope is the sample's magnitude (R20). -/
theorem envelope_magnitude (v : Half) : envelope v ≤ 32768 ∧ (v.toInt = envelope v ∨ v.toInt = -(envelope v : Int)) := by
  obtain ⟨hlow, hhigh⟩ := envelope_bounds v
  unfold envelope
  omega

theorem isSaturated_envelope_iff (v : Half) :
    isSaturated (envelope v) = true ↔ v.toInt = 32767 ∨ v.toInt = -32767 ∨ v.toInt = -32768 := by
  obtain ⟨hlow, hhigh⟩ := envelope_bounds v
  unfold isSaturated envelope
  rw [decide_eq_true_iff]
  omega

theorem amplitudeOfRatio_le (num den : Nat) : amplitudeOfRatio num den ≤ 90 :=
  (List.length_filter_le _ _).trans (by rw [List.length_range])

/-- From ratio 1 on, ten to the amplitude is at most the ratio's twentieth power. -/
theorem pow_amplitudeOfRatio_le {num den : Nat} (h : den ≤ num) : 10 ^ amplitudeOfRatio num den * den ^ 20 ≤ num ^ 20 := by
  have hle := amplitudeOfRatio_le num den
  cases ha : amplitudeOfRatio num den with
  | zero => simpa using Nat.pow_le_pow_left h 20
  | succ a => exact (lt_amplitudeOfRatio_iff num den a (by omega)).mp (by omega)

/-- Below the end of the scale, ten to the next step is more than the ratio's twentieth power. -/
theorem lt_pow_amplitudeOfRatio {num den : Nat} (h : amplitudeOfRatio num den < 90) :
    num ^ 20 < 10 ^ (amplitudeOfRatio num den + 1) * den ^ 20 := by
  rw [← not_le, ← lt_amplitudeOfRatio_iff num den _ h]
  exact lt_irrefl _

/-- Below ratio 1 the amplitude is 0. -/
theorem amplitudeOfRatio_below {num den : Nat} (h : num < den) : amplitudeOfRatio num den = 0 := by
  by_contra hpos
  have hstep : 10 ^ (0 + 1) * den ^ 20 ≤ num ^ 20 := (lt_amplitudeOfRatio_iff num den 0 (by decide)).mp (Nat.pos_of_ne_zero hpos)
  have hpow : num ^ 20 < den ^ 20 := Nat.pow_lt_pow_left h (by decide)
  omega

/-- A step of the scale is reached exactly when ten to it is at most the envelope's twentieth power (R20). -/
theorem le_amplitude_iff {th : Nat} (h1 : 1 ≤ th) (h90 : th ≤ 90) (e : Nat) : th ≤ amplitude e ↔ 10 ^ th ≤ e ^ 20 := by
  obtain ⟨a, rfl⟩ : ∃ a, th = a + 1 := ⟨th - 1, by omega⟩
  have hiff := lt_amplitudeOfRatio_iff e 1 a (by omega)
  rwa [one_pow, mul_one] at hiff

/-- A higher envelope has no lower amplitude. -/
theorem le_amplitude_of_le {th e e' : Nat} (h1 : 1 ≤ th) (h90 : th ≤ 90) (he : e ≤ e') (h : th ≤ amplitude e) :
    th ≤ amplitude e' := by
  rw [le_amplitude_iff h1 h90] at h ⊢
  exact h.trans (Nat.pow_le_pow_left he 20)

/-- The amplitude of an envelope that a sample can have is within its logarithm's bounds (R20). -/
theorem amplitude_bounds {e : Nat} (h1 : 1 ≤ e) (h : e ≤ 32768) :
    amplitude e ≤ 90 ∧ 10 ^ amplitude e ≤ e ^ 20 ∧ e ^ 20 < 10 ^ (amplitude e + 1) := by
  have hle : amplitude e ≤ 90 := amplitudeOfRatio_le e 1
  have hlow : 10 ^ amplitude e * 1 ^ 20 ≤ e ^ 20 := pow_amplitudeOfRatio_le h1
  refine ⟨hle, by rwa [one_pow, mul_one] at hlow, ?_⟩
  rcases hle.lt_or_eq with hlt | heq
  · have hhigh : e ^ 20 < 10 ^ (amplitude e + 1) * 1 ^ 20 := lt_pow_amplitudeOfRatio hlt
    rwa [one_pow, mul_one] at hhigh
  · rw [heq]
    calc e ^ 20 ≤ 32768 ^ 20 := Nat.pow_le_pow_left h 20
      _ < 10 ^ (90 + 1) := by norm_num

/-! ## The threshold level (R22) -/

/-- The steps of the search for a level below `2 ^ k`, the widest first. -/
def searchSteps : Nat → List Nat
  | 0 => []
  | k + 1 => 2 ^ k :: searchSteps k

/-- The search ends at the last envelope below the threshold, if it starts below the threshold and ends its range above. -/
theorem levelSearch_ends {th : Nat} (k : Nat) {lo : Nat} (hlo : amplitude lo < th) (hhi : th ≤ amplitude (lo + 2 ^ k)) :
    amplitude ((searchSteps k).foldl (levelStep th) lo) < th ∧ th ≤ amplitude ((searchSteps k).foldl (levelStep th) lo + 1) := by
  induction k generalizing lo with
  | zero => exact ⟨hlo, hhi⟩
  | succ k ih =>
    rw [searchSteps, List.foldl_cons]
    unfold levelStep
    split
    next hbelow => exact ih hbelow (by rwa [add_assoc, ← two_mul, ← pow_succ'])
    next hreached => exact ih hlo (not_lt.mp hreached)

/-- The threshold level is the smallest envelope whose amplitude reaches the threshold (R22). -/
theorem thresholdLevel_least {th : Nat} (h1 : 1 ≤ th) (h90 : th ≤ 90) :
    th ≤ amplitude (thresholdLevel th) ∧ ∀ e, e < thresholdLevel th → amplitude e < th := by
  have hstart : amplitude 0 < th := by
    rw [← not_le, le_amplitude_iff h1 h90, zero_pow (by decide), not_le]
    exact Nat.pow_pos (by decide)
  have hend : th ≤ amplitude (0 + 2 ^ 16) := by
    rw [le_amplitude_iff h1 h90]
    calc 10 ^ th ≤ 10 ^ 90 := Nat.pow_le_pow_right (by decide) h90
      _ ≤ (0 + 2 ^ 16) ^ 20 := by norm_num
  obtain ⟨hbelow, hreached⟩ := levelSearch_ends 16 hstart hend
  have hlevel : thresholdLevel th = (searchSteps 16).foldl (levelStep th) 0 + 1 := rfl
  rw [hlevel]
  exact ⟨hreached, fun e he => not_le.mp fun hr => not_le.mpr hbelow (le_amplitude_of_le h1 h90 (by omega) hr)⟩

/-! ## The noise floor and the threshold (R21, R22) -/

theorem noiseFloor_short {w : List Nat} (h : w.length < 32000) : noiseFloor w = none := if_pos h

theorem noiseFloor_full {w : List Nat} (h : 32000 ≤ w.length) : noiseFloor w = some (amplitudeOfRatio w.sum w.length) :=
  if_neg (not_lt.mpr h)

theorem threshold_unset {s : State} {u : ChannelUnit} (h : noiseFloor u.floorWindow = none) :
    s.threshold u = Block.absolute s.block (phaseCode s.tracker.phase) := by
  unfold State.threshold
  rw [h]

theorem threshold_set {s : State} {u : ChannelUnit} {f : Nat} (h : noiseFloor u.floorWindow = some f) :
    s.threshold u = max (Block.absolute s.block (phaseCode s.tracker.phase))
      (f + Block.margin s.block (phaseCode s.tracker.phase)) := by
  unfold State.threshold
  rw [h]

/-- Settles O13: the scale's steps are the bounds of `lt_amplitudeOfRatio_iff`, and the level's search is a halving over them. -/
theorem amplitudeAndThreshold : Obligations.AmplitudeAndThreshold := by
  refine ⟨⟨envelope_magnitude, rfl, fun _ => amplitude_bounds, isSaturated_envelope_iff⟩,
    ⟨fun _ => noiseFloor_short, fun w hw => ⟨_, noiseFloor_full hw, amplitudeOfRatio_le _ _, amplitudeOfRatio_below, fun hmean =>
      ⟨pow_amplitudeOfRatio_le hmean, ?_⟩⟩, fun _ _ => threshold_unset, fun _ _ _ => threshold_set⟩,
    fun _ => thresholdLevel_least⟩
  exact (amplitudeOfRatio_le w.sum w.length).eq_or_lt.imp_right lt_pow_amplitudeOfRatio

end Sys2Proof.Machine
end

section
/-! PROOFS. Samples with sound stores: a sample that is only noted, one that opens a hit, one that moves an open hit's measures, one
that ends it and where its record goes (R20 to R31, R79, R80, R155). -/

namespace Sys2Proof.Machine

/-! ## One channel written twice -/

theorem Four.set_set {α : Type} (f : Four α) (i : Channel) (a b : α) : (f.set i a).set i b = f.set i b := by cases i <;> rfl

theorem setUnit_setUnit (s : State) (c : Channel) (u v : ChannelUnit) : (s.setUnit c u).setUnit c v = s.setUnit c v := by
  unfold State.setUnit
  rw [withChannels_channels, Four.set_set]
  rfl

/-! ## What a sample comes to -/

/-- The station with a sample entered in its channel's watch and floor window (R21, R33). -/
def noted (c : Channel) (env : Nat) (s : State) : State := s.setUnit c (noteSample s.now env (s.channels.units.get c))

@[simp] theorem noted_unit (c : Channel) (env : Nat) (s : State) :
    (noted c env s).channels.units.get c = noteSample s.now env (s.channels.units.get c) := Four.get_set _ _ _

/-- At a command's moment. -/
theorem noted_at (c : Channel) (env : Nat) (s : State) (tag : Tag) : noted c env (s.withNow tag) =
    (s.withNow tag).setUnit c (noteSample tag env (s.channels.units.get c)) := by
  unfold noted
  rw [withNow_now]
  rfl

theorem noted_now (c : Channel) (env : Nat) (s : State) (tag : Tag) : (noted c env (s.withNow tag)).now = tag := withNow_now s tag

/-- No sample of a hit is a floor sample (R21). -/
theorem noteSample_inHit (now : Tag) (env : Nat) {u : ChannelUnit} (h : u.state = .inHit) :
    noteSample now env u = { u with watch := watchSample now u.watch } := by
  have hfloor : isFloorSample u = false := by simp [isFloorSample, h]
  unfold noteSample
  rw [hfloor]
  rfl

theorem sampleStep_quiet {s : State} {c : Channel} (hn : NoFlips s) (env : Nat) (h : (s.channels.units.get c).state = .quiet) :
    sampleStep c env s = quietSample c env (noted c env s) := by
  unfold sampleStep
  dsimp only
  rw [h]
  exact usingConfig_sound (s := noted c env s) hn _ _

theorem sampleStep_inHit {s : State} {c : Channel} {o : OpenHit} (hn : NoFlips s) (env : Nat)
    (h : (s.channels.units.get c).state = .inHit) (ho : (s.channels.units.get c).openHit = some o) :
    sampleStep c env s = hitSample c env o (noted c env s) := by
  unfold sampleStep
  dsimp only
  rw [h, ho]
  exact usingConfig_sound (s := noted c env s) hn _ _

theorem sampleStep_other {s : State} {c : Channel} (env : Nat) (hq : (s.channels.units.get c).state ≠ .quiet)
    (hi : (s.channels.units.get c).state ≠ .inHit) : sampleStep c env s = noted c env s := by
  unfold sampleStep
  dsimp only
  split
  next h => exact absurd h hq
  next h _ => exact absurd h hi
  next => rfl

/-- A sample of a station at work is taken (R19). -/
theorem exec_sample_atWork {m : Moment} {s : State} (h : Sound m s) (hw : s.atWork = true) (c : Channel) (v : Half) :
    exec (.sample m c v) s = .next (sampleStep c (envelope v) (s.withNow m.tag)) := by
  rw [exec_sample_quiet m c v s h.noFaultToFind]
  exact congrArg _ (if_pos hw)

/-! ## The start of a hit (R25, R79, R155) -/

theorem mem_insertEntry (e : HitEntry) (w : List HitEntry) : e ∈ insertEntry e w := by
  induction w with
  | nil => exact List.mem_singleton_self e
  | cons a w ih =>
    unfold insertEntry
    split
    next => exact List.mem_cons_self
    next => exact List.mem_cons_of_mem a ih

/-- An own hit is offered to the Hit Window, whose check finds nothing (R79). -/
theorem enterOwnHit_sound {s : State} (hn : NoFlips s) (hs : s.member.station ≠ .frozen) (c : Channel) (arrival : Tag) (phase : Phase) :
    enterOwnHit c arrival phase s = s.withCoin (if 64 ≤ s.coin.window.length then
        { s.coin with counts := { s.coin.counts with overflow := raised s.coin.counts.overflow } }
      else { s.coin with window := insertEntry ⟨ownHitId s c arrival, arrival, phase, none, true⟩ s.coin.window }) := by
  unfold enterOwnHit
  rw [readWindow_sound hn, unlessFrozen_live hs]
  unfold offerOwnHit
  rw [hitEntered_sound (by exact hn)]
  unfold windowCapacity
  split <;> rfl

/-- A hit `h` has started on channel `c` (R25). -/
structure HitStarted (c : Channel) (h : OpenHit) (s t : State) : Prop where
  units : t.channels.units = s.channels.units.set c { s.channels.units.get c with state := .inHit, openHit := some h }
  detected : t.channels.detected = if h.kind = .capture then s.channels.detected else raised s.channels.detected
  queue : t.channels.queue = s.channels.queue
  lost : t.channels.lost = s.channels.lost
  entered : h.kind = .own → s.coin.window.length < 64 → ⟨ownHitId s c h.arrival, h.arrival, h.phase, none, true⟩ ∈ t.coin.window
  overflow : h.kind = .own → 64 ≤ s.coin.window.length →
    t.coin.window = s.coin.window ∧ t.coin.counts.overflow = raised s.coin.counts.overflow
  coin : h.kind ≠ .own → t.coin = s.coin
  captured : ∀ w, h.kind = .capture → s.coup.window = some w → t.coup = { s.coup with
    window := some { w with captures := if w.captures.get c = .none then w.captures.set c (.started s.now) else w.captures } }
  coup : h.kind ≠ .capture → t.coup = s.coup
  rest : t.tracker = s.tracker ∧ t.link = s.link ∧ t.member = s.member ∧ t.evid = s.evid ∧ t.agree = s.agree ∧
    t.fault = s.fault ∧ t.port = s.port

/-- A capture is kept by the Coupling Unit alone (R155). -/
theorem keepCapture_coup (c : Channel) (s : State) : keepCapture c s = s.withCoup (keepCapture c s).coup := by
  unfold keepCapture
  split
  next => split <;> rfl
  next => rfl

theorem keepCapture_window {s : State} {w : PulseWindow} (hw : s.coup.window = some w) (c : Channel) : (keepCapture c s).coup =
    { s.coup with window := some { w with
      captures := if w.captures.get c = .none then w.captures.set c (.started s.now) else w.captures } } := by
  unfold keepCapture
  rw [hw]
  dsimp only
  split
  next => rfl
  next => rw [← hw]

theorem startHit_started (c : Channel) (h : OpenHit) {s : State} (hn : NoFlips s) (hs : s.member.station ≠ .frozen) :
    HitStarted c h s (startHit c h s) := by
  unfold startHit
  cases hk : h.kind with
  | capture =>
    dsimp only
    rw [keepCapture_coup]
    exact {
      units := rfl, detected := by rw [hk]; rfl, queue := rfl, lost := rfl, coin := fun _ => rfl
      entered := fun ho => by rw [hk] at ho; cases ho
      overflow := fun ho => by rw [hk] at ho; cases ho
      captured := fun w _ hw => keepCapture_window (by exact hw) c
      coup := fun ho => absurd hk ho
      rest := ⟨rfl, rfl, rfl, rfl, rfl, rfl, rfl⟩ }
  | own =>
    dsimp only
    rw [enterOwnHit_sound (by exact hn) (by exact hs)]
    exact {
      units := rfl, detected := by rw [hk]; rfl, queue := rfl, lost := rfl, coin := fun ho => absurd hk ho
      entered := fun _ hl => by
        rw [if_neg (by exact not_le.mpr hl)]
        exact mem_insertEntry _ _
      overflow := fun _ hl => by
        rw [if_pos (by exact hl)]
        exact ⟨rfl, rfl⟩
      captured := fun w ho => by rw [hk] at ho; cases ho
      coup := fun _ => rfl
      rest := ⟨rfl, rfl, rfl, rfl, rfl, rfl, rfl⟩ }
  | localHit =>
    exact {
      units := rfl, detected := by rw [hk]; rfl, queue := rfl, lost := rfl, coin := fun _ => rfl
      entered := fun ho => by rw [hk] at ho; cases ho
      overflow := fun ho => by rw [hk] at ho; cases ho
      captured := fun w ho => by rw [hk] at ho; cases ho
      coup := fun _ => rfl
      rest := ⟨rfl, rfl, rfl, rfl, rfl, rfl, rfl⟩ }

/-- A hit is a capture exactly in an OPEN pulse window (R25). -/
theorem hitKindNow_capture_iff (s : State) : hitKindNow s = .capture ↔ s.windowOpen = true := by
  unfold hitKindNow
  split
  next h => simp [h]
  next h => split <;> simp [h]

/-- A sample in QUIET at or above the threshold starts a hit (R22, R25). -/
theorem quietSample_reached {s : State} {c : Channel} {env : Nat} (h : s.threshold (s.channels.units.get c) ≤ amplitude env) :
    quietSample c env s = startHit c (newHit s env (s.threshold (s.channels.units.get c))) s := if_pos h

/-- One below it starts none. -/
theorem quietSample_below {s : State} {c : Channel} {env : Nat} (h : amplitude env < s.threshold (s.channels.units.get c)) :
    quietSample c env s = s := if_neg (not_le.mpr h)

/-- The hit that a sample at `tag` opens (R25 to R27). -/
theorem newHit_noted (c : Channel) (env threshold : Nat) (s : State) (tag : Tag) :
    newHit (noted c env (s.withNow tag)) env threshold =
      { kind := hitKindNow s, arrival := tag, phase := s.tracker.phase, threshold := threshold
        level := thresholdLevel threshold, peak := amplitude env, peakTag := tag, crossings := 1, lastCrossing := tag
        below := false, energySum := env - thresholdLevel threshold, saturated := isSaturated env, cycleGone := false } := by
  unfold newHit
  rw [noted_now]
  rfl

/-- A sample that reaches the threshold of its QUIET channel, itself in the floor window, starts a hit. -/
theorem exec_sample_starts {m : Moment} {s : State} {ch : Channel} {v : Half} (hS : Sound m s) (hw : s.atWork = true)
    (hq : (s.channels.units.get ch).state = .quiet)
    (hth : s.threshold (noteSample m.tag (envelope v) (s.channels.units.get ch)) ≤ amplitude (envelope v)) :
    ∃ t, exec (.sample m ch v) s = .next t ∧
      HitStarted ch (newHit (noted ch (envelope v) (s.withNow m.tag)) (envelope v)
        (s.threshold (noteSample m.tag (envelope v) (s.channels.units.get ch)))) (noted ch (envelope v) (s.withNow m.tag)) t := by
  have hthreshold : (noted ch (envelope v) (s.withNow m.tag)).threshold
      ((noted ch (envelope v) (s.withNow m.tag)).channels.units.get ch) =
        s.threshold (noteSample m.tag (envelope v) (s.channels.units.get ch)) := by
    rw [noted_unit, withNow_now]
    rfl
  refine ⟨_, ?_, startHit_started ch _ hS.noFlips (atWork_not_frozen hw)⟩
  rw [exec_sample_atWork hS hw, sampleStep_quiet (s := s.withNow m.tag) hS.noFlips _ hq,
    quietSample_reached (by rwa [hthreshold]), hthreshold]

/-- Settles O14: the step starts a hit on the station with the sample noted, and `HitStarted` says what that changes. -/
theorem sampleAtThresholdOpensHit : Obligations.SampleAtThresholdOpensHit := by
  intro m s ch v hS hw hq hth
  obtain ⟨t, ht, hstart⟩ := exec_sample_starts hS hw hq hth
  rw [newHit_noted] at hstart
  obtain ⟨hunits, hdetected, hqueue, hlost, hentered, hoverflow, hcoin, hcaptured, hcoup, hrest⟩ := hstart
  refine ⟨t, _, ht, by rw [hunits, Four.get_set], by rw [hunits, Four.get_set], rfl, rfl, rfl, rfl, rfl, rfl, rfl, rfl, rfl, rfl, rfl, rfl,
    rfl, ?_, hentered, hoverflow, hcoin, fun w hk hwin => ?_, hcoup, fun d hd => ?_, hqueue, hlost, hrest⟩
  · rw [hdetected]
    exact if_congr (hitKindNow_capture_iff s) rfl rfl
  · rw [hcaptured w hk hwin, noted_now]
    rfl
  · rw [hunits, Four.get_set_ne _ _ hd]
    exact Four.get_set_ne _ _ hd

/-! ## A sample in no hit, and one that does not end its hit (R21, R26, R27) -/

/-- A sample of a hit enters its channel's watch alone. -/
theorem noted_inHit {s : State} {c : Channel} (env : Nat) (tag : Tag) (h : (s.channels.units.get c).state = .inHit) :
    noted c env (s.withNow tag) = (s.withNow tag).setUnit c
      { s.channels.units.get c with watch := watchSample tag (s.channels.units.get c).watch } := by
  rw [noted_at, noteSample_inHit _ _ h]

/-- A hit ends at the cap, or at a sample below its threshold once HDT has passed since the last crossing (R28). -/
theorem endsHit_iff (env : Nat) (h : OpenHit) (s : State) : endsHit env h s = true ↔
    Block.hitCapMs s.block * 1000 ≤ elapsed s.now h.arrival ∨
      (amplitude env < h.threshold ∧ Block.hdt s.block ≤ elapsed s.now h.lastCrossing) := by
  unfold endsHit capEnd quietEnd
  rw [Bool.or_eq_true, Bool.and_eq_true, decide_eq_true_iff, decide_eq_true_iff, decide_eq_true_iff]

/-- A sample that does not end the hit moves its measures (R26, R27). -/
theorem hitSample_measures {s : State} {c : Channel} {env : Nat} {h : OpenHit} (he : ¬ endsHit env h s = true) : hitSample c env h s =
    s.setUnit c { s.channels.units.get c with openHit := some (measureSample (Block.pdt s.block) s.now env h) } := if_neg he

theorem hitSample_ends {s : State} {c : Channel} {env : Nat} {h : OpenHit} (he : endsHit env h s = true) : hitSample c env h s =
    endHit c (capEnd (Block.hitCapMs s.block) s.now h) h s := if_pos he

/-- A sample of an open hit comes to `hitSample` on the station with the sample noted. -/
theorem exec_sample_inHit {m : Moment} {s : State} {ch : Channel} {h : OpenHit} (hS : Sound m s) (hw : s.atWork = true)
    (hi : (s.channels.units.get ch).state = .inHit) (ho : (s.channels.units.get ch).openHit = some h) (v : Half) :
    exec (.sample m ch v) s = .next (hitSample ch (envelope v) h (noted ch (envelope v) (s.withNow m.tag))) := by
  rw [exec_sample_atWork hS hw, sampleStep_inHit (s := s.withNow m.tag) hS.noFlips _ hi ho]

/-- A sample below the threshold in QUIET, or on a channel that neither listens nor is in a hit, is noted and nothing else. -/
theorem exec_sample_noted {m : Moment} {s : State} {ch : Channel} {v : Half} (hS : Sound m s) (hw : s.atWork = true)
    (hout : ((s.channels.units.get ch).state = .quiet ∧
        amplitude (envelope v) < s.threshold (noteSample m.tag (envelope v) (s.channels.units.get ch))) ∨
      ((s.channels.units.get ch).state ≠ .quiet ∧ (s.channels.units.get ch).state ≠ .inHit)) :
    exec (.sample m ch v) s = .next (noted ch (envelope v) (s.withNow m.tag)) := by
  rw [exec_sample_atWork hS hw]
  rcases hout with ⟨hq, hbelow⟩ | ⟨hq, hi⟩
  · rw [sampleStep_quiet (s := s.withNow m.tag) hS.noFlips _ hq, quietSample_below]
    rw [noted_unit, withNow_now]
    exact hbelow
  · rw [sampleStep_other (s := s.withNow m.tag) _ hq hi]

/-- Settles O15: outside a hit the step is `noted`; within one, before its end, it is `measureSample` on the open hit. -/
theorem samplesNotedAndMeasured : Obligations.SamplesNotedAndMeasured := by
  refine ⟨fun m s ch v hS hw hout => ?_, fun m s ch v h hS hw hi ho hcap hquiet => ?_⟩
  · rw [exec_sample_noted hS hw hout, noted_at]
    rfl
  · have hgoes : ¬ endsHit (envelope v) h (noted ch (envelope v) (s.withNow m.tag)) = true := by
      rw [endsHit_iff, noted_now]
      rintro (hend | ⟨hbelow, hend⟩)
      · exact absurd hcap (not_lt.mpr hend)
      · exact hquiet.elim (not_le.mpr hbelow) (not_lt.mpr hend)
    refine ⟨measureSample (Block.pdt s.block) m.tag (envelope v) h, ?_, rfl, fun ht hp => ?_, fun hp => ?_, fun hb ht => ?_, fun hb => ?_,
      ?_, rfl, rfl⟩
    · rw [exec_sample_inHit hS hw hi ho, hitSample_measures hgoes, noted_now, noted_inHit _ _ hi, setUnit_setUnit]
      simp only [setUnit_channels, Four.get_set]
      rfl
    · simp [measureSample, ht, hp]
    · have hhigher : (decide (elapsed m.tag h.arrival ≤ Block.pdt s.block) && decide (h.peak < amplitude (envelope v))) = false := by
        rw [Bool.and_eq_false_iff, decide_eq_false_iff_not, decide_eq_false_iff_not, not_le, not_lt]
        exact hp
      simp [measureSample, hhigher]
    · simp [measureSample, hb, ht, crossingLimit]
    · have hcrossing : (decide (h.threshold ≤ amplitude (envelope v)) && h.below) = false := by
        rw [Bool.and_eq_false_iff, decide_eq_false_iff_not, not_le]
        exact hb.symm
      simp [measureSample, hcrossing]
    · simp [measureSample]

/-! ## The end of a hit (R28 to R31) -/

/-- The station as an ended hit leaves its channel (R30). -/
def lockedOut (c : Channel) (s : State) : State :=
  s.setUnit c { s.channels.units.get c with
    state := .lockout, openHit := none, lockout := some (s.now + span (Block.hlt s.block)) }

theorem endHit_eq (c : Channel) (long : Bool) (h : OpenHit) (s : State) :
    endHit c long h s = completeHit c h (hitFeatures long h) (lockedOut c s) := rfl

/-- A sample that ends its hit: the channel is in LOCKOUT, and the complete hit is handed on (R28 to R30). -/
theorem exec_sample_ends {m : Moment} {s : State} {ch : Channel} {v : Half} {h : OpenHit} (hS : Sound m s) (hw : s.atWork = true)
    (hi : (s.channels.units.get ch).state = .inHit) (ho : (s.channels.units.get ch).openHit = some h)
    (hend : Block.hitCapMs s.block * 1000 ≤ elapsed m.tag h.arrival ∨
      (amplitude (envelope v) < h.threshold ∧ Block.hdt s.block ≤ elapsed m.tag h.lastCrossing)) :
    exec (.sample m ch v) s = .next (completeHit ch h (hitFeatures (decide (Block.hitCapMs s.block * 1000 ≤ elapsed m.tag h.arrival)) h)
      ((s.withNow m.tag).setUnit ch { s.channels.units.get ch with
        watch := watchSample m.tag (s.channels.units.get ch).watch, state := .lockout, openHit := none
        lockout := some (m.tag + span (Block.hlt s.block)) })) := by
  have hends : endsHit (envelope v) h (noted ch (envelope v) (s.withNow m.tag)) = true := by
    rw [endsHit_iff, noted_now]
    exact hend
  have hlocked : lockedOut ch (noted ch (envelope v) (s.withNow m.tag)) = (s.withNow m.tag).setUnit ch { s.channels.units.get ch with
      watch := watchSample m.tag (s.channels.units.get ch).watch, state := .lockout, openHit := none
      lockout := some (m.tag + span (Block.hlt s.block)) } := by
    unfold lockedOut
    rw [noted_now, noted_inHit _ _ hi, setUnit_setUnit]
    simp only [setUnit_channels, Four.get_set]
    rfl
  rw [exec_sample_inHit hS hw hi ho, hitSample_ends hends, endHit_eq, hlocked, noted_now]
  rfl

/-- A window that is not in JUDGING is not judged (R156). -/
theorem judgeIfReady_waits {s : State} (h : NoJudging s) : judgeIfReady s = s := by
  unfold judgeIfReady
  split
  next w hw =>
    have hstage : judgeable s w = false := by simp [judgeable, h w hw]
    rw [hstage, Bool.and_false]
    rfl
  next => rfl

/-- The capture of a window that is settled is the kept one (R155). -/
theorem settleCapture_kept {s : State} {w : PulseWindow} {c : Channel} {arrival : Tag} (hw : s.coup.window = some w)
    (hc : w.captures.get c = .started arrival) (new : Capture) : settleCapture c arrival new s =
      s.withCoup { s.coup with window := some { w with captures := w.captures.set c new } } := by
  unfold settleCapture
  rw [hw]
  exact if_pos hc

theorem settleCapture_noWindow {s : State} (hw : s.coup.window = none) (c : Channel) (arrival : Tag) (new : Capture) :
    settleCapture c arrival new s = s := by
  unfold settleCapture
  rw [hw]

theorem completeHit_local {h : OpenHit} (hk : h.kind = .localHit) (c : Channel) (f : Features) (s : State) : completeHit c h f s = s := by
  unfold completeHit
  rw [hk]

theorem completeHit_capture {h : OpenHit} (hk : h.kind = .capture) (c : Channel) (f : Features) (s : State) :
    completeHit c h f s = judgeIfReady (settleCapture c h.arrival (.peaked f.peak) s) := by
  unfold completeHit
  rw [hk]

/-- The record of an own hit joins the Own Hit Queue unless its cycle has closed (R29, R31). -/
theorem completeHit_own {h : OpenHit} (hk : h.kind = .own) (c : Channel) (f : Features) (s : State) : completeHit c h f s =
    if h.cycleGone then fillFeatures (ownHitId s c h.arrival) f s
    else appendOwnHit c h f (fillFeatures (ownHitId s c h.arrival) f s) := by
  unfold completeHit
  rw [hk]

/-- An entry that is removed may as well have had its features filled in first. -/
theorem filter_filled (id : HitId) (f : Features) (w : List HitEntry) :
    (w.map fun e => if e.id = id then { e with features := some f } else e).filter (fun e => e.id != id) =
      w.filter fun e => e.id != id := by
  induction w with
  | nil => rfl
  | cons e w ih =>
    rw [List.map_cons, List.filter_cons, List.filter_cons, ih]
    by_cases he : e.id = id <;> simp [he]

/-- The record of a complete own hit (2.4). -/
def ownRecordOf (c : Channel) (h : OpenHit) (f : Features) (s : State) : HitRecord := ⟨s.ownNo, chNo c, h.arrival, h.phase, f⟩

/-- The Own Hit Queue with room: the record joins it, and the next frame is selected (R31, R48). -/
theorem appendOwnHit_joins {s : State} (hn : NoFlips s) (hl : s.channels.queue.length < 16) (c : Channel) (h : OpenHit) (f : Features) :
    appendOwnHit c h f s =
      selectFrame (s.withChannels { s.channels with queue := s.channels.queue ++ [⟨ownRecordOf c h f s, s.now⟩] }) := by
  unfold appendOwnHit
  rw [if_pos (by exact hl), selectNext_sound (by exact hn)]
  rfl

/-- The Own Hit Queue full: the record is lost and its entry removed (R31, R80). -/
theorem appendOwnHit_full {s : State} (hn : NoFlips s) (hl : 16 ≤ s.channels.queue.length) (c : Channel) (h : OpenHit) (f : Features) :
    appendOwnHit c h f s = (s.withChannels { s.channels with lost := raised s.channels.lost }).withCoin
      { s.coin with window := s.coin.window.filter fun e => e.id != ownHitId s c h.arrival } := by
  unfold appendOwnHit
  rw [if_neg (by exact not_lt.mpr hl), requestRemoval_sound (by exact hn)]
  rfl

/-- The features filled in before the queue was found full go with their entry. -/
theorem appendOwnHit_filled_full {s : State} (hn : NoFlips s) (hl : 16 ≤ s.channels.queue.length) (c : Channel) (h : OpenHit)
    (f : Features) : appendOwnHit c h f (fillFeatures (ownHitId s c h.arrival) f s) =
      (s.withChannels { s.channels with lost := raised s.channels.lost }).withCoin
        { s.coin with window := s.coin.window.filter fun e => e.id != ownHitId s c h.arrival } :=
  (appendOwnHit_full (by exact hn) (by exact hl) c h f).trans
    (congrArg (fun w => (s.withChannels { s.channels with lost := raised s.channels.lost }).withCoin { s.coin with window := w })
      (filter_filled (ownHitId s c h.arrival) f s.coin.window))

/-- A current frame keeps the next from being selected (R48). -/
theorem selectFrame_busy {s : State} (h : s.link.current.isSome = true) : selectFrame s = s := if_pos h

/-- With nothing else to send, the one record waiting becomes the current HIT frame (R48). -/
theorem selectFrame_hit {s : State} {q : QueuedHit} (hc : s.link.current = none) (hl : s.link.queue = []) (hq : s.channels.queue = [q]) :
    selectFrame s = beginFrame none .hit (hitBytes q.hit) (s.withChannels { s.channels with queue := [] }) := by
  have hs : candidates s = [⟨none, frameClass .hit, q.appended⟩] := by
    unfold candidates
    rw [hl, hq]
    rfl
  unfold selectFrame
  rw [hs, bestCandidates_single, hc]
  simp [selectEntry, hq, hitsPerFrame]

/-- Settles O16: the end of a hit is `lockedOut` and then `completeHit`, which each kind of hit takes apart. -/
theorem sampleEndsHit : Obligations.SampleEndsHit := by
  intro m s ch v h u f hS hw hi ho hend hu hf
  have hexec := exec_sample_ends hS hw hi ho hend
  rw [← hu, show hitFeatures (decide (Block.hitCapMs s.block * 1000 ≤ elapsed m.tag h.arrival)) h = f from hf.symm] at hexec
  have hn : NoFlips ((s.withNow m.tag).setUnit ch u) := hS.noFlips
  have hnow : ((s.withNow m.tag).setUnit ch u).now = m.tag := withNow_now s m.tag
  rw [hexec]
  refine ⟨?_, fun w hk hwin hopen hc => ?_, fun hk hg hl hcur => ?_, fun hk hg hl => ?_, fun hk hg => ?_, fun hk hg hcur hlq hq => ?_⟩
  · rintro (hk | ⟨hk, hwin⟩)
    · rw [completeHit_local hk]
      rfl
    · rw [completeHit_capture hk, settleCapture_noWindow (by exact hwin), judgeIfReady_none (by exact hwin)]
      rfl
  · rw [completeHit_capture hk, settleCapture_kept (s := (s.withNow m.tag).setUnit ch u) hwin hc, judgeIfReady_waits, hf]
    · rfl
    · intro w' hw'
      cases hw'
      rw [hopen]
      decide
  · rw [completeHit_own hk, hg, if_neg (by decide), appendOwnHit_joins (by exact hn) (by exact hl), selectFrame_busy (by exact hcur)]
    change Host.Outcome.next (State.withChannels _ { s.channels with
      units := _, queue := s.channels.queue ++ [⟨_, ((s.withNow m.tag).setUnit ch u).now⟩] }) = _
    rw [hnow]
    rfl
  · rw [completeHit_own hk, hg, if_neg (by decide), appendOwnHit_filled_full hn (by exact hl)]
    rfl
  · rw [completeHit_own hk, hg, if_pos rfl]
    rfl
  · have hroom : s.channels.queue.length < 16 := by rw [hq]; decide
    rw [completeHit_own hk, hg, if_neg (by decide), appendOwnHit_joins (by exact hn) (by exact hroom),
      selectFrame_hit (q := ⟨ownRecordOf ch h f s, m.tag⟩) (by exact hcur) (by exact hlq) ?_]
    · exact ⟨_, _, rfl, rfl, rfl, rfl, rfl, rfl, rfl⟩
    · change s.channels.queue ++ [⟨_, ((s.withNow m.tag).setUnit ch u).now⟩] = _
      rw [hq, hnow]
      rfl

end Sys2Proof.Machine
end

section
/-! PROOFS. The lockout's end and the two ends of a pulse (R30, R37, R151, R152, R158), sample loss and recovery (R33 to R35) with sound
stores, and what a judgment that follows leaves alone. -/

namespace Sys2Proof.Machine

/-! ## What a selection and a judgment leave of a channel -/

/-- Nothing has touched channel `c`, put a hit into the Hit Window or changed the table or the agreement. -/
structure Spares (c : Channel) (s t : State) : Prop where
  unit : t.channels.units.get c = s.channels.units.get c
  window : ∀ e ∈ t.coin.window, e ∈ s.coin.window
  evid : t.evid = s.evid
  agree : t.agree = s.agree

theorem Spares.refl (c : Channel) (s : State) : Spares c s s := ⟨rfl, fun _ h => h, rfl, rfl⟩

theorem Spares.trans {c : Channel} {s t u : State} (h : Spares c s t) (k : Spares c t u) : Spares c s u :=
  ⟨k.unit.trans h.unit, fun e he => h.window e (k.window e he), k.evid.trans h.evid, k.agree.trans h.agree⟩

/-- Where the start differs in nothing that is spared. -/
theorem Spares.of_start {c : Channel} {s s' t : State} (k : Spares c s' t) (hu : s'.channels.units = s.channels.units)
    (hw : s'.coin.window = s.coin.window) (he : s'.evid = s.evid) (ha : s'.agree = s.agree) : Spares c s t :=
  ⟨by rw [k.unit, hu], fun e h => hw ▸ k.window e h, k.evid.trans he, k.agree.trans ha⟩

theorem spares_setUnit {c d : Channel} (hd : d ≠ c) (u : ChannelUnit) (s : State) : Spares c s (s.setUnit d u) :=
  { Spares.refl c s with unit := Four.get_set_ne _ _ hd.symm }

/-- A selection changes the current frame and the Own Hit Queue. -/
theorem selectFrame_keeps (s : State) : ∃ link queue count,
    selectFrame s = ((s.withLink link).withChannels { s.channels with queue := queue }).withFreeCount count := by
  have hentry : ∀ (x : Candidate) (t : State), ∃ link queue,
      selectEntry x t = (t.withLink link).withChannels { t.channels with queue := queue } := by
    intro x t
    unfold selectEntry
    split
    next r _ =>
      split
      next d _ => exact ⟨(beginFrame (some r) d.kind d.payload t).link, t.channels.queue, rfl⟩
      next => exact ⟨t.link, t.channels.queue, rfl⟩
    next => exact ⟨_, _, rfl⟩
  unfold selectFrame
  split
  next => exact ⟨s.link, s.channels.queue, s.freeCount, rfl⟩
  next =>
    split
    next => exact ⟨s.link, s.channels.queue, s.freeCount, rfl⟩
    next x _ =>
      obtain ⟨link, queue, hx⟩ := hentry x s
      exact ⟨link, queue, s.freeCount, hx⟩
    next x y xs _ =>
      obtain ⟨link, queue, hx⟩ := hentry ((x :: y :: xs).getD (Config.freeChoice s.freeCount % (x :: y :: xs).length) x)
        (s.withFreeCount (s.freeCount + 1))
      exact ⟨link, queue, s.freeCount + 1, hx⟩

theorem selectFrame_spares (c : Channel) (s : State) : Spares c s (selectFrame s) := by
  obtain ⟨_, _, _, hs⟩ := selectFrame_keeps s
  rw [hs]
  exact ⟨rfl, fun _ h => h, rfl, rfl⟩

/-- A hit that is given up leaves every Channel Unit as it is. -/
theorem discardHit_channels (d : Channel) (hit : Option OpenHit) {s : State} (hn : NoFlips s) :
    (discardHit d hit s).channels = s.channels ∧ (discardHit d hit s).evid = s.evid ∧ (discardHit d hit s).agree = s.agree := by
  unfold discardHit
  split
  next => exact ⟨rfl, rfl, rfl⟩
  next h =>
    split
    next =>
      rw [requestRemoval_sound hn]
      exact ⟨rfl, rfl, rfl⟩
    next =>
      unfold settleCapture
      split
      next => split <;> exact ⟨rfl, rfl, rfl⟩
      next => exact ⟨rfl, rfl, rfl⟩
    next => exact ⟨rfl, rfl, rfl⟩

theorem discardHit_spares (c d : Channel) (hit : Option OpenHit) {s : State} (hn : NoFlips s) : Spares c s (discardHit d hit s) := by
  obtain ⟨hchannels, hevid, hagree⟩ := discardHit_channels d hit hn
  exact ⟨by rw [hchannels], fun _ he => (discardHit_touches d hit hn).window.subset he, hevid, hagree⟩

theorem disableInto_spares {c d : Channel} (hd : d ≠ c) (u : ChannelUnit) {s : State} (hn : NoFlips s) : Spares c s (disableInto d u s) :=
  (spares_setUnit hd u s).trans (discardHit_spares c d _ (by exact hn))

theorem muteChannel_spares {c d : Channel} (hd : d ≠ c) {s : State} (hn : NoFlips s) : Spares c s (muteChannel d s) := by
  unfold muteChannel
  dsimp only
  split
  next => exact Spares.refl c s
  next => exact disableInto_spares hd _ hn

theorem remute_spares {c d : Channel} (hd : d ≠ c) {s : State} (hn : NoFlips s) : Spares c s (remute d s) := by
  unfold remute
  split
  next => exact muteChannel_spares hd hn
  next => exact Spares.refl c s

theorem releaseChannel_spares {c d : Channel} (hd : d ≠ c) {s : State} (hn : NoFlips s) : Spares c s (releaseChannel d s) := by
  cases ha : isArmed (s.channels.units.get d) with
  | false =>
    rw [releaseChannel_unarmed ha]
    exact Spares.refl c s
  | true =>
    rw [releaseChannel_armed hn ha]
    exact (spares_setUnit hd _ s).trans (remute_spares hd (by exact hn))

/-! ## A waiting pulse request (R36, R151) -/

/-- The PULSE descriptor of the request that arms a channel joins the transmit queue, which has room (R36, R46, R151). -/
theorem armChannel_taken {s : State} (hn : NoFlips s) (hl : s.link.queue.length < 12) (d : Channel) : armChannel d s =
    selectFrame (setSlot (.queued s.link.nextRef) (enqueue .pulse (pulseBytes (chNo d))
      (s.setUnit d { s.channels.units.get d with role := .pulse, state := .hush }))) := by
  have hcan : canRequest .pulse (s.setUnit d { s.channels.units.get d with role := .pulse, state := .hush }) = true := by
    simp [canRequest, queueCapacity, hl]
  unfold armChannel
  rw [request_sound _ _ _ _ (by exact hn), if_pos hcan]
  rfl

theorem armChannel_spares {c d : Channel} (hd : d ≠ c) {s : State} (hn : NoFlips s) : Spares c s (armChannel d s) := by
  have hset := spares_setUnit hd { s.channels.units.get d with role := .pulse, state := .hush } s
  unfold armChannel
  rw [request_sound _ _ _ _ (by exact hn)]
  split
  next => exact hset.trans ((selectFrame_spares c _).of_start rfl rfl rfl rfl)
  next =>
    unfold pulseRefused
    exact hset.trans ((releaseChannel_spares hd (by exact hn)).of_start rfl rfl rfl rfl)

/-- An offer in time, of a channel that takes it, arms that channel (R36, R151). -/
theorem reofferPulse_arms {s : State} {tag : Tag} {d : Channel} (hn : NoFlips s) (hs : s.coup.slot = .waiting tag)
    (hl : later s.now (tag + halfSpacing s) = false) (hd : pulseChannel s = some d) (ha : armable (s.channels.units.get d) = true) :
    reofferPulse s = armChannel d s := by
  unfold reofferPulse
  rw [hs]
  dsimp only
  rw [usingConfig_sound hn]
  unfold offerInTime
  rw [hl, if_neg (by decide), usingConfig_sound hn]
  unfold offerPulse
  rw [hd]
  exact if_pos ha

/-- What an offer can do: nothing, or arm the pulse channel, which takes it. -/
theorem reofferPulse_cases {s : State} (hn : NoFlips s) : reofferPulse s = s ∨
    ∃ d, armable (s.channels.units.get d) = true ∧ reofferPulse s = armChannel d s := by
  unfold reofferPulse
  split
  next tag _ =>
    rw [usingConfig_sound hn]
    unfold offerInTime
    split
    next => exact Or.inl rfl
    next =>
      rw [usingConfig_sound hn]
      unfold offerPulse
      split
      next d _ =>
        split
        next ha => exact Or.inr ⟨d, ha, rfl⟩
        next => exact Or.inl rfl
      next => exact Or.inl rfl
  next => exact Or.inl rfl

/-- Whether no request of a judgment and no pulse request is taken by a channel (R36, R38). -/
def Unasked (u : ChannelUnit) : Prop := u.state = .off ∨ u.role = .pulse

theorem Unasked.not_armable {u : ChannelUnit} (h : Unasked u) : armable u = false := by
  rcases h with h | h <;> simp [armable, h]

theorem Unasked.askedUnit_eq {u : ChannelUnit} (h : Unasked u) (listen : Bool) (ask : MuteRequest) : askedUnit listen ask u = u := by
  cases ask with
  | none => rfl
  | mute => exact if_pos h
  | unmute =>
    refine if_neg ?_
    rintro ⟨hr, hs⟩
    rcases h with h | h
    · exact hs h
    · rw [h] at hr
      cases hr

theorem reofferPulse_spares {c : Channel} {s : State} (hn : NoFlips s) (hu : Unasked (s.channels.units.get c)) :
    Spares c s (reofferPulse s) := by
  rcases reofferPulse_cases hn with hr | ⟨d, ha, hr⟩
  · rw [hr]
    exact Spares.refl c s
  · rw [hr]
    refine armChannel_spares (fun hdc => ?_) hn
    rw [hdc, hu.not_armable] at ha
    cases ha

/-! ## A judgment (R156 to R158) -/

theorem askedWindow_subset (ask : MuteRequest) (id : Tag → HitId) (u : ChannelUnit) (w : List HitEntry) :
    ∀ e ∈ askedWindow ask id u w, e ∈ w := by
  intro e he
  unfold askedWindow at he
  split at he
  next =>
    split at he
    next => exact (List.mem_filter.mp he).1
    next => exact he
  next => exact he

theorem sensorJudged_spares {c : Channel} (w : PulseWindow) {s : State} (hu : Unasked (s.channels.units.get c)) (d : Channel) :
    Spares c s (sensorJudged w s d) := by
  unfold sensorJudged
  split
  next =>
    refine ⟨?_, askedWindow_subset _ _ _ _, rfl, rfl⟩
    by_cases hd : c = d
    · subst hd
      exact (Four.get_set _ _ _).trans (hu.askedUnit_eq _ _)
    · exact Four.get_set_ne _ _ hd
  next => exact Spares.refl c s

theorem sensorsJudged_spares {c : Channel} (w : PulseWindow) (ds : List Channel) {s : State} (hu : Unasked (s.channels.units.get c)) :
    Spares c s (ds.foldl (sensorJudged w) s) := by
  induction ds generalizing s with
  | nil => exact Spares.refl c s
  | cons d ds ih =>
    have hd := sensorJudged_spares w hu d
    exact hd.trans (ih (by rw [hd.unit]; exact hu))

theorem windowJudged_spares {c : Channel} (w : PulseWindow) {s : State} (hu : Unasked (s.channels.units.get c)) :
    Spares c s (windowJudged w s) := by
  unfold windowJudged
  exact (sensorsJudged_spares w _ (by exact hu)).of_start rfl rfl rfl rfl

/-- A judgment goes through the own sensors and then offers a waiting pulse request again (R151, R157). -/
theorem judgeWindow_reoffers (w : PulseWindow) {s : State} (hn : NoFlips s) (hs : s.member.station ≠ .frozen) :
    judgeWindow w s = reofferPulse (windowJudged w s) := by
  have hjudged : judgeSensors w channelList (s.withCoup { s.coup with
      window := none, counts := { s.coup.counts with judged := raised s.coup.counts.judged } }) = windowJudged w s :=
    judgeSensors_sound w channelList (by exact hn) (by exact hs) rfl
  have hmember : (windowJudged w s).member = s.member := (sensorsJudged_keeps w [.c1, .c2, .c3, .c4] _).2.1
  unfold judgeWindow
  rw [hjudged, unlessFrozen_live (by rw [hmember]; exact hs)]

theorem judgeIfReady_spares {c : Channel} {s : State} (hn : NoFlips s) (hu : Unasked (s.channels.units.get c)) :
    Spares c s (judgeIfReady s) := by
  unfold judgeIfReady
  split
  next w _ =>
    split
    next hready =>
      have hlive : s.member.station ≠ .frozen := atWork_not_frozen (Bool.and_eq_true_iff.mp hready).1
      have hw := windowJudged_spares w hu
      have hfault : (windowJudged w s).fault = s.fault := (sensorsJudged_keeps w [.c1, .c2, .c3, .c4] _).1
      rw [judgeWindow_reoffers w hn hlive]
      exact hw.trans (reofferPulse_spares (by unfold NoFlips; rw [hfault]; exact hn) (by rw [hw.unit]; exact hu))
    next => exact Spares.refl c s
  next => exact Spares.refl c s

/-- A judgment leaves a slot that does not wait for its channel (R156). -/
theorem judgeIfReady_slot {s : State} (hn : NoFlips s) (ha : s.atWork = true) (hs : NoWaiting s) :
    (judgeIfReady s).coup.slot = s.coup.slot := by
  cases hw : s.coup.window with
  | none => rw [judgeIfReady_none hw]
  | some w =>
    rw [judgeIfReady_sound w hw hn ha hs]
    split
    next => exact (sensorsJudged_keeps w [.c1, .c2, .c3, .c4] _).2.2
    next => rfl

/-! ## The lockout's end (R30, R151) -/

/-- Where no slot waits, a change of a channel's state offers nothing (R151). -/
theorem reofferThenJudge_idle {s : State} (h : NoWaiting s) : reofferThenJudge s = s := by
  unfold reofferThenJudge
  split
  next tag hs => exact absurd hs (h tag)
  next => rfl

theorem reofferThenJudge_waiting {s : State} {tag : Tag} (h : s.coup.slot = .waiting tag) :
    reofferThenJudge s = judgeIfReady (reofferPulse s) := by
  unfold reofferThenJudge
  rw [h]

/-- The state that LOCKOUT gives way to follows the role (R30). -/
theorem afterLockout_muted {u : ChannelUnit} (h : u.role = .muted) (s : State) :
    afterLockout u s = if s.windowOpen then .quiet else .muted := by
  unfold afterLockout
  rw [h]

theorem afterLockout_listens {u : ChannelUnit} (h : u.role ≠ .muted) (s : State) : afterLockout u s = listenState s := by
  unfold afterLockout
  split
  next hm => exact absurd hm h
  next => rfl

/-- The lockout timer's expiry in a station at work (R30). -/
theorem exec_lockoutTimerExpiry_due {m : Moment} {s : State} {ch : Channel} {d : Tag} (hS : Sound m s) (hw : s.atWork = true)
    (hst : (s.channels.units.get ch).state = .lockout) (hd : (s.channels.units.get ch).lockout = some d)
    (hr : reached m.tag d = true) :
    exec (.lockoutTimerExpiry m ch) s = .next (reofferThenJudge ((s.withNow m.tag).setUnit ch { s.channels.units.get ch with
      state := afterLockout (s.channels.units.get ch) (s.withNow m.tag), lockout := none })) := by
  have hdue : lockoutDue ch (s.withNow m.tag) = true := by
    have hwork : (s.withNow m.tag).atWork = true := hw
    simp [lockoutDue, hwork, hst, hd, due, hr]
  rw [exec_lockoutTimerExpiry_quiet m ch s hS.noFaultToFind, if_pos hdue, usingConfig_sound (by exact hS.noFlips)]
  rfl

/-- A slot that waits for a channel of role LISTEN is QUEUED, the channel armed, once the channel can take its request (R36, R151). -/
theorem reofferThenJudge_arms {s : State} {tag : Tag} {c : Channel} (hn : NoFlips s) (ha : s.atWork = true)
    (hs : s.coup.slot = .waiting tag) (hl : later s.now (tag + halfSpacing s) = false) (hc : pulseChannel s = some c)
    (hu : armable (s.channels.units.get c) = true) (hq : s.link.queue.length < 12) :
    (reofferThenJudge s).coup.slot = .queued s.link.nextRef ∧ ((reofferThenJudge s).channels.units.get c).role = .pulse ∧
      ((reofferThenJudge s).channels.units.get c).state = .hush := by
  obtain ⟨_, _, _, hsel⟩ := selectFrame_keeps (setSlot (.queued s.link.nextRef) (enqueue .pulse (pulseBytes (chNo c))
    (s.setUnit c { s.channels.units.get c with role := .pulse, state := .hush })))
  rw [reofferThenJudge_waiting hs, reofferPulse_arms hn hs hl hc hu, armChannel_taken hn hq, hsel]
  have hunit : ((s.channels.units.set c { s.channels.units.get c with role := .pulse, state := .hush }).get c) =
      { s.channels.units.get c with role := .pulse, state := .hush } := Four.get_set _ _ _
  refine ⟨judgeIfReady_slot (by exact hn) (by exact ha) (fun t ht => by cases ht), ?_⟩
  rw [(judgeIfReady_spares (c := c) (by exact hn) (Or.inr (congrArg (·.role) hunit))).unit]
  exact ⟨congrArg (·.role) hunit, congrArg (·.state) hunit⟩

/-! ## The two ends of a pulse (R37, R152, R158) -/

theorem pulseDue_reached {m : Moment} {s : State} {ch : Channel} {st : ChannelState} {d : Tag} (hw : s.atWork = true)
    (hst : (s.channels.units.get ch).state = st) (hd : (s.channels.units.get ch).pulseTimer = some d) (hr : reached m.tag d = true) :
    pulseDue ch st (s.withNow m.tag) = true := by
  have hwork : (s.withNow m.tag).atWork = true := hw
  simp [pulseDue, hwork, hst, hd, due, hr]

/-- A channel that is of role LISTEN after its pulse (R37). -/
def listeningUnit (s : State) (u : ChannelUnit) : ChannelUnit := { u with role := .listen, state := listenState s, pulseTimer := none }

theorem returnToListen_sound {s : State} (hn : NoFlips s) (c : Channel) :
    returnToListen c s = remute c (s.setUnit c (listeningUnit s (s.channels.units.get c))) := usingConfig_sound hn _ _

theorem remute_live {s : State} {c : Channel} (h : (s.coup.records.get c).state ≠ .dead) : remute c s = s := if_neg h

theorem remute_dead {s : State} {c : Channel} (h : (s.coup.records.get c).state = .dead) : remute c s = muteChannel c s := if_pos h

theorem listenState_ne_off (s : State) : listenState s ≠ .off := by
  unfold listenState
  split <;> decide

/-- A LISTEN channel takes a mute request (R38). -/
theorem muteChannel_mutes {s : State} {c : Channel} (hn : NoFlips s) (hs : (s.channels.units.get c).state ≠ .off)
    (hr : (s.channels.units.get c).role ≠ .pulse) : ((muteChannel c s).channels.units.get c).role = .muted ∧
      ((muteChannel c s).channels.units.get c).state = .muted := by
  have hm : muteChannel c s = disableChannel c .muted .muted s := if_neg (not_or.mpr ⟨hs, hr⟩)
  unfold disableChannel disableInto at hm
  rw [hm, (discardHit_channels c _ (by exact hn)).1, setUnit_channels, Four.get_set]
  exact ⟨rfl, rfl⟩

/-- Only the stage of a window decides whether it waits to be judged. -/
theorem noJudging_of_stage {s t : State} (h : t.coup.window.map (·.stage) = s.coup.window.map (·.stage)) (hs : NoJudging s) :
    NoJudging t := by
  intro w hw hstage
  rw [hw, Option.map_some, hstage] at h
  obtain ⟨v, hv, hv'⟩ := Option.map_eq_some_iff.mp h.symm
  exact hs v hv hv'

/-- A pulse reported over, no window waiting for it, ends the slot (R152). -/
theorem pulseReported_ends {s : State} (hj : NoJudging s) : pulseReported s =
    s.withCoup { s.coup with slot := if s.coup.slot = .firing then .none else s.coup.slot } := by
  unfold pulseReported
  split
  next hs =>
    rw [judgeIfReady_waits (by exact hj), hs]
    rfl
  next hs =>
    rw [if_neg hs]
    rfl

/-- The recovery time's end, no window waiting to be judged (R37, R152). -/
theorem endRecovery_reports {s x : State} {c : Channel} (hx : returnToListen c s = x) (hs : x.member.station ≠ .frozen)
    (hj : NoJudging x) : endRecovery c s =
      x.withCoup { x.coup with slot := if x.coup.slot = .firing then .none else x.coup.slot } := by
  unfold endRecovery
  rw [hx, unlessFrozen_live hs, pulseReported_ends hj, judgeIfReady_waits (by exact hj)]

theorem exec_recoveryEnd_due {m : Moment} {s : State} {ch : Channel} {d : Tag} (hS : Sound m s) (hw : s.atWork = true)
    (hst : (s.channels.units.get ch).state = .recover) (hd : (s.channels.units.get ch).pulseTimer = some d)
    (hr : reached m.tag d = true) : exec (.recoveryEnd m ch) s = .next (endRecovery ch (s.withNow m.tag)) := by
  rw [exec_recoveryEnd_quiet m ch s hS.noFaultToFind, if_pos (pulseDue_reached hw hst hd hr)]

/-- Settles O17: each end is its channel's new unit; what follows is a slot's offer, or its end. -/
theorem lockoutAndPulseEnds : Obligations.LockoutAndPulseEnds := by
  refine ⟨fun m s ch d hS hw hst hd hr => ⟨fun hwait hm => ?_, fun hwait hm => ?_, fun tag hslot hl hch hrole hq => ?_⟩,
    fun m s ch d hS hw hd hr => ⟨fun hst => ?_, fun hst hdead hj => ?_, fun hst hdead hslot hj => ?_⟩⟩
  · rw [exec_lockoutTimerExpiry_due hS hw hst hd hr, reofferThenJudge_idle (by exact hwait), afterLockout_muted hm]
    rfl
  · rw [exec_lockoutTimerExpiry_due hS hw hst hd hr, reofferThenJudge_idle (by exact hwait), afterLockout_listens hm]
    rfl
  · have harm : armable { s.channels.units.get ch with
        state := afterLockout (s.channels.units.get ch) (s.withNow m.tag), lockout := none } = true := by
      rw [afterLockout_listens (by rw [hrole]; decide)]
      unfold armable listenState
      cases (s.withNow m.tag).listening || (s.withNow m.tag).windowOpen <;> simp [hrole]
    refine ⟨_, exec_lockoutTimerExpiry_due hS hw hst hd hr,
      reofferThenJudge_arms (by exact hS.noFlips) (by exact hw) (by exact hslot) ?_ (by exact hch) ?_ (by exact hq)⟩
    · rw [setUnit_now, withNow_now]
      exact hl
    · rw [setUnit_channels, Four.get_set]
      exact harm
  · rw [exec_pulseWidthEnd_quiet m ch s hS.noFaultToFind, if_pos (pulseDue_reached hw hst hd hr), usingConfig_sound (by exact hS.noFlips)]
    unfold endPulseWidth
    rw [withNow_now]
    rfl
  · rw [exec_recoveryEnd_due hS hw hst hd hr, endRecovery_reports
      ((returnToListen_sound (by exact hS.noFlips) ch).trans (remute_live (by exact hdead))) (by exact atWork_not_frozen hw) (by exact hj)]
    rfl
  · have hn : NoFlips ((s.withNow m.tag).setUnit ch (listeningUnit (s.withNow m.tag) (s.channels.units.get ch))) := hS.noFlips
    have htouch := muteChannel_touches ch hn
    have hret : returnToListen ch (s.withNow m.tag) =
        muteChannel ch ((s.withNow m.tag).setUnit ch (listeningUnit (s.withNow m.tag) (s.channels.units.get ch))) :=
      (returnToListen_sound (by exact hS.noFlips) ch).trans (remute_dead (by exact hdead))
    have hfiring := (congrArg (·.slot) htouch.coup).trans hslot
    obtain ⟨hrole, hstate⟩ := muteChannel_mutes (c := ch) hn (by rw [setUnit_channels, Four.get_set]; exact listenState_ne_off _)
      (by rw [setUnit_channels, Four.get_set]; exact nofun)
    refine ⟨_, exec_recoveryEnd_due hS hw hst hd hr, ?_⟩
    rw [endRecovery_reports hret (by rw [htouch.member]; exact atWork_not_frozen hw) (noJudging_of_stage htouch.stage (by exact hj))]
    exact ⟨hrole, hstate, if_pos hfiring⟩

end Sys2Proof.Machine
end

section
/-! PROOFS. Sample loss and recovery with sound stores (R33 to R35, R152): the loss, the notice, and what the Coupling Unit makes of it. -/

namespace Sys2Proof.Machine

/-! ## The loss of a channel (R33, R35) -/

/-- A channel lost to its samples (R33, R35). -/
def lostUnit (u : ChannelUnit) : ChannelUnit :=
  { ChannelUnit.reset with watch := .lost none, losses := min (u.losses + 1) 255 }

theorem loseChannel_eq (c : Channel) (s : State) : loseChannel c s =
    discardHit c (s.channels.units.get c).openHit (s.setUnit c (lostUnit (s.channels.units.get c))) := rfl

theorem loseChannel_unit (c : Channel) {s : State} (hn : NoFlips s) :
    (loseChannel c s).channels.units.get c = lostUnit (s.channels.units.get c) := by
  rw [loseChannel_eq, (discardHit_channels c _ (by exact hn)).1]
  exact Four.get_set _ _ _

theorem loseChannel_touches (c : Channel) {s : State} (hn : NoFlips s) : TouchesOnly c s (loseChannel c s) :=
  (touchesOnly_setUnit c _ s).trans (discardHit_touches c _ (by exact hn))

theorem loseChannel_tables (c : Channel) {s : State} (hn : NoFlips s) :
    (loseChannel c s).evid = s.evid ∧ (loseChannel c s).agree = s.agree :=
  (discardHit_channels c (s.channels.units.get c).openHit (s := s.setUnit c _) hn).2

/-- An own hit that was open leaves the Hit Window (R33, R80). -/
theorem loseChannel_removes {c : Channel} {s : State} {h : OpenHit} (hn : NoFlips s) (ho : (s.channels.units.get c).openHit = some h)
    (hk : h.kind = .own) : ∀ e ∈ (loseChannel c s).coin.window, e.id ≠ ownHitId s c h.arrival := by
  rw [loseChannel_eq, ho]
  unfold discardHit
  dsimp only
  rw [hk]
  dsimp only
  rw [requestRemoval_sound (by exact hn)]
  intro e he
  exact bne_iff_ne.mp (List.mem_filter.mp he).2

/-! ## What the Coupling Unit makes of it (R33, R152) -/

theorem armedChannelLost_spares {c : Channel} {s : State} (hn : NoFlips s) (hu : Unasked (s.channels.units.get c)) :
    Spares c s (armedChannelLost s) := by
  unfold armedChannelLost
  split
  next =>
    split
    next => exact Spares.refl c s
    next =>
      rw [withdraw_eq]
      exact (judgeIfReady_spares (by exact hn) (by exact hu)).of_start rfl rfl rfl rfl
  next => exact Spares.refl c s

theorem pulseReported_spares {c : Channel} {s : State} (hn : NoFlips s) (hu : Unasked (s.channels.units.get c)) :
    Spares c s (pulseReported s) := by
  unfold pulseReported
  split
  next => exact (judgeIfReady_spares (by exact hn) (by exact hu)).of_start rfl rfl rfl rfl
  next => exact Spares.refl c s

theorem tellLoss_spares {c : Channel} (u : ChannelUnit) {s : State} (hn : NoFlips s) (hu : Unasked (s.channels.units.get c)) :
    Spares c s (tellLoss u s) := by
  unfold tellLoss
  split
  next => exact armedChannelLost_spares hn hu
  next =>
    split
    next => exact pulseReported_spares hn hu
    next => exact Spares.refl c s

/-- A pulse cut short ends the slot (R152). -/
theorem tellLoss_firing {u : ChannelUnit} {s : State} (hn : NoFlips s) (ha : s.atWork = true) (hs : s.coup.slot = .firing)
    (hu : u.state = .pulsing ∨ u.state = .recover) : (tellLoss u s).coup.slot = .none := by
  have hhush : ¬ (u.state = .hush ∧ u.role = .pulse) := by
    rintro ⟨hh, -⟩
    rcases hu with hu | hu <;> rw [hu] at hh <;> cases hh
  unfold tellLoss
  rw [if_neg hhush, if_pos hu]
  unfold pulseReported
  rw [hs]
  exact judgeIfReady_slot (by exact hn) (by exact ha) (fun t ht => by cases ht)

/-! ## The notice (R33, R174) -/

theorem mem_raise {s : State} (n : Notice) (h : s.port.notices.length < 32) : n ∈ (raise n s).port.notices := by
  unfold raise
  rw [if_pos (by exact h)]
  exact List.mem_append_right _ (List.mem_singleton_self n)

theorem raise_spares (c : Channel) (n : Notice) (s : State) : Spares c s (raise n s) := by
  rw [raise_eq]
  exact ⟨rfl, fun _ h => h, rfl, rfl⟩

theorem raise_noFlips (n : Notice) {s : State} (h : NoFlips s) : NoFlips (raise n s) := by
  rw [raise_eq]
  exact h

theorem Calm.atWork {r s : State} (h : Calm r s) : s.atWork = r.atWork := by
  obtain ⟨_, _, hstation, _⟩ := h
  unfold State.atWork
  rw [hstation]

/-- What follows a loss spares the lost channel, keeps the notice and ends a slot whose pulse was cut short. -/
theorem afterLoss_outcome {c : Channel} (u : ChannelUnit) {s : State} (hn : NoFlips s) (ha : s.atWork = true)
    (hu : Unasked (s.channels.units.get c)) : Spares c s (afterLoss c u s) ∧ (afterLoss c u s).tracker = s.tracker ∧
      (s.port.notices.length < 32 →
        (⟨s.tracker.cycle, ownSensor c s, .sampleLoss true⟩ : Notice) ∈ (afterLoss c u s).port.notices) ∧
      (u.state = .pulsing ∨ u.state = .recover → s.coup.slot = .firing → (afterLoss c u s).coup.slot = .none) := by
  unfold afterLoss raiseNow
  have hraised := raise_spares c ⟨s.tracker.cycle, ownSensor c s, .sampleLoss true⟩ s
  have hnotice := mem_raise (s := s) ⟨s.tracker.cycle, ownSensor c s, .sampleLoss true⟩
  have hny := raise_noFlips ⟨s.tracker.cycle, ownSensor c s, .sampleLoss true⟩ hn
  have hkept := raise_eq ⟨s.tracker.cycle, ownSensor c s, .sampleLoss true⟩ s
  generalize raise ⟨s.tracker.cycle, ownSensor c s, .sampleLoss true⟩ s = y at *
  have hwork : y.atWork = true := by rw [hkept]; exact ha
  have huy : Unasked (y.channels.units.get c) := by rw [hraised.unit]; exact hu
  have htold := tellLoss_spares u hny huy
  have hcalm : Calm y (tellLoss u y) := tellLoss_calm u y (Calm.refl hny)
  have hend : Calm y (judgeIfReady (tellLoss u y)) := judgeIfReady_calm _ hcalm
  obtain ⟨_, htracker, _, _, _, _, _, _, hprefix⟩ := hend
  refine ⟨hraised.trans (htold.trans (judgeIfReady_spares hcalm.noFlips (by rw [htold.unit]; exact huy))),
    htracker.trans (by rw [hkept]; rfl),
    fun hl => hprefix.subset (hnotice hl), fun hst hs => ?_⟩
  have hslot : (tellLoss u y).coup.slot = .none := tellLoss_firing hny hwork (by rw [hkept]; exact hs) hst
  rw [judgeIfReady_slot hcalm.noFlips (hcalm.atWork.trans hwork) (fun t ht => by rw [hslot] at ht; cases ht), hslot]

/-- A loss that is due, in a station at work (R33). -/
theorem exec_sampleLoss_due {m : Moment} {s : State} {ch : Channel} {last : Tag} (hS : Sound m s) (hw : s.atWork = true)
    (hoff : (s.channels.units.get ch).state ≠ .off) (hwatch : (s.channels.units.get ch).watch = .watching last)
    (hgap : 8 ≤ elapsed m.tag last) : exec (.sampleLoss m ch) s =
      .next (afterLoss ch (s.channels.units.get ch) (loseChannel ch (s.withNow m.tag))) := by
  have hdue : lossDue ch (s.withNow m.tag) = true := by
    have hwork : (s.withNow m.tag).atWork = true := hw
    simp [lossDue, hwork, hoff, hwatch, lossGap, hgap]
  have hmember := (loseChannel_touches ch (s := s.withNow m.tag) hS.noFlips).member
  rw [exec_sampleLoss_quiet m ch s hS.noFaultToFind, if_pos hdue]
  unfold sampleLost
  rw [unlessFrozen_live (by rw [hmember]; exact atWork_not_frozen hw)]
  rfl

/-! ## The return of a channel (R34) -/

/-- A channel back in service (R34). -/
def returnedUnit (c : Channel) (last : Tag) (s : State) : ChannelUnit :=
  { s.channels.units.get c with
    state := if (s.coup.records.get c).state = .dead then .muted else listenState s
    role := if (s.coup.records.get c).state = .dead then .muted else .listen
    floorWindow := [], openHit := none, lockout := none, pulseTimer := none, watch := .watching last }

theorem recoverChannel_returns {s : State} {c : Channel} (ho : (s.channels.units.get c).openHit = none) (last : Tag) :
    recoverChannel c last s = s.setUnit c (returnedUnit c last s) := by
  unfold recoverChannel disableInto returnedUnit
  rw [ho]
  split <;> rfl

/-- A recovery that is due, in a station at work whose slot does not wait (R34). -/
theorem exec_sampleRecovery_due {m : Moment} {s : State} {ch : Channel} {start last : Tag} (hS : Sound m s) (hw : s.atWork = true)
    (hwatch : (s.channels.units.get ch).watch = .lost (some (start, last))) (hspan : 1000 ≤ elapsed m.tag start)
    (hgap : elapsed m.tag last < 8) (ho : (s.channels.units.get ch).openHit = none) (hwait : NoWaiting s) :
    exec (.sampleRecovery m ch) s = .next (raiseNow (ownSensor ch s) (.sampleLoss false)
      ((s.withNow m.tag).setUnit ch (returnedUnit ch last (s.withNow m.tag)))) := by
  have hdue : recoveredAt ch (s.withNow m.tag) = some last := by
    have hwork : (s.withNow m.tag).atWork = true := hw
    simp [recoveredAt, hwatch, hwork, recoverySpan, lossGap, hspan, hgap]
  rw [exec_sampleRecovery_quiet m ch s hS.noFaultToFind, hdue]
  dsimp only
  rw [usingConfig_sound (by exact hS.noFlips)]
  unfold sampleRecovered
  rw [recoverChannel_returns (by exact ho), unlessFrozen_live (by exact atWork_not_frozen hw)]
  unfold afterRecovery
  rw [reofferThenJudge_idle]
  · rfl
  · unfold raiseNow
    rw [raise_eq]
    exact hwait

/-- Settles O18: a loss is `loseChannel`, which what follows it spares; a recovery is `returnedUnit` and its notice. -/
theorem sampleLossAndRecovery : Obligations.SampleLossAndRecovery := by
  refine ⟨fun m s ch last hS hw hoff hwatch hgap => ?_, fun m s ch start last hS hw hwatch hspan hgap ho hwait => ?_⟩
  · have hn : NoFlips (s.withNow m.tag) := hS.noFlips
    have htouch := loseChannel_touches ch hn
    have hunit := loseChannel_unit ch hn
    obtain ⟨hevid, hagree⟩ := loseChannel_tables ch hn
    have hsensor : ownSensor ch (loseChannel ch (s.withNow m.tag)) = packSensor s.ownNo (chNo ch) := by
      unfold ownSensor State.ownNo
      rw [htouch.member]
      rfl
    have hwork : (loseChannel ch (s.withNow m.tag)).atWork = true := by
      unfold State.atWork
      rw [htouch.member]
      exact hw
    obtain ⟨hspares, htracker, hnotice, hslot⟩ := afterLoss_outcome (c := ch) (s.channels.units.get ch)
      (s := loseChannel ch (s.withNow m.tag)) (by unfold NoFlips; rw [htouch.fault]; exact hn) hwork (by rw [hunit]; exact Or.inl rfl)
    rw [hsensor, htouch.tracker, htouch.port] at hnotice
    refine ⟨_, exec_sampleLoss_due hS hw hoff hwatch hgap, hspares.unit.trans hunit, fun h ho hk e he => ?_, hnotice,
      fun hst hs => hslot hst ((congrArg (·.slot) htouch.coup).trans hs), htracker.trans htouch.tracker, hspares.evid.trans hevid,
      hspares.agree.trans hagree⟩
    exact loseChannel_removes hn ho hk e (hspares.window e he)
  · rw [exec_sampleRecovery_due hS hw hwatch hspan hgap ho hwait]
    rfl

end Sys2Proof.Machine
end

section
/-! PROOFS. The invariants of the lanes and of the capacities along every command: Laws/Lanes.lean and Laws/Capacity.lean carry them through
the operations, and a step is an arrival, an effect and a second look at the access timeout. -/

namespace Sys2Proof.Machine

/-! ## What a property of states is kept by -/

/-- An effect that keeps a property of states. -/
def Keeps (P : State → Prop) (f : State → State) : Prop := ∀ s, P s → P (f s)

/-- A property that the frame of a command's step keeps: the arrival and the second look at the access timeout. -/
structure KeptByFrame (P : State → Prop) : Prop where
  arrive : ∀ m, Keeps P (arrive m)
  lookAgain : ∀ s, Keeps P (lookAgain s)

/-- A command's meaning that keeps a property of states. -/
def StepKeeps (P : State → Prop) (e : State → Host.Outcome State Fault Refusal) : Prop := ∀ s t, P s → e s = .next t → P t

/-- A command at its moment keeps what its frame and its effect keep. -/
theorem atMoment_keeps {P : State → Prop} (hP : KeptByFrame P) {m : Moment} {f : State → State} (hf : Keeps P f) :
    StepKeeps P fun s => atMoment m s f := by
  intro s t hs ht
  unfold atMoment at ht
  injection ht with ht
  subst ht
  split
  next => exact hs
  next => exact hP.lookAgain _ _ (hf _ (hP.arrive m s hs))

/-- What is done only where its moment has come. -/
theorem keeps_guarded {P : State → Prop} {p : State → Prop} [DecidablePred p] {f : State → State} (hf : Keeps P f) :
    Keeps P fun s => if p s then f s else s := by
  intro s hs
  dsimp only
  split
  next => exact hf s hs
  next => exact hs

/-- What is done with the frame that waits for its gap: it is the current one. -/
theorem whileWaiting_keeps {P : State → Prop} {f : CurrentFrame → Tag → State → State}
    (hf : ∀ c d s, s.link.current = some c → P s → P (f c d s)) : Keeps P (whileWaiting f) := by
  intro s hs
  unfold whileWaiting
  split
  next c hc =>
    split
    next d _ =>
      split
      next => exact hf c d s hc hs
      next => exact hs
    next => exact hs
  next => exact hs

/-- What is done with the frame on the lane: it is the current one. -/
theorem whileTransmitting_keeps {P : State → Prop} {f : CurrentFrame → Tag → State → State}
    (hf : ∀ c d s, s.link.current = some c → P s → P (f c d s)) : Keeps P (whileTransmitting f) := by
  intro s hs
  unfold whileTransmitting
  split
  next c hc =>
    split
    next d _ =>
      split
      next => exact hf c d s hc hs
      next => exact hs
    next => exact hs
  next => exact hs

/-- A step keeps what every command and the passing of time keep. -/
theorem step_keeps {P : State → Prop} (htime : ∀ s v, P s → P (s.withClock v)) (hqueue : ∀ s q, P s → P (s.withPending q))
    (hexec : ∀ c, StepKeeps P (exec c)) {s t : State} (hs : P s) (ht : step s = .next t) : P t := by
  unfold step at ht
  split at ht
  next =>
    injection ht with ht
    subst ht
    unfold tick
    split
    next => exact hs
    next => exact htime _ _ hs
  next c rest _ => exact hexec c _ t (hqueue _ _ hs) ht

/-! ## The lanes (R51, R54, R55) -/

theorem lanesInv_frame : KeptByFrame LanesInv := ⟨fun m s => arrive_lanes m s, lookAgain_lanes⟩

/-- Every command keeps the relations between the lanes. -/
theorem exec_lanes (c : Instr) : StepKeeps LanesInv (exec c) := by
  have hP := lanesInv_frame
  cases c with
  | cycRising m =>
    change StepKeeps LanesInv (execCycRising m)
    exact atMoment_keeps hP fun s => takeEdge_lanes _ s cycEdge_lanes
  | filRising m =>
    change StepKeeps LanesInv (execFilRising m)
    exact atMoment_keeps hP fun s => takeEdge_lanes _ s filEdge_lanes
  | vibRising m =>
    change StepKeeps LanesInv (execVibRising m)
    exact atMoment_keeps hP fun s => takeEdge_lanes _ s vibEdge_lanes
  | strRising m =>
    change StepKeeps LanesInv (execStrRising m)
    exact atMoment_keeps hP fun s => takeEdge_lanes _ s strEdge_lanes
  | strFalling m =>
    change StepKeeps LanesInv (execStrFalling m)
    exact atMoment_keeps hP fun s => takeEdge_lanes _ s strFall_lanes
  | settleTimerExpiry m =>
    change StepKeeps LanesInv (execSettleTimerExpiry m)
    exact atMoment_keeps hP (keeps_guarded settleClose_lanes)
  | cycleTimerExpiry m =>
    change StepKeeps LanesInv (execCycleTimerExpiry m)
    exact atMoment_keeps hP (keeps_guarded cycleExpired_lanes)
  | sample m c v =>
    change StepKeeps LanesInv (execSample m c v)
    exact atMoment_keeps hP (takeSample_lanes c v)
  | lockoutTimerExpiry m c =>
    change StepKeeps LanesInv (execLockoutTimerExpiry m c)
    exact atMoment_keeps hP (keeps_guarded fun s => usingConfig_lanes _ _ s (endLockout_lanes c))
  | sampleLoss m c =>
    change StepKeeps LanesInv (execSampleLoss m c)
    exact atMoment_keeps hP (keeps_guarded (sampleLost_lanes c))
  | sampleRecovery m c =>
    change StepKeeps LanesInv (execSampleRecovery m c)
    refine atMoment_keeps hP fun s h => ?_
    split
    next last _ => exact usingConfig_lanes _ _ s (sampleRecovered_lanes c last) h
    next => exact h
  | pulseWidthEnd m c =>
    change StepKeeps LanesInv (execPulseWidthEnd m c)
    exact atMoment_keeps hP (keeps_guarded fun s => usingConfig_lanes _ _ s (endPulseWidth_lanes c))
  | recoveryEnd m c =>
    change StepKeeps LanesInv (execRecoveryEnd m c)
    exact atMoment_keeps hP (keeps_guarded (endRecovery_lanes c))
  | accessGapReached m lane =>
    change StepKeeps LanesInv (execAccessGapReached m lane)
    exact atMoment_keeps hP (whileWaiting_keeps fun c _ s hc h =>
      takeGap_lanes lane.lane c _ (hearBytes_lanes lane s h) ((hearBytes_current lane s).trans hc))
  | accessTimerExpiry m =>
    change StepKeeps LanesInv (execAccessTimerExpiry m)
    exact atMoment_keeps hP (whileWaiting_keeps fun c d s hc h => starve_lanes c d s h hc)
  | attemptSent m =>
    change StepKeeps LanesInv (execAttemptSent m)
    exact atMoment_keeps hP (whileTransmitting_keeps fun c d s hc h => attemptSucceeded_lanes c d s h hc)
  | echoMismatch m =>
    change StepKeeps LanesInv (execEchoMismatch m)
    exact atMoment_keeps hP (whileTransmitting_keeps fun c _ s hc h => echoFailed_lanes c .clash s h hc)
  | echoTimeout m index =>
    change StepKeeps LanesInv (execEchoTimeout m index)
    exact atMoment_keeps hP (whileTransmitting_keeps fun c _ s hc h => echoFailed_lanes c (timeoutCause index) s h hc)
  | frameComplete m l bytes =>
    change StepKeeps LanesInv (execFrameComplete m l bytes)
    refine atMoment_keeps hP fun s h => ?_
    split
    next stamp own _ => exact completeFrame_lanes l ⟨bytes, stamp, own⟩ s h
    next => exact h
  | frameBroken m l cause =>
    change StepKeeps LanesInv (execFrameBroken m l cause)
    refine atMoment_keeps hP fun s h => ?_
    split
    next => exact breakFrame_lanes l _ s h
    next => exact h
  | frameHandlerTake m =>
    change StepKeeps LanesInv (execFrameHandlerTake m)
    refine atMoment_keeps hP fun s h => ?_
    split
    next l f _ => exact keeps_guarded (p := fun s => s.linkUp = true) (handleFrame_lanes l f) s h
    next => exact h
  | joinTimerExpiry m =>
    change StepKeeps LanesInv (execJoinTimerExpiry m)
    exact atMoment_keeps hP (keeps_guarded (joinAdopt_lanes 0))
  | silenceTimerExpiry m st =>
    change StepKeeps LanesInv (execSilenceTimerExpiry m st)
    exact atMoment_keeps hP (keeps_guarded (goMissing_lanes st))
  | presenceTimerExpiry m =>
    change StepKeeps LanesInv (execPresenceTimerExpiry m)
    exact atMoment_keeps hP (keeps_guarded fun s => usingConfig_lanes _ _ s askPresence_lanes)
  | closeExpiry m =>
    change StepKeeps LanesInv (execCloseExpiry m)
    exact atMoment_keeps hP (keeps_guarded takeCloseExpiry_lanes)
  | publicationDeadline m key =>
    change StepKeeps LanesInv (execPublicationDeadline m key)
    refine atMoment_keeps hP fun s h => ?_
    split
    next p _ => exact keeps_guarded (p := fun s => s.atWork = true) (publishAsStandIn_lanes p) s h
    next => exact h
  | digestWindowExpiry m =>
    change StepKeeps LanesInv (execDigestWindowExpiry m)
    exact atMoment_keeps hP (keeps_guarded fun s => usingConfig_lanes _ _ s decide__lanes)
  | transferLeadExpiry m =>
    change StepKeeps LanesInv (execTransferLeadExpiry m)
    refine atMoment_keeps hP fun s h => ?_
    split
    next n _ => exact sendRow_lanes n s h
    next => exact h
  | slotTagReached m =>
    change StepKeeps LanesInv (execSlotTagReached m)
    refine atMoment_keeps hP fun s h => ?_
    split
    next tag _ => exact usingConfig_lanes _ _ s (takeSlot_lanes tag) h
    next => exact h
  | slotWaitEnd m =>
    change StepKeeps LanesInv (execSlotWaitEnd m)
    exact atMoment_keeps hP (keeps_guarded fun s => usingConfig_lanes _ _ s endWait_lanes)
  | fireTagReached m =>
    change StepKeeps LanesInv (execFireTagReached m)
    exact atMoment_keeps hP (keeps_guarded fun s => usingConfig_lanes _ _ s takeFire_lanes)
  | windowFireTag m =>
    change StepKeeps LanesInv (execWindowFireTag m)
    exact atMoment_keeps hP (keeps_guarded fun s h => reofferPulse_lanes _ (openWindow_lanes s h))
  | endTagReached m =>
    change StepKeeps LanesInv (execEndTagReached m)
    exact atMoment_keeps hP (keeps_guarded takeEndTag_lanes)
  | scrubRead m =>
    change StepKeeps LanesInv (execScrubRead m)
    exact atMoment_keeps hP (keeps_guarded scrubStep_lanes)
  | logoutTimerExpiry m =>
    change StepKeeps LanesInv (execLogoutTimerExpiry m)
    exact atMoment_keeps hP (keeps_guarded (selfRestart_lanes .fault))
  | load m block =>
    change StepKeeps LanesInv (execLoad m block)
    exact atMoment_keeps hP (keeps_guarded (judgeCommand_lanes _ _ _))
  | loadCheckComplete m =>
    change StepKeeps LanesInv (execLoadCheckComplete m)
    exact atMoment_keeps hP (keeps_guarded endCheck_lanes)
  | start m =>
    change StepKeeps LanesInv (execStart m)
    exact atMoment_keeps hP (judgeCommand_lanes _ _ _)
  | restart m =>
    change StepKeeps LanesInv (execRestart m)
    exact atMoment_keeps hP (judgeCommand_lanes _ _ _)
  | status m =>
    change StepKeeps LanesInv (execStatus m)
    exact atMoment_keeps hP fun s => judgeCommand_lanes _ _ _ s
  | nextNotice m =>
    change StepKeeps LanesInv (execNextNotice m)
    exact atMoment_keeps hP fun s => judgeCommand_lanes _ _ _ s
  | readSegment m n =>
    change StepKeeps LanesInv (execReadSegment m n)
    exact atMoment_keeps hP (readSegmentStep_lanes n.toNat)
  | readPeer m n =>
    change StepKeeps LanesInv (execReadPeer m n)
    exact atMoment_keeps hP fun s => judgeCommand_lanes _ _ _ s
  | readCoupling m =>
    change StepKeeps LanesInv (execReadCoupling m)
    exact atMoment_keeps hP fun s => judgeCommand_lanes _ _ _ s
  | readFault m =>
    change StepKeeps LanesInv (execReadFault m)
    exact atMoment_keeps hP fun s => judgeCommand_lanes _ _ _ s
  | clearFault m =>
    change StepKeeps LanesInv (execClearFault m)
    exact atMoment_keeps hP (judgeCommand_lanes _ _ _)
  | segmentControl m kind group value mask =>
    change StepKeeps LanesInv (execSegmentControl m kind group value mask)
    exact atMoment_keeps hP (segmentControlStep_lanes kind group value mask)
  | selectRise m bytesOut =>
    change StepKeeps LanesInv (execSelectRise m bytesOut)
    exact atMoment_keeps hP (deselect_lanes bytesOut)
  | frameStart m l =>
    change StepKeeps LanesInv (execFrameStart m l)
    exact atMoment_keeps hP (keeps_guarded (beginFrameOn_lanes l))
  | noCommandByte m b =>
    change StepKeeps LanesInv (execNoCommandByte m b)
    exact atMoment_keeps hP (keeps_guarded (judgeCommand_lanes _ _ _))
  | reset =>
    intro s t hs ht
    injection ht with ht
    subst ht
    exact powerOnValues_lanes true s hs
  | powerOn =>
    intro s t hs ht
    injection ht with ht
    subst ht
    exact powerOnValues_lanes false s hs
  | resetRelease =>
    intro s t hs ht
    injection ht with ht
    subst ht
    exact hs

/-- Settles O56: a step runs the front command, or ticks. -/
theorem lanesInvariantKept : Obligations.LanesInvariantKept :=
  fun _ _ hs ht => step_keeps (fun _ _ => id) (fun _ _ => id) exec_lanes hs ht

/-! ## The capacities (R31, R46, R61, R78, R91, R110, R145, R174) -/

theorem capacityInv_frame : KeptByFrame CapacityInv := ⟨fun m s => arrive_cap m s, lookAgain_cap⟩

/-- Every command keeps every collection within its capacity. -/
theorem exec_cap (c : Instr) : StepKeeps CapacityInv (exec c) := by
  have hP := capacityInv_frame
  cases c with
  | cycRising m =>
    change StepKeeps CapacityInv (execCycRising m)
    exact atMoment_keeps hP fun s => takeEdge_cap _ s cycEdge_cap
  | filRising m =>
    change StepKeeps CapacityInv (execFilRising m)
    exact atMoment_keeps hP fun s => takeEdge_cap _ s filEdge_cap
  | vibRising m =>
    change StepKeeps CapacityInv (execVibRising m)
    exact atMoment_keeps hP fun s => takeEdge_cap _ s vibEdge_cap
  | strRising m =>
    change StepKeeps CapacityInv (execStrRising m)
    exact atMoment_keeps hP fun s => takeEdge_cap _ s strEdge_cap
  | strFalling m =>
    change StepKeeps CapacityInv (execStrFalling m)
    exact atMoment_keeps hP fun s => takeEdge_cap _ s strFall_cap
  | settleTimerExpiry m =>
    change StepKeeps CapacityInv (execSettleTimerExpiry m)
    exact atMoment_keeps hP (keeps_guarded settleClose_cap)
  | cycleTimerExpiry m =>
    change StepKeeps CapacityInv (execCycleTimerExpiry m)
    exact atMoment_keeps hP (keeps_guarded cycleExpired_cap)
  | sample m c v =>
    change StepKeeps CapacityInv (execSample m c v)
    exact atMoment_keeps hP (takeSample_cap c v)
  | lockoutTimerExpiry m c =>
    change StepKeeps CapacityInv (execLockoutTimerExpiry m c)
    exact atMoment_keeps hP (keeps_guarded fun s => usingConfig_cap _ _ s (endLockout_cap c))
  | sampleLoss m c =>
    change StepKeeps CapacityInv (execSampleLoss m c)
    exact atMoment_keeps hP (keeps_guarded (sampleLost_cap c))
  | sampleRecovery m c =>
    change StepKeeps CapacityInv (execSampleRecovery m c)
    refine atMoment_keeps hP fun s h => ?_
    split
    next last _ => exact usingConfig_cap _ _ s (sampleRecovered_cap c last) h
    next => exact h
  | pulseWidthEnd m c =>
    change StepKeeps CapacityInv (execPulseWidthEnd m c)
    exact atMoment_keeps hP (keeps_guarded fun s => usingConfig_cap _ _ s (endPulseWidth_cap c))
  | recoveryEnd m c =>
    change StepKeeps CapacityInv (execRecoveryEnd m c)
    exact atMoment_keeps hP (keeps_guarded (endRecovery_cap c))
  | accessGapReached m lane =>
    change StepKeeps CapacityInv (execAccessGapReached m lane)
    exact atMoment_keeps hP (whileWaiting_keeps fun c _ s _ h =>
      takeGap_cap lane.lane c _ (hearBytes_cap lane s h))
  | accessTimerExpiry m =>
    change StepKeeps CapacityInv (execAccessTimerExpiry m)
    exact atMoment_keeps hP (whileWaiting_keeps fun c d s _ h => starve_cap c d s h)
  | attemptSent m =>
    change StepKeeps CapacityInv (execAttemptSent m)
    exact atMoment_keeps hP (whileTransmitting_keeps fun c d s _ h => attemptSucceeded_cap c d s h)
  | echoMismatch m =>
    change StepKeeps CapacityInv (execEchoMismatch m)
    exact atMoment_keeps hP (whileTransmitting_keeps fun c _ s _ h => echoFailed_cap c .clash s h)
  | echoTimeout m index =>
    change StepKeeps CapacityInv (execEchoTimeout m index)
    exact atMoment_keeps hP (whileTransmitting_keeps fun c _ s _ h => echoFailed_cap c (timeoutCause index) s h)
  | frameComplete m l bytes =>
    change StepKeeps CapacityInv (execFrameComplete m l bytes)
    refine atMoment_keeps hP fun s h => ?_
    split
    next stamp own _ => exact completeFrame_cap l ⟨bytes, stamp, own⟩ s h
    next => exact h
  | frameBroken m l cause =>
    change StepKeeps CapacityInv (execFrameBroken m l cause)
    refine atMoment_keeps hP fun s h => ?_
    split
    next => exact breakFrame_cap l _ s h
    next => exact h
  | frameHandlerTake m =>
    change StepKeeps CapacityInv (execFrameHandlerTake m)
    refine atMoment_keeps hP fun s h => ?_
    split
    next l f _ => exact keeps_guarded (p := fun s => s.linkUp = true) (handleFrame_cap l f) s h
    next => exact h
  | joinTimerExpiry m =>
    change StepKeeps CapacityInv (execJoinTimerExpiry m)
    exact atMoment_keeps hP (keeps_guarded (joinAdopt_cap 0))
  | silenceTimerExpiry m st =>
    change StepKeeps CapacityInv (execSilenceTimerExpiry m st)
    exact atMoment_keeps hP (keeps_guarded (goMissing_cap st))
  | presenceTimerExpiry m =>
    change StepKeeps CapacityInv (execPresenceTimerExpiry m)
    exact atMoment_keeps hP (keeps_guarded fun s => usingConfig_cap _ _ s askPresence_cap)
  | closeExpiry m =>
    change StepKeeps CapacityInv (execCloseExpiry m)
    exact atMoment_keeps hP (keeps_guarded takeCloseExpiry_cap)
  | publicationDeadline m key =>
    change StepKeeps CapacityInv (execPublicationDeadline m key)
    refine atMoment_keeps hP fun s h => ?_
    split
    next p _ => exact keeps_guarded (p := fun s => s.atWork = true) (publishAsStandIn_cap p) s h
    next => exact h
  | digestWindowExpiry m =>
    change StepKeeps CapacityInv (execDigestWindowExpiry m)
    exact atMoment_keeps hP (keeps_guarded fun s => usingConfig_cap _ _ s decide__cap)
  | transferLeadExpiry m =>
    change StepKeeps CapacityInv (execTransferLeadExpiry m)
    refine atMoment_keeps hP fun s h => ?_
    split
    next n _ => exact sendRow_cap n s h
    next => exact h
  | slotTagReached m =>
    change StepKeeps CapacityInv (execSlotTagReached m)
    refine atMoment_keeps hP fun s h => ?_
    split
    next tag _ => exact usingConfig_cap _ _ s (takeSlot_cap tag) h
    next => exact h
  | slotWaitEnd m =>
    change StepKeeps CapacityInv (execSlotWaitEnd m)
    exact atMoment_keeps hP (keeps_guarded fun s => usingConfig_cap _ _ s endWait_cap)
  | fireTagReached m =>
    change StepKeeps CapacityInv (execFireTagReached m)
    exact atMoment_keeps hP (keeps_guarded fun s => usingConfig_cap _ _ s takeFire_cap)
  | windowFireTag m =>
    change StepKeeps CapacityInv (execWindowFireTag m)
    exact atMoment_keeps hP (keeps_guarded fun s h => reofferPulse_cap _ (openWindow_cap s h))
  | endTagReached m =>
    change StepKeeps CapacityInv (execEndTagReached m)
    exact atMoment_keeps hP (keeps_guarded takeEndTag_cap)
  | scrubRead m =>
    change StepKeeps CapacityInv (execScrubRead m)
    exact atMoment_keeps hP (keeps_guarded scrubStep_cap)
  | logoutTimerExpiry m =>
    change StepKeeps CapacityInv (execLogoutTimerExpiry m)
    exact atMoment_keeps hP (keeps_guarded (selfRestart_cap .fault))
  | load m block =>
    change StepKeeps CapacityInv (execLoad m block)
    exact atMoment_keeps hP (keeps_guarded (judgeCommand_cap _ _ _))
  | loadCheckComplete m =>
    change StepKeeps CapacityInv (execLoadCheckComplete m)
    exact atMoment_keeps hP (keeps_guarded endCheck_cap)
  | start m =>
    change StepKeeps CapacityInv (execStart m)
    exact atMoment_keeps hP (judgeCommand_cap _ _ _)
  | restart m =>
    change StepKeeps CapacityInv (execRestart m)
    exact atMoment_keeps hP (judgeCommand_cap _ _ _)
  | status m =>
    change StepKeeps CapacityInv (execStatus m)
    exact atMoment_keeps hP fun s => judgeCommand_cap _ _ _ s
  | nextNotice m =>
    change StepKeeps CapacityInv (execNextNotice m)
    exact atMoment_keeps hP fun s => judgeCommand_cap _ _ _ s
  | readSegment m n =>
    change StepKeeps CapacityInv (execReadSegment m n)
    exact atMoment_keeps hP (readSegmentStep_cap n.toNat)
  | readPeer m n =>
    change StepKeeps CapacityInv (execReadPeer m n)
    exact atMoment_keeps hP fun s => judgeCommand_cap _ _ _ s
  | readCoupling m =>
    change StepKeeps CapacityInv (execReadCoupling m)
    exact atMoment_keeps hP fun s => judgeCommand_cap _ _ _ s
  | readFault m =>
    change StepKeeps CapacityInv (execReadFault m)
    exact atMoment_keeps hP fun s => judgeCommand_cap _ _ _ s
  | clearFault m =>
    change StepKeeps CapacityInv (execClearFault m)
    exact atMoment_keeps hP (judgeCommand_cap _ _ _)
  | segmentControl m kind group value mask =>
    change StepKeeps CapacityInv (execSegmentControl m kind group value mask)
    exact atMoment_keeps hP (segmentControlStep_cap kind group value mask)
  | selectRise m bytesOut =>
    change StepKeeps CapacityInv (execSelectRise m bytesOut)
    exact atMoment_keeps hP (deselect_cap bytesOut)
  | frameStart m l =>
    change StepKeeps CapacityInv (execFrameStart m l)
    exact atMoment_keeps hP (keeps_guarded (beginFrameOn_cap l))
  | noCommandByte m b =>
    change StepKeeps CapacityInv (execNoCommandByte m b)
    exact atMoment_keeps hP (keeps_guarded (judgeCommand_cap _ _ _))
  | reset =>
    intro s t hs ht
    injection ht with ht
    subst ht
    exact powerOnValues_cap true s hs
  | powerOn =>
    intro s t hs ht
    injection ht with ht
    subst ht
    exact powerOnValues_cap false s hs
  | resetRelease =>
    intro s t hs ht
    injection ht with ht
    subst ht
    exact hs

/-- Settles O57: a step runs the front command, or ticks. -/
theorem capacitiesKept : Obligations.CapacitiesKept :=
  fun _ _ hs ht => step_keeps (fun _ _ => id) (fun _ _ => id) exec_cap hs ht

end Sys2Proof.Machine
end

section
/-! PROOFS. The access gap, the receivers and the frame handler where no fault is to be found (R44, R45, R49, R56 to R60, R63). -/

namespace Sys2Proof.Machine

/-! ## One lane written back, and written twice -/

theorem PerLane.set_get {α : Type} (f : PerLane α) (i : Lane) : f.set i (f.get i) = f := by cases i <;> rfl
theorem PerLane.set_set {α : Type} (f : PerLane α) (i : Lane) (a b : α) : (f.set i a).set i b = f.set i b := by cases i <;> rfl
theorem otherLane_ne (l : Lane) : otherLane l ≠ l := by cases l <;> decide

/-- The other lane's unit stays. -/
theorem PerLane.get_other {α : Type} (f : PerLane α) (i : Lane) (a : α) : (f.set i a).get (otherLane i) = f.get (otherLane i) :=
  f.get_set_ne a (otherLane_ne i)

theorem setLane_setLane (l : Lane) (u v : LaneUnit) (s : State) : (s.setLane l u).setLane l v = s.setLane l v := by
  unfold State.setLane
  rw [withLink_link, PerLane.set_set]
  rfl

theorem setLane_get (l : Lane) (s : State) : s.setLane l (s.link.lanes.get l) = s := by
  unfold State.setLane
  rw [PerLane.set_get]
  rfl

/-! ## The access gap (R45, R49) -/

/-- The clock value from which a lane's rest counts, the bytes that a hunting receiver has heard included (R45). -/
def restFrom (r : RestingLane) (s : State) : Nat :=
  match r.lastByte with
  | some b =>
    if (s.link.lanes.get r.lane).receiver = .hunting then max (s.link.lanes.get r.lane).idleFrom (s.clockAt b)
    else (s.link.lanes.get r.lane).idleFrom
  | none => (s.link.lanes.get r.lane).idleFrom

theorem hearBytes_eq (r : RestingLane) (s : State) :
    hearBytes r s = s.setLane r.lane { s.link.lanes.get r.lane with idleFrom := restFrom r s } := by
  unfold hearBytes
  dsimp only
  split
  next b hb hr =>
    have hrest : restFrom r s = max (s.link.lanes.get r.lane).idleFrom (s.clockAt b) := by
      unfold restFrom
      rw [hb]
      exact if_pos hr
    rw [hrest]
  next hno =>
    have hrest : restFrom r s = (s.link.lanes.get r.lane).idleFrom := by
      unfold restFrom
      split
      next b hb => exact if_neg (hno b hb)
      next => rfl
    rw [hrest]
    exact (setLane_get r.lane s).symm

theorem isHunting_iff (r : Receiver) : r.isHunting = true ↔ r = .hunting := by cases r <;> simp [Receiver.isHunting]

/-- What a reached gap needs: the attempt's lane, a hunting receiver, and the rest (R45). -/
theorem gapReached_iff (l : Lane) (c : CurrentFrame) (s : State) : gapReached l c s = true ↔
    c.lane = l ∧ (s.link.lanes.get l).receiver = .hunting ∧
      8 + 20 * frameClass c.kind + 2 * (s.ownNo - 1) ≤ s.clock - (s.link.lanes.get l).idleFrom := by
  unfold gapReached accessGap idleTime
  rw [Bool.and_eq_true, Bool.and_eq_true, beq_iff_eq, isHunting_iff, decide_eq_true_iff, and_assoc]

/-- A waiting attempt's command is carried out while the link is up. -/
theorem whileWaiting_waiting {f : CurrentFrame → Tag → State → State} {s : State} {c : CurrentFrame} {d : Tag}
    (hl : s.linkUp = true) (hc : s.link.current = some c) (ha : c.attempt = .waiting d) : whileWaiting f s = f c d s := by
  unfold whileWaiting
  rw [hc]
  dsimp only
  rw [ha]
  exact if_pos hl

/-- A transmitting attempt's command is carried out while the link is up. -/
theorem whileTransmitting_transmitting {f : CurrentFrame → Tag → State → State} {s : State} {c : CurrentFrame} {d : Tag}
    (hl : s.linkUp = true) (hc : s.link.current = some c) (ha : c.attempt = .transmitting d) : whileTransmitting f s = f c d s := by
  unfold whileTransmitting
  rw [hc]
  dsimp only
  rw [ha]
  exact if_pos hl

/-- Settles O19: the bytes heard move the start of the rest alone, and the gap is then reached or not. -/
theorem accessGapStartsTransmission : Obligations.AccessGapStartsTransmission := by
  refine ⟨fun m s r u since c d hq hl hc ha hu hsince => ?_, by decide⟩
  have hrest : since = restFrom r (s.withNow m.tag) := by
    rw [hsince, hu]
    unfold restFrom State.clockAt
    rw [withNow_now]
    rfl
  have hexec : exec (.accessGapReached m r) s =
      .next (takeGap r.lane c ((s.withNow m.tag).setLane r.lane { u with idleFrom := since })) := by
    rw [exec_accessGapReached_quiet m r s hq, whileWaiting_waiting (s := s.withNow m.tag) hl hc ha, hearBytes_eq, ← hrest, hu]
    rfl
  have hgap := gapReached_iff r.lane c ((s.withNow m.tag).setLane r.lane { u with idleFrom := since })
  rw [setLane_run, PerLane.get_set] at hgap
  rw [hexec]
  unfold takeGap
  refine ⟨fun hlane hhunt hlong => ?_, fun hnot => ?_⟩
  · rw [if_pos (hgap.2 ⟨hlane, hhunt, hlong⟩)]
    unfold beginTransmit
    rw [setLane_now, withNow_now]
    rfl
  · rw [if_neg fun h => ?_]
    · rfl
    · obtain ⟨hlane, hhunt, hlong⟩ := hgap.1 h
      rcases hnot with hnot | hnot | hnot
      · exact hnot hlane
      · exact hnot hhunt
      · exact absurd hlong (Nat.not_le.mpr hnot)

/-! ## The receivers (R44, R56, R57) -/

/-- A hunting receiver assembles nothing. -/
theorem assembling_hunting {l : Lane} {s : State} (h : (s.link.lanes.get l).receiver = .hunting) : assembling l s = none := by
  unfold assembling
  rw [h]

/-- What a receiver assembles while the link is up (R56). -/
theorem assembling_some {l : Lane} {s : State} {stamp : Tag} {own : Bool} (hl : s.linkUp = true)
    (h : (s.link.lanes.get l).receiver = .assembling stamp own) : assembling l s = some (stamp, own) := by
  unfold assembling
  rw [h]
  exact if_pos hl

/-- The rest after a broken frame counts from 3 µs back where an early rest broke it (log entry 18). -/
theorem brokenIdleFrom_eq (cause : BrokenCause) (now : Nat) :
    brokenIdleFrom cause now = if cause = .earlyRest then now - 3 else now := by
  cases cause <;> rfl

/-- A complete frame moves to an empty hold buffer, and completes first unless the other lane holds one (R57, R58). -/
theorem completeFrame_held {l : Lane} {s : State} (f : RxFrame) (h : (s.link.lanes.get l).hold = none) :
    completeFrame l f s = s.withLink { s.link with
      lanes := s.link.lanes.set l { s.link.lanes.get l with receiver := .hunting, hold := some f, idleFrom := s.clock }
      holdFirst := if (s.link.lanes.get (otherLane l)).hold = none then l else otherLane l } := by
  unfold completeFrame
  dsimp only
  rw [h]
  dsimp only
  rw [setLane_run, PerLane.get_other]
  simp only [Option.isNone_iff_eq_none]
  rfl

/-- A complete frame that finds the hold buffer full is lost (R57). -/
theorem completeFrame_overrun {l : Lane} {s : State} (f : RxFrame) (h : (s.link.lanes.get l).hold ≠ none) :
    completeFrame l f s = s.setLane l { s.link.lanes.get l with
      receiver := .hunting, overruns := raised (s.link.lanes.get l).overruns, idleFrom := s.clock } := by
  obtain ⟨g, hg⟩ := Option.ne_none_iff_exists'.mp h
  unfold completeFrame
  dsimp only
  rw [hg]

/-- A start bit that finds the receiver assembling breaks the old frame (R56; log entry 28). -/
theorem startFrame_breakFrame (l : Lane) (from_ : Nat) (s : State) :
    startFrame l (breakFrame l from_ s) = s.setLane l { s.link.lanes.get l with
      receiver := .assembling s.now (s.transmitting l), idleFrom := s.clock, broken := raised (s.link.lanes.get l).broken } := by
  unfold startFrame breakFrame
  dsimp only
  rw [setLane_setLane, setLane_run, PerLane.get_set]
  rfl

/-- Settles O25: each command of a receiver is one write of its lane. -/
theorem receiversFollowFrames : Obligations.ReceiversFollowFrames := by
  intro m s l bytes cause u hq hl hu
  subst hu
  have hup : (s.withNow m.tag).linkUp = true := hl
  have hnow : (s.withNow m.tag).now = m.tag := withNow_now s m.tag
  rw [exec_frameStart_quiet m l s hq, if_pos hup, exec_frameComplete_quiet m l bytes s hq, exec_frameBroken_quiet m l cause s hq]
  refine ⟨fun hr => ?_, fun hr => ?_, fun hr => ?_, fun stamp own hr => ⟨fun hh => ?_, fun hh => ?_, ?_⟩⟩
  · unfold beginFrameOn
    rw [assembling_hunting (s := s.withNow m.tag) hr]
    dsimp only
    unfold startFrame
    rw [hnow]
    rfl
  · obtain ⟨stamp, own, hasm⟩ : ∃ stamp own, (s.link.lanes.get l).receiver = .assembling stamp own := by
      cases h : (s.link.lanes.get l).receiver with
      | hunting => exact absurd h hr
      | assembling stamp own => exact ⟨stamp, own, rfl⟩
    unfold beginFrameOn
    rw [assembling_some hup hasm]
    dsimp only
    rw [startFrame_breakFrame, hnow]
    rfl
  · rw [assembling_hunting (s := s.withNow m.tag) hr]
    exact ⟨rfl, rfl⟩
  · rw [assembling_some hup hr]
    dsimp only
    rw [completeFrame_held (s := s.withNow m.tag) _ hh]
    rfl
  · rw [assembling_some hup hr]
    dsimp only
    rw [completeFrame_overrun (s := s.withNow m.tag) _ hh]
    rfl
  · rw [assembling_some hup hr]
    dsimp only
    rw [brokenIdleFrom_eq]
    rfl

/-! ## The frame handler (R58 to R60, R63) -/

/-- The frame taken first is held on its lane. -/
theorem heldFrame_first {k : Link} {l : Lane} {f : RxFrame} (h : heldFrame k = some (l, f))
    (ho : (k.lanes.get (otherLane l)).hold ≠ none) : k.holdFirst = l := by
  unfold heldFrame at h
  split at h
  next => cases h
  next hy =>
    cases h
    exact absurd hy ho
  next hx _ =>
    cases h
    exact absurd hx ho
  next =>
    split at h
    next hf =>
      cases h
      exact hf
    next hf =>
      cases h
      exact hf

/-- A station at work hands a frame to its acceptance, its hold buffer empty. -/
theorem handleFrame_quiet {s : State} (hn : NoBadWord s) (hw : s.atWork = true) (l : Lane) (f : RxFrame) :
    handleFrame l f s = endHandling (acceptFrame l f (beginHandling l f s)) := by
  unfold handleFrame handOut
  rw [if_neg (atWork_not_frozen hw), usingConfig_quiet (s := beginHandling l f s) hn]

/-- Acceptance fails exactly at a check of R59. -/
theorem acceptance_none_iff (hLen : Nat) (f : RxFrame) : acceptance hLen f = none ↔
    frameKindOf f.kindByte = none ∨ stOf f.senderByte = none ∨ f.checkOk = false ∨
      ∃ k, frameKindOf f.kindByte = some k ∧ lengthOk hLen k f.payload = false := by
  unfold acceptance
  cases hk : frameKindOf f.kindByte with
  | none => simp
  | some k =>
    cases hs : stOf f.senderByte with
    | none => simp
    | some st =>
      cases hc : f.checkOk with
      | false => simp
      | true => cases hlen : lengthOk hLen k f.payload <;> simp [hlen]

/-- Settles O26: the handler's effect is the write of the hold buffer, and then what acceptance comes to. -/
theorem handlerRefusesBadFrames : Obligations.HandlerRefusesBadFrames := by
  intro m s l f u hq hheld hu
  subst hu
  have hn : NoBadWord (s.withNow m.tag) := hq.noBadWord
  have hexec : s.linkUp = true → exec (.frameHandlerTake m) s = .next (handleFrame l f (s.withNow m.tag)) := by
    intro hl
    rw [exec_frameHandlerTake_quiet m s hq, withNow_link, hheld]
    exact congrArg _ (if_pos (show (s.withNow m.tag).linkUp = true from hl))
  refine ⟨fun hf => ?_, fun hw ha => ?_, fun k st hw ha hnum hown => ?_, heldFrame_first hheld, acceptance_none_iff _ f⟩
  · rw [hexec (by simp [State.linkUp, hf])]
    exact congrArg _ (if_pos hf)
  · rw [hexec (linkUp_of_atWork hw), handleFrame_quiet hn hw]
    unfold acceptFrame
    rw [show acceptance (Block.histLen (beginHandling l f (s.withNow m.tag)).block) f = none from ha]
    dsimp only
    unfold endHandling rejectFrame beginHandling
    dsimp only
    rw [setLane_run]
    simp only [withLink_link, setLane_link, PerLane.get_set, PerLane.set_set]
    rfl
  · rw [hexec (linkUp_of_atWork hw), handleFrame_quiet hn hw]
    unfold acceptFrame
    rw [show acceptance (Block.histLen (beginHandling l f (s.withNow m.tag)).block) f = some (k, st) from ha]
    dsimp only
    rw [if_pos ⟨hnum, hown⟩]
    unfold raiseNow
    rw [raise_eq, raise_eq _ { s.withNow m.tag with link := _ }]
    rw [raise_port (s := beginHandling l f (s.withNow m.tag)) (t := { s.withNow m.tag with
      link := { s.link with lanes := s.link.lanes.set l { s.link.lanes.get l with hold := none }, handler := none } }) _ rfl]
    rfl

end Sys2Proof.Machine
end

section
/-! PROOFS. Lane health, and the attempt that fails with a retry left (R49 to R51, R54, R55): what a failed and a SENT attempt make of the
Link Unit and of the notice queue, written out. -/

namespace Sys2Proof.Machine

/-! ## Health and the failure run (R54) -/

theorem healthOf_eq_iff (m n : Nat) : healthOf m = healthOf n ↔ (m = 0 ↔ n = 0) ∧ (m ≤ 3 ↔ n ≤ 3) := by
  unfold healthOf
  split <;> split <;> (repeat' split) <;> simp <;> omega

theorem healthOf_faulty_iff (n : Nat) : healthOf n = .faulty ↔ 4 ≤ n := by
  unfold healthOf
  split
  next => simp; omega
  next => split <;> simp <;> omega

/-! ## A failed attempt (R54, R55) -/

/-- The lanes after a failed attempt on one of them. -/
def failedLanes (l : Lane) (k : Link) : PerLane LaneUnit :=
  k.lanes.set l { k.lanes.get l with run := raised255 (k.lanes.get l).run }

/-- The Link Unit after a failed attempt: the fourth failure in a row, which makes the lane FAULTY, loses the link where the other lane is
FAULTY too, and else moves the home lane off the lane. -/
def failedLink (l : Lane) (k : Link) : Link :=
  { k with
    lanes := failedLanes l k
    lost := if (k.lanes.get l).run = 3 ∧ 4 ≤ (k.lanes.get (otherLane l)).run then true else k.lost
    home := if (k.lanes.get l).run = 3 ∧ (k.lanes.get (otherLane l)).run ≤ 3 ∧ l = k.home then otherLane l else k.home }

/-- What a failed attempt notices: the first failure FAILING, the fourth FAULTY and then the link's loss or the home lane's move. -/
def failureNotices (l : Lane) (s : State) : List Notice :=
  if (s.link.lanes.get l).run = 0 then [⟨s.tracker.cycle, s.ownNo, .laneState l (.health .failing)⟩]
  else if (s.link.lanes.get l).run = 3 then
    ⟨s.tracker.cycle, s.ownNo, .laneState l (.health .faulty)⟩ ::
      (if 4 ≤ (s.link.lanes.get (otherLane l)).run then [⟨s.tracker.cycle, s.ownNo, .laneState l .lost⟩]
      else if l = s.link.home then [⟨s.tracker.cycle, s.ownNo, .laneState (otherLane l) .home⟩] else [])
  else []

/-- Notices leave the Link Unit alone. -/
theorem raiseAll_link (ns : List Notice) (s : State) : (raiseAll ns s).link = s.link := by rw [raiseAll_eq, withPort_link]

/-- Notices and a write of the Link Unit do not meet. -/
theorem withLink_raiseAll (ns : List Notice) (k : Link) (s : State) : (raiseAll ns s).withLink k = raiseAll ns (s.withLink k) := by
  rw [raiseAll_eq ns s, raiseAll_eq ns (s.withLink k), raiseAll_port ns (s := s.withLink k) (t := s) rfl]
  rfl

/-- A LANE STATE notice joins the notices before it. -/
theorem laneNotice_raiseAll (l : Lane) (e : LaneEvent) (ns : List Notice) (s : State) :
    laneNotice l e (raiseAll ns s) = raiseAll (ns ++ [⟨s.tracker.cycle, s.ownNo, .laneState l e⟩]) s := by
  unfold laneNotice raiseNow State.ownNo
  rw [raiseAll_append, raiseAll_cons, raiseAll_nil, raiseAll_eq ns s]
  rfl

/-- A lane's failure run moves, and a change of health is noticed (R54). -/
theorem setRun_eq (l : Lane) (run : Nat) (s : State) : setRun l run s =
    raiseAll (if healthOf run = healthOf (s.link.lanes.get l).run then []
      else [⟨s.tracker.cycle, s.ownNo, .laneState l (.health (healthOf run))⟩])
      (s.setLane l { s.link.lanes.get l with run := run }) := by
  unfold setRun
  dsimp only
  split <;> rfl

/-- A lane becomes FAULTY with the fourth failure in a row. -/
theorem becomesFaulty_iff (run : Nat) : (healthOf run ≠ .faulty ∧ healthOf (raised255 run) = .faulty) ↔ run = 3 := by
  rw [ne_eq, healthOf_faulty_iff, healthOf_faulty_iff]
  unfold raised255
  omega

/-- Failures but the first and the fourth change no health (R54). -/
theorem healthOf_raised {run : Nat} (h0 : run ≠ 0) (h3 : run ≠ 3) : healthOf (raised255 run) = healthOf run := by
  rw [healthOf_eq_iff]
  unfold raised255
  omega

theorem failedLink_of_ne_three {l : Lane} {k : Link} (h : (k.lanes.get l).run ≠ 3) :
    failedLink l k = { k with lanes := failedLanes l k } := by
  unfold failedLink
  rw [if_neg fun hc => h hc.1, if_neg fun hc => h hc.1]

/-- Both lanes FAULTY: the link is LOST (R55). -/
theorem failedLink_lost {l : Lane} {k : Link} (h : (k.lanes.get l).run = 3) (ho : 4 ≤ (k.lanes.get (otherLane l)).run) :
    failedLink l k = { k with lanes := failedLanes l k, lost := true } := by
  unfold failedLink
  rw [if_neg fun hc => absurd hc.2.1 (Nat.not_le.mpr ho), if_pos ⟨h, ho⟩]

/-- The home lane FAULTY, the other not: that one is home (R55). -/
theorem failedLink_home {l : Lane} {k : Link} (h : (k.lanes.get l).run = 3) (ho : (k.lanes.get (otherLane l)).run ≤ 3)
    (hl : l = k.home) : failedLink l k = { k with lanes := failedLanes l k, home := otherLane l } := by
  unfold failedLink
  rw [if_pos ⟨h, ho, hl⟩, if_neg fun hc => absurd hc.2 (Nat.not_le.mpr (Nat.lt_succ_of_le ho))]

/-- The lane that is not home FAULTY, the other not: nothing moves (R55). -/
theorem failedLink_away {l : Lane} {k : Link} (ho : (k.lanes.get (otherLane l)).run ≤ 3) (hl : l ≠ k.home) :
    failedLink l k = { k with lanes := failedLanes l k } := by
  unfold failedLink
  rw [if_neg fun hc => hl hc.2.2, if_neg fun hc => absurd hc.2 (Nat.not_le.mpr (Nat.lt_succ_of_le ho))]

/-- A failed attempt writes the Link Unit and raises its notices. -/
theorem laneFailed_eq (l : Lane) (s : State) :
    laneFailed l s = raiseAll (failureNotices l s) (s.withLink (failedLink l s.link)) := by
  unfold laneFailed failureNotices
  dsimp only
  rw [setRun_eq, raiseAll_link]
  by_cases h3 : (s.link.lanes.get l).run = 3
  · have h0 : (s.link.lanes.get l).run ≠ 0 := by omega
    have hfaulty : healthOf (raised255 (s.link.lanes.get l).run) = .faulty := by rw [h3]; rfl
    have hnew : ¬ LaneHealth.faulty = healthOf (s.link.lanes.get l).run := by rw [h3]; decide
    rw [if_pos ((becomesFaulty_iff _).2 h3), hfaulty, if_neg hnew, if_neg h0, if_pos h3]
    by_cases ho : 4 ≤ (s.link.lanes.get (otherLane l)).run
    · rw [if_pos ((healthOf_faulty_iff _).2 ho), if_pos ho, failedLink_lost h3 ho, withLink_raiseAll, laneNotice_raiseAll]
      rfl
    · have ho' : (s.link.lanes.get (otherLane l)).run ≤ 3 := by omega
      rw [if_neg fun h => ho ((healthOf_faulty_iff _).1 h), if_neg ho]
      by_cases hl : l = s.link.home
      · rw [if_pos hl, if_pos hl, failedLink_home h3 ho' hl, withLink_raiseAll, laneNotice_raiseAll]
        rfl
      · rw [if_neg hl, if_neg hl, failedLink_away ho' hl]
        rfl
  · rw [if_neg fun h => h3 ((becomesFaulty_iff _).1 h), failedLink_of_ne_three h3, if_neg h3]
    by_cases h0 : (s.link.lanes.get l).run = 0
    · rw [if_pos h0, h0, if_neg (by decide)]
      unfold failedLanes
      rw [h0]
      rfl
    · rw [if_neg h0, if_pos (healthOf_raised h0 h3)]
      rfl

/-! ## A SENT attempt (R54, R55) -/

/-- The Link Unit after a SENT attempt: the lane's failure run is 0 and the link is not LOST. -/
def sentLink (l : Lane) (k : Link) : Link :=
  { k with lanes := k.lanes.set l { k.lanes.get l with run := 0 }, lost := false }

/-- What a SENT attempt notices: its lane GOOD again, and the end of LOST. -/
def sentNotices (l : Lane) (s : State) : List Notice :=
  (if (s.link.lanes.get l).run = 0 then [] else [⟨s.tracker.cycle, s.ownNo, .laneState l (.health .good)⟩]) ++
    (if s.link.lost = true then [⟨s.tracker.cycle, s.ownNo, .laneState l .restored⟩] else [])

/-- A lane's health is GOOD exactly at run 0. -/
theorem healthOf_zero_eq_iff (run : Nat) : healthOf 0 = healthOf run ↔ run = 0 := by
  rw [healthOf_eq_iff]
  omega

/-- A SENT attempt writes the Link Unit and raises its notices. -/
theorem laneSent_eq (l : Lane) (s : State) : laneSent l s = raiseAll (sentNotices l s) (s.withLink (sentLink l s.link)) := by
  unfold laneSent sentNotices sentLink
  dsimp only
  rw [setRun_eq, raiseAll_link, if_congr (healthOf_zero_eq_iff _) rfl rfl]
  cases hl : s.link.lost with
  | true =>
    rw [if_pos rfl, if_pos rfl, withLink_raiseAll, laneNotice_raiseAll]
    rfl
  | false =>
    rw [if_neg Bool.false_ne_true, if_neg Bool.false_ne_true, List.append_nil, ← hl]
    rfl

/-! ## The end of a failed attempt (R49, R50, R51) -/

/-- What an attempt that ends with this cause leaves of a receiver: CLASH and MUTE take the own-echo mark (log entry 43). -/
def echoAfter (cause : FailCause) (r : Receiver) : Receiver :=
  match r with
  | .assembling stamp own => .assembling stamp (if cause = .starved then own else false)
  | .hunting => .hunting

/-- The failed lane: one failure more, and no own-echo mark after CLASH or MUTE. -/
def failedUnit (cause : FailCause) (u : LaneUnit) : LaneUnit :=
  { u with run := raised255 u.run, receiver := echoAfter cause u.receiver }

/-- The Link Unit after an attempt on lane `l` has ended with this cause. -/
def failedAttempt (l : Lane) (cause : FailCause) (k : Link) : Link :=
  { failedLink l k with lanes := k.lanes.set l (failedUnit cause (k.lanes.get l)) }

theorem echoAfter_starved (r : Receiver) : echoAfter .starved r = r := by cases r <;> rfl

theorem unmarkEcho_eq {cause : FailCause} (h : cause ≠ .starved) (l : Lane) (s : State) : unmarkEcho l s =
    s.setLane l { s.link.lanes.get l with receiver := echoAfter cause (s.link.lanes.get l).receiver } := by
  unfold unmarkEcho
  dsimp only
  split
  next stamp own hr =>
    rw [hr, show echoAfter cause (.assembling stamp own) = .assembling stamp false from
      congrArg (Receiver.assembling stamp) (if_neg h)]
  next hr =>
    have hsame : echoAfter cause (s.link.lanes.get l).receiver = (s.link.lanes.get l).receiver := by
      rw [hr]
      rfl
    rw [hsame]
    exact (setLane_get l s).symm

/-- What the failure makes of the lane, the receiver's mark taken first. -/
theorem laneFailed_echo (l : Lane) (cause : FailCause) (s : State) :
    laneFailed l (s.setLane l { s.link.lanes.get l with receiver := echoAfter cause (s.link.lanes.get l).receiver }) =
      raiseAll (failureNotices l s) (s.withLink (failedAttempt l cause s.link)) := by
  rw [laneFailed_eq]
  unfold failureNotices failedLink failedLanes failedAttempt failedLink failedUnit
  rw [setLane_run, setLane_link]
  simp only [PerLane.get_set, PerLane.get_other, PerLane.set_set]
  rfl

/-- A command that ends an attempt with a failure. -/
theorem exec_fails {m : Moment} {s : State} {c : CurrentFrame} {cmd : Instr} {cause : FailCause} (hq : NoFaultToFind m s)
    (hl : s.linkUp = true) (hc : s.link.current = some c) (hf : FailsNow m c cmd cause) :
    exec cmd s = .next (attemptFailed c cause ((s.withNow m.tag).setLane c.lane { s.link.lanes.get c.lane with
      receiver := echoAfter cause (s.link.lanes.get c.lane).receiver })) := by
  rcases hf with ⟨d, ha, hdue, rfl, rfl⟩ | ⟨stamp, ha, rfl, rfl⟩ | ⟨stamp, i, ha, rfl, rfl⟩
  · rw [exec_accessTimerExpiry_quiet m s hq, whileWaiting_waiting (s := s.withNow m.tag) hl hc ha, echoAfter_starved]
    unfold starve
    rw [withNow_now, if_pos hdue]
    rw [show (s.withNow m.tag).setLane c.lane (s.link.lanes.get c.lane) = s.withNow m.tag from setLane_get c.lane (s.withNow m.tag)]
  · rw [exec_echoMismatch_quiet m s hq, whileTransmitting_transmitting (s := s.withNow m.tag) hl hc ha]
    unfold echoFailed
    rw [unmarkEcho_eq (cause := .clash) (by decide)]
    rfl
  · rw [exec_echoTimeout_quiet m i s hq, whileTransmitting_transmitting (s := s.withNow m.tag) hl hc ha]
    unfold echoFailed
    rw [unmarkEcho_eq (cause := timeoutCause i) (by unfold timeoutCause; split <;> decide)]
    rfl

/-- Whether a read finds a fault is a matter of the Fault Unit alone. -/
theorem NoBadWord.of_fault {s t : State} (h : NoBadWord s) (hf : t.fault = s.fault) : NoBadWord t := by
  intro w
  rw [← h w]
  unfold badParity
  rw [hf]

/-- The station as a failed attempt on its lane leaves it, before the retry or the drop. -/
def laneDown (m : Moment) (l : Lane) (cause : FailCause) (s : State) : State :=
  ((s.withNow m.tag).withLink (failedAttempt l cause s.link)).withPort (raiseAll (failureNotices l s) s).port

theorem laneDown_block (m : Moment) (l : Lane) (cause : FailCause) (s : State) : (laneDown m l cause s).block = s.block :=
  congrArg (·.getD []) (raiseAll_config (failureNotices l s) s)

/-- A failed attempt: the lane is down, and the frame is retried or dropped. -/
theorem exec_fails_laneDown {m : Moment} {s : State} {c : CurrentFrame} {cmd : Instr} {cause : FailCause} (hq : NoFaultToFind m s)
    (hl : s.linkUp = true) (hc : s.link.current = some c) (hf : FailsNow m c cmd cause) :
    exec cmd s = .next (if c.noRetry = true then endDropped c cause (laneDown m c.lane cause s)
      else retryOrDrop c cause (laneDown m c.lane cause s)) := by
  have hdown : laneFailed c.lane ((s.withNow m.tag).setLane c.lane { s.link.lanes.get c.lane with
      receiver := echoAfter cause (s.link.lanes.get c.lane).receiver }) = laneDown m c.lane cause s := by
    refine (laneFailed_echo c.lane cause (s.withNow m.tag)).trans ?_
    rw [raiseAll_eq, raiseAll_port (failureNotices c.lane (s.withNow m.tag))
      (s := (s.withNow m.tag).withLink (failedAttempt c.lane cause (s.withNow m.tag).link)) (t := s) rfl]
    rfl
  have hn : NoBadWord (laneDown m c.lane cause s) := hq.noBadWord.of_fault rfl
  rw [exec_fails hq hl hc hf]
  unfold attemptFailed
  dsimp only
  rw [hdown, readingConfig_quiet hn]

/-- Settles O20: the lane is down, and the retry writes the current frame and its count. -/
theorem failedAttemptIsRetried : Obligations.FailedAttemptIsRetried := by
  intro m s c cmd cause hq hl hc hf hno hretry
  have hexec := exec_fails_laneDown hq hl hc hf
  rw [hno, if_neg Bool.false_ne_true] at hexec
  unfold retryOrDrop at hexec
  rw [laneDown_block, if_pos hretry] at hexec
  refine ⟨_, hexec, ?_, rfl, ?_, ?_, rfl, rfl, rfl, rfl, rfl, rfl, rfl, rfl, rfl, rfl, rfl⟩
  · unfold beginRetry retryLane accessDue settingLane
    rw [laneDown_block, show (laneDown m c.lane cause s).now = m.tag from withNow_now s m.tag]
    rfl
  · exact congrArg (·.run) (PerLane.get_set s.link.lanes c.lane _)
  · exact PerLane.get_other s.link.lanes c.lane _

end Sys2Proof.Machine
end

section
/-! PROOFS. What telling a requester its frame's final outcome leaves alone, where no fault is to be found: the tracker, the Membership Unit,
the table, the lanes and the link's counts, one lemma for each operation that an outcome can reach (R52, R152 to R158). -/

namespace Sys2Proof.Machine

/-- The parts of the station that no requester's answer to an outcome touches. -/
def untoldParts (s : State) : (Tracker × Membership × Evidence) × (Lane × Bool × PerLane LaneUnit) × (Nat × Nat × Nat) :=
  ((s.tracker, s.member, s.evid), (s.link.home, s.link.lost, s.link.lanes), (s.link.sent, s.link.dropped, s.link.retriesBegun))

/-- No bit has flipped but those of the word set aside, and those parts are as in `r`. -/
def Told (r s : State) : Prop := (∀ u ∈ s.fault.flipped, s.fault.faultedWord = some u.word) ∧ untoldParts s = untoldParts r

section
variable {r s : State}

theorem Told.quiet (h : Told r s) : NoBadWord s := noBadWord_of_aside h.1

theorem Told.tracker (h : Told r s) : s.tracker = r.tracker := congrArg (·.1.1) h.2
theorem Told.member (h : Told r s) : s.member = r.member := congrArg (·.1.2.1) h.2
theorem Told.evid (h : Told r s) : s.evid = r.evid := congrArg (·.1.2.2) h.2
theorem Told.home (h : Told r s) : s.link.home = r.link.home := congrArg (·.2.1.1) h.2
theorem Told.lost (h : Told r s) : s.link.lost = r.link.lost := congrArg (·.2.1.2.1) h.2
theorem Told.lanes (h : Told r s) : s.link.lanes = r.link.lanes := congrArg (·.2.1.2.2) h.2
theorem Told.sent (h : Told r s) : s.link.sent = r.link.sent := congrArg (·.2.2.1) h.2
theorem Told.dropped (h : Told r s) : s.link.dropped = r.link.dropped := congrArg (·.2.2.2.1) h.2
theorem Told.retriesBegun (h : Told r s) : s.link.retriesBegun = r.link.retriesBegun := congrArg (·.2.2.2.2) h.2

/-! ## What the blocks share -/

theorem unlessFrozen_told {f : State → State} (hf : ∀ t, Told r t → Told r (f t)) (h : Told r s) : Told r (s.unlessFrozen f) := by
  unfold State.unlessFrozen
  split
  next => exact h
  next => exact hf s h

theorem usingConfig_told {offsets : List Nat} {f : State → State} (h : Told r s) (hf : Told r (f s)) :
    Told r (usingConfig offsets f s) := by
  rw [usingConfig_quiet h.quiet]
  exact hf

theorem usingWords_told {words : List StoreWord} {f : State → State} (h : Told r s) (hf : Told r (f s)) :
    Told r (usingWords words f s) := by
  rw [usingWords_quiet h.quiet]
  exact hf

theorem raise_told (n : Notice) (h : Told r s) : Told r (raise n s) := by
  rw [raise_eq]
  exact h

/-- A selection writes the current frame, the Own Hit Queue and the count of free choices. -/
theorem selectFrame_current (s : State) : ∃ current queue count, selectFrame s =
    ((s.withLink { s.link with current := current }).withChannels { s.channels with queue := queue }).withFreeCount count := by
  have hentry : ∀ (x : Candidate) (t : State), ∃ current queue, selectEntry x t =
      (t.withLink { t.link with current := current }).withChannels { t.channels with queue := queue } := by
    intro x t
    unfold selectEntry
    split
    next ref _ =>
      split
      next d _ => exact ⟨(beginFrame (some ref) d.kind d.payload t).link.current, t.channels.queue, rfl⟩
      next => exact ⟨t.link.current, t.channels.queue, rfl⟩
    next => exact ⟨_, _, rfl⟩
  unfold selectFrame
  split
  next => exact ⟨s.link.current, s.channels.queue, s.freeCount, rfl⟩
  next =>
    split
    next => exact ⟨s.link.current, s.channels.queue, s.freeCount, rfl⟩
    next x _ =>
      obtain ⟨current, queue, hx⟩ := hentry x s
      exact ⟨current, queue, s.freeCount, hx⟩
    next x y xs _ =>
      obtain ⟨current, queue, hx⟩ := hentry ((x :: y :: xs).getD (Config.freeChoice s.freeCount % (x :: y :: xs).length) x)
        (s.withFreeCount (s.freeCount + 1))
      exact ⟨current, queue, s.freeCount + 1, hx⟩

theorem selectFrame_told (h : Told r s) : Told r (selectFrame s) := by
  obtain ⟨current, queue, count, hs⟩ := selectFrame_current s
  rw [hs]
  exact h

theorem selectNext_told (h : Told r s) : Told r (selectNext s) := by
  rw [selectNext_quiet h.quiet]
  exact selectFrame_told h

theorem request_told (kind : FrameKind) (payload : List Byte) {taken : Nat → State → State} {refused : State → State}
    (ht : ∀ ref t, Told r t → Told r (taken ref t)) (hr : Told r (refused s)) (h : Told r s) :
    Told r (request kind payload taken refused s) := by
  unfold request
  split
  next => exact selectNext_told (ht _ (enqueue kind payload s) h)
  next => exact hr

/-! ## The Hit Window and the channels (R35 to R38, R80) -/

/-- Where no read finds a fault, the entries of the Hit Window stay, and the group's re-forming finds nothing. -/
theorem formGroup_quiet (h : NoBadWord s) : formGroup s = s := by
  have hcheck : checkWindow s = s := by
    have hnone : (s.coin.window.filter fun e => badParity s (.window e.id)) = [] := by simp [h _]
    unfold checkWindow
    rw [hnone]
    rfl
  unfold formGroup
  rw [hcheck]
  dsimp only
  rw [usingConfig_quiet h]
  split <;> rfl

theorem requestRemoval_told (id : HitId) (h : Told r s) : Told r (requestRemoval id s) := by
  have hremove : Told r (removeHit id s) := ⟨fun u hu => h.1 u (List.mem_filter.mp hu).1, h.2⟩
  unfold requestRemoval
  split
  next =>
    rw [formGroup_quiet hremove.quiet]
    exact hremove
  next => exact h

theorem settleCapture_told (c : Channel) (arrival : Tag) (new : Capture) (h : Told r s) : Told r (settleCapture c arrival new s) := by
  unfold settleCapture
  split
  next =>
    split
    next => exact h
    next => exact h
  next => exact h

theorem discardHit_told (c : Channel) (hit : Option OpenHit) (h : Told r s) : Told r (discardHit c hit s) := by
  unfold discardHit
  split
  next => exact h
  next =>
    split
    next => exact requestRemoval_told _ h
    next => exact settleCapture_told _ _ _ h
    next => exact h

theorem muteChannel_told (c : Channel) (h : Told r s) : Told r (muteChannel c s) := by
  unfold muteChannel
  dsimp only
  split
  next => exact h
  next => exact discardHit_told c _ h

theorem unmuteChannel_told (c : Channel) (h : Told r s) : Told r (unmuteChannel c s) := by
  unfold unmuteChannel
  dsimp only
  split
  next =>
    split
    next => exact usingConfig_told h h
    next => exact h
  next => exact h

theorem remute_told (c : Channel) (h : Told r s) : Told r (remute c s) := by
  unfold remute
  split
  next => exact muteChannel_told c h
  next => exact h

theorem releaseChannel_told (c : Channel) (h : Told r s) : Told r (releaseChannel c s) := by
  unfold releaseChannel
  split
  next => exact usingConfig_told h (remute_told c h)
  next => exact h

/-! ## The slot and the pulse window (R151 to R158) -/

theorem releasePulse_told (h : Told r s) : Told r (releasePulse s) := by
  refine usingConfig_told h ?_
  unfold releaseNamed
  split
  next => exact releaseChannel_told _ h
  next => exact h

theorem armChannel_told (c : Channel) (h : Told r s) : Told r (armChannel c s) :=
  request_told _ _ (fun _ _ ht => ht) (releaseChannel_told c h) h

theorem offerPulse_told (h : Told r s) : Told r (offerPulse s) := by
  unfold offerPulse
  split
  next c _ =>
    split
    next => exact armChannel_told c h
    next => exact h
  next => exact h

theorem offerInTime_told (tag : Tag) (h : Told r s) : Told r (offerInTime tag s) := by
  unfold offerInTime
  split
  next => exact h
  next => exact usingConfig_told h (offerPulse_told h)

theorem reofferPulse_told (h : Told r s) : Told r (reofferPulse s) := by
  unfold reofferPulse
  split
  next tag _ => exact usingConfig_told h (offerInTime_told tag h)
  next => exact h

theorem askChannel_told (c : Channel) (ask : MuteRequest) (h : Told r s) : Told r (askChannel c ask s) := by
  cases ask with
  | none => exact h
  | mute => exact muteChannel_told c h
  | unmute => exact unmuteChannel_told c h

theorem judgeRecordOf_told (w : PulseWindow) (c : Channel) (h : Told r s) : Told r (judgeRecordOf w c s) := by
  unfold judgeRecordOf
  refine askChannel_told c _ ?_
  split
  next => exact h
  next => exact raise_told _ h

theorem judgeSensor_told (w : PulseWindow) (c : Channel) (h : Told r s) : Told r (judgeSensor w c s) := by
  refine usingConfig_told h ?_
  unfold judgeIfReferred
  split
  next => exact usingConfig_told h (judgeRecordOf_told w c h)
  next => exact h

theorem judgeSensors_told (w : PulseWindow) (cs : List Channel) (h : Told r s) : Told r (judgeSensors w cs s) := by
  induction cs generalizing s with
  | nil => exact h
  | cons c cs ih => exact unlessFrozen_told (fun t ht => ih ht) (judgeSensor_told w c h)

theorem judgeIfReady_told (h : Told r s) : Told r (judgeIfReady s) := by
  unfold judgeIfReady
  split
  next w _ =>
    split
    next => exact unlessFrozen_told (fun t ht => reofferPulse_told ht) (judgeSensors_told w _ h)
    next => exact h
  next => exact h

/-! ## The requesters (R90, R94, R134, R141, R142, R152, R173) -/

theorem controlOutcome_told (ref : Nat) (wasSent : Bool) (cause : Option FailCause) (retries : Nat) (h : Told r s) :
    Told r (controlOutcome ref wasSent cause retries s) := by
  unfold controlOutcome
  split
  next c _ =>
    split
    next =>
      have hport : Told r (s.withPort { s.port with control := none }) := h
      unfold controlResult
      rw [boardReads_quiet hport.quiet]
      exact raise_told _ hport
    next => exact h
  next => exact h

theorem eventOutcome_told (ref : Nat) (wasSent : Bool) (h : Told r s) : Told r (eventOutcome ref wasSent s) := by
  cases wasSent with
  | true => exact h
  | false => exact h

theorem pulseOutcome_told (ref : Nat) (wasSent : Bool) (stamp : Tag) (h : Told r s) : Told r (pulseOutcome ref wasSent stamp s) := by
  unfold pulseOutcome
  split
  next =>
    split
    next =>
      split
      next => exact h
      next => exact judgeIfReady_told (releasePulse_told h)
    next => exact h
  next => exact h

theorem digestOutcome_told (wasSent : Bool) (h : Told r s) : Told r (digestOutcome wasSent s) := by
  cases wasSent with
  | true => exact h
  | false => exact h

theorem abortTransfer_told (h : Told r s) : Told r (abortTransfer s) := raise_told _ h

theorem sendRow_told (first : Nat) (h : Told r s) : Told r (sendRow first s) := by
  unfold sendRow
  split
  next => exact h
  next =>
    refine usingConfig_told h (usingWords_told h (usingConfig_told h ?_))
    exact request_told _ _ (fun _ _ ht => ht) (abortTransfer_told h) h

theorem rowOutcome_told (ref : Nat) (wasSent : Bool) (h : Told r s) : Told r (rowOutcome ref wasSent s) := by
  unfold rowOutcome
  split
  next nextFirst _ last _ =>
    split
    next =>
      split
      next =>
        dsimp only
        split
        next => exact raise_told _ h
        next => exact sendRow_told nextFirst h
      next => exact abortTransfer_told h
    next => exact h
  next => exact h

/-- Every requester but the Fault Unit (R52). -/
theorem reportOutcome_told (c : CurrentFrame) (wasSent : Bool) (stamp : Tag) (hk : c.kind ≠ .logout) (h : Told r s) :
    Told r (reportOutcome c wasSent stamp s) := by
  unfold reportOutcome
  split
  next => exact h
  next ref _ =>
    split
    next hl => exact absurd hl hk
    next => exact controlOutcome_told ref wasSent c.lastFailure c.retries h
    next => exact eventOutcome_told ref wasSent h
    next => exact pulseOutcome_told ref wasSent stamp h
    next => exact digestOutcome_told wasSent h
    next => exact rowOutcome_told ref wasSent h
    next => exact h
    next => exact h

/-- An outcome is told, or cut from its requester by a freeze, and the next frame is selected (R52, R63). -/
theorem tellOutcome_told (c : CurrentFrame) (wasSent : Bool) (stamp : Tag) (hk : c.kind ≠ .logout ∨ c.unreported = true)
    (h : Told r s) : Told r (tellOutcome c wasSent stamp s) := by
  unfold tellOutcome
  refine selectNext_told ?_
  split
  next => exact h
  next hu => exact reportOutcome_told c wasSent stamp (hk.resolve_right hu) h

end

end Sys2Proof.Machine
end

section
/-! PROOFS. The final outcome of a frame where no fault is to be found (R50, R52 to R55, R63, R76): the station that the outcome leaves is
written out, and what the requester is told and the next selection leave it in follows from it. -/

namespace Sys2Proof.Machine

/-! ## The station a final outcome leaves -/

/-- The Link Unit once the frame is over: counted, with its descriptor gone (R52). -/
def overLink (c : CurrentFrame) (wasSent : Bool) (k : Link) : Link :=
  { k with
    current := none
    queue := k.queue.filter fun d => c.ref != some d.ref
    sent := if wasSent then raised k.sent else k.sent
    dropped := if wasSent then k.dropped else raised k.dropped }

/-- The Link Unit after the last attempt, SENT or failed, on lane `l` (R54, R55). -/
def endedLink (l : Lane) (failure : Option FailCause) (k : Link) : Link :=
  match failure with
  | none => sentLink l k
  | some cause => failedAttempt l cause k

/-- What the last attempt notices (R54, R55). -/
def endNotices (l : Lane) (failure : Option FailCause) (s : State) : List Notice :=
  match failure with
  | none => sentNotices l s
  | some _ => failureNotices l s

/-- The Membership Unit after the outcome: SENT restarts the presence timer of a station at work (R76). -/
def endMember (tag : Tag) (failure : Option FailCause) (s : State) : Membership :=
  match failure with
  | none => { s.member with
      presenceTimer := if s.atWork then some (tag + span (Block.presence10Ms s.block * 10000)) else s.member.presenceTimer }
  | some _ => s.member

/-- The station once the frame is over, before its requester is told and the next frame is selected. -/
def frameOver (m : Moment) (c : CurrentFrame) (failure : Option FailCause) (s : State) : State :=
  (((s.withNow m.tag).withLink (overLink c failure.isNone (endedLink c.lane failure s.link))).withMember
    (endMember m.tag failure s)).withPort (raiseAll (endNotices c.lane failure s) s).port

theorem frameOver_told {m : Moment} {s : State} (hq : NoFaultToFind m s) (c : CurrentFrame) (failure : Option FailCause) :
    Told (frameOver m c failure s) (frameOver m c failure s) := ⟨hq.2.2, rfl⟩

theorem frameOver_block (m : Moment) (c : CurrentFrame) (failure : Option FailCause) (s : State) :
    (frameOver m c failure s).block = s.block :=
  congrArg (·.getD []) (raiseAll_config (endNotices c.lane failure s) s)

/-- The station as a SENT attempt leaves its lane. -/
def laneUp (m : Moment) (l : Lane) (s : State) : State :=
  ((s.withNow m.tag).withLink (sentLink l s.link)).withPort (raiseAll (sentNotices l s) s).port

theorem laneUp_block (m : Moment) (l : Lane) (s : State) : (laneUp m l s).block = s.block :=
  congrArg (·.getD []) (raiseAll_config (sentNotices l s) s)

theorem laneSent_laneUp (m : Moment) (l : Lane) (s : State) : laneSent l (s.withNow m.tag) = laneUp m l s := by
  rw [laneSent_eq, raiseAll_eq, raiseAll_port (sentNotices l (s.withNow m.tag))
    (s := (s.withNow m.tag).withLink (sentLink l (s.withNow m.tag).link)) (t := s) rfl]
  rfl

/-- The presence timer of a SENT frame's station at work starts again at the moment of the outcome (R76). -/
theorem restartPresence_over (m : Moment) (c : CurrentFrame) {s : State} (hw : s.atWork = true) :
    restartPresence (removeCurrent c true (laneUp m c.lane s)) = frameOver m c none s := by
  unfold restartPresence presencePeriod frameOver endMember
  rw [show (removeCurrent c true (laneUp m c.lane s)).block = s.block from laneUp_block m c.lane s,
    show (removeCurrent c true (laneUp m c.lane s)).now = m.tag from withNow_now s m.tag, if_pos hw]
  rfl

/-- Out of work it stays. -/
theorem removeCurrent_over (m : Moment) (c : CurrentFrame) {s : State} (hw : ¬ s.atWork = true) :
    removeCurrent c true (laneUp m c.lane s) = frameOver m c none s := by
  unfold frameOver endMember
  rw [if_neg hw]
  rfl

/-- A SENT frame is over, its requester told (R52, R76). -/
theorem exec_attemptSent_over {m : Moment} {s : State} {c : CurrentFrame} {stamp : Tag} (hq : NoFaultToFind m s)
    (hl : s.linkUp = true) (hc : s.link.current = some c) (ha : c.attempt = .transmitting stamp) :
    exec (.attemptSent m) s = .next (tellOutcome c true stamp (frameOver m c none s)) := by
  have hn : NoBadWord (removeCurrent c true (laneUp m c.lane s)) := hq.noBadWord.of_fault rfl
  have hwork : (removeCurrent c true (laneUp m c.lane s)).atWork = s.atWork := rfl
  rw [exec_attemptSent_quiet m s hq, whileTransmitting_transmitting (s := s.withNow m.tag) hl hc ha]
  unfold attemptSucceeded endSent
  dsimp only
  rw [laneSent_laneUp, usingConfig_quiet hn, hwork]
  by_cases hw : s.atWork = true
  · rw [if_pos hw]
    unfold tellSent
    rw [restartPresence_over m c hw]
  · rw [if_neg hw, removeCurrent_over m c hw]

/-- Every command that brings a frame to its final outcome: the frame is over, and its requester is told. -/
theorem exec_ends {m : Moment} {s : State} {c : CurrentFrame} {cmd : Instr} {failure : Option FailCause} (hq : NoFaultToFind m s)
    (hl : s.linkUp = true) (hc : s.link.current = some c) (he : EndsNow m s c cmd failure) :
    ∃ stamp, (failure = none → c.attempt = .transmitting stamp) ∧
      exec cmd s = .next (tellOutcome { c with lastFailure := failure.or c.lastFailure } failure.isNone stamp
        (frameOver m c failure s)) := by
  rcases he with ⟨rfl, ⟨stamp, ha⟩, rfl⟩ | ⟨cause, rfl, hf, hlast⟩
  · exact ⟨stamp, fun _ => ha, exec_attemptSent_over hq hl hc ha⟩
  · refine ⟨0, fun h => absurd h (Option.some_ne_none cause), ?_⟩
    have hdrop : (if c.noRetry = true then endDropped c cause (laneDown m c.lane cause s)
        else retryOrDrop c cause (laneDown m c.lane cause s)) = endDropped c cause (laneDown m c.lane cause s) := by
      split
      next => rfl
      next hno =>
        unfold retryOrDrop
        rw [laneDown_block, if_neg (Nat.not_lt.mpr (hlast.resolve_left hno))]
    rw [exec_fails_laneDown hq hl hc hf, hdrop]
    rfl

/-! ## The next selection -/

/-- With nothing waiting, nothing is selected (R48). -/
theorem selectNext_idle {s : State} (hl : s.link.queue = []) (hq : s.channels.queue = []) : selectNext s = s := by
  have hnone : candidates s = [] := by
    unfold candidates
    rw [hl, hq]
    rfl
  unfold selectNext
  rw [hnone]
  exact if_pos (Bool.or_true _)

/-- A frame whose outcome nobody acts on (R53, R63, R76). -/
theorem tellOutcome_unasked {c : CurrentFrame} (h : c.ref = none ∨ c.kind = .presence ∨ c.unreported = true) (wasSent : Bool)
    (stamp : Tag) (s : State) : tellOutcome c wasSent stamp s = selectNext s := by
  unfold tellOutcome
  split
  next => rfl
  next hu =>
    unfold reportOutcome
    rcases h with h | h | h
    · rw [h]
    · rw [h]
      split <;> rfl
    · exact absurd h hu

/-- A SENT DIGEST asks for nothing (R134). -/
theorem tellOutcome_digestSent {c : CurrentFrame} (h : c.kind = .digest) (stamp : Tag) (s : State) :
    tellOutcome c true stamp s = selectNext s := by
  unfold tellOutcome reportOutcome
  rw [h]
  split
  next => rfl
  next => split <;> rfl

/-- Where no other descriptor waits, the frame leaves the transmit queue empty. -/
theorem overLink_queue_empty {c : CurrentFrame} {k : Link} (wasSent : Bool) (h : ∀ d ∈ k.queue, c.ref = some d.ref) :
    (overLink c wasSent k).queue = [] := by
  unfold overLink
  rw [List.filter_eq_nil_iff]
  intro d hd
  rw [h d hd]
  simp

theorem endedLink_queue (l : Lane) (failure : Option FailCause) (k : Link) : (endedLink l failure k).queue = k.queue := by
  cases failure <;> rfl

/-- Where nothing else waits, nothing is selected after the frame. -/
theorem frameOver_idle {m : Moment} {s : State} {c : CurrentFrame} (failure : Option FailCause) (hch : s.channels.queue = [])
    (h : ∀ d ∈ s.link.queue, c.ref = some d.ref) :
    (frameOver m c failure s).link.queue = [] ∧ selectNext (frameOver m c failure s) = frameOver m c failure s := by
  have hq : (frameOver m c failure s).link.queue = [] :=
    overLink_queue_empty failure.isNone (by rw [endedLink_queue]; exact h)
  exact ⟨hq, selectNext_idle hq hch⟩

/-! ## DROPPED (R51 to R54) -/

/-- Settles O21: the frame is over, and only what an outcome may touch is touched after. -/
theorem lastFailureDropsFrame : Obligations.LastFailureDropsFrame := by
  intro m s c cmd cause hq hl hc hf hlast
  obtain ⟨stamp, -, hexec⟩ := exec_ends hq hl hc (Or.inr ⟨cause, rfl, hf, hlast⟩)
  refine ⟨fun hk => ?_, fun hun hch hd => ?_⟩
  · have ht := tellOutcome_told { c with lastFailure := (some cause).or c.lastFailure } (some cause).isNone stamp hk
      (frameOver_told hq c (some cause))
    refine ⟨_, hexec, ht.dropped, ht.sent, ht.retriesBegun, ?_, ht.tracker, ht.evid⟩
    rw [ht.lanes]
    exact congrArg (·.run) (PerLane.get_set s.link.lanes c.lane _)
  · obtain ⟨hempty, hidle⟩ := frameOver_idle (m := m) (some cause) hch hd
    rw [tellOutcome_unasked (c := { c with lastFailure := (some cause).or c.lastFailure }) hun, hidle] at hexec
    exact ⟨_, hexec, rfl, hempty, rfl, rfl, rfl, rfl, rfl, rfl⟩

/-! ## SENT (R50, R52, R54, R55, R76) -/

/-- Settles O22: the frame is over, and only what an outcome may touch is touched after. -/
theorem sentAttemptCompletesFrame : Obligations.SentAttemptCompletesFrame := by
  intro m s c stamp hq hl hc ha
  have hexec := exec_attemptSent_over hq hl hc ha
  refine ⟨fun hk => ?_, fun hun hch hd => ?_⟩
  · have ht := tellOutcome_told c true stamp hk (frameOver_told hq c none)
    refine ⟨_, hexec, ht.sent, ht.dropped, ht.lost, ?_, ht.home, ht.member, ht.tracker, ht.evid⟩
    rw [ht.lanes]
    exact congrArg (·.run) (PerLane.get_set s.link.lanes c.lane _)
  · obtain ⟨hempty, hidle⟩ := frameOver_idle (m := m) none hch hd
    have htell : tellOutcome c true stamp (frameOver m c none s) = frameOver m c none s := by
      by_cases hdig : c.kind = .digest
      · rw [tellOutcome_digestSent hdig, hidle]
      · rw [tellOutcome_unasked (by tauto), hidle]
    rw [htell] at hexec
    exact ⟨_, hexec, rfl, hempty, rfl, rfl, rfl, rfl, rfl⟩

/-! ## Notices (R54, R55) -/

/-- A selection raises no notice. -/
theorem selectFrame_port (s : State) : (selectFrame s).port = s.port := by
  obtain ⟨_, _, _, hs⟩ := selectFrame_current s
  rw [hs]
  rfl

/-- The requesters of these frames raise no notice (R52, R53, R76, R90, R134). -/
theorem reportOutcome_port {c : CurrentFrame} (h : c.kind = .hit ∨ c.kind = .event ∨ c.kind = .digest ∨ c.kind = .presence)
    (wasSent : Bool) (stamp : Tag) (s : State) : (reportOutcome c wasSent stamp s).port = s.port := by
  unfold reportOutcome
  split
  next => rfl
  next ref _ =>
    rcases h with h | h | h | h <;> rw [h]
    · cases wasSent <;> rfl
    · cases wasSent <;> rfl

theorem tellOutcome_port {c : CurrentFrame} {r s : State} (ht : Told r s)
    (h : c.kind = .hit ∨ c.kind = .event ∨ c.kind = .digest ∨ c.kind = .presence ∨ c.unreported = true) (wasSent : Bool)
    (stamp : Tag) : Told r (tellOutcome c wasSent stamp s) ∧ (tellOutcome c wasSent stamp s).port = s.port := by
  by_cases hu : c.unreported = true
  · refine ⟨tellOutcome_told c wasSent stamp (Or.inr hu) ht, ?_⟩
    rw [tellOutcome_unasked (Or.inr (Or.inr hu)), selectNext_quiet ht.quiet, selectFrame_port]
  · have hk : c.kind = .hit ∨ c.kind = .event ∨ c.kind = .digest ∨ c.kind = .presence := by tauto
    have hnot : c.kind ≠ .logout := by rcases hk with h | h | h | h <;> rw [h] <;> decide
    refine ⟨tellOutcome_told c wasSent stamp (Or.inl hnot) ht, ?_⟩
    unfold tellOutcome
    rw [if_neg hu, selectNext_quiet (reportOutcome_told c wasSent stamp hnot ht).quiet, selectFrame_port,
      reportOutcome_port hk]

/-- The next station of a failed attempt, of a retry as of a frame that raises no other notice, in what its lane's health shows. -/
theorem exec_fails_lanes {m : Moment} {s : State} {c : CurrentFrame} {cmd : Instr} {cause : FailCause} (hq : NoFaultToFind m s)
    (hl : s.linkUp = true) (hc : s.link.current = some c) (hf : FailsNow m c cmd cause)
    (hk : (c.noRetry = false ∧ c.retries < Block.retryCount s.block) ∨ c.kind = .hit ∨ c.kind = .event ∨ c.kind = .digest ∨
      c.kind = .presence ∨ c.unreported = true) :
    ∃ t, exec cmd s = .next t ∧ t.link.lanes = s.link.lanes.set c.lane (failedUnit cause (s.link.lanes.get c.lane)) ∧
      t.link.lost = (failedLink c.lane s.link).lost ∧ t.link.home = (failedLink c.lane s.link).home ∧
      t.port = (raiseAll (failureNotices c.lane s) s).port := by
  by_cases hr : c.noRetry = false ∧ c.retries < Block.retryCount s.block
  · obtain ⟨hno, hretry⟩ := hr
    have hexec := exec_fails_laneDown hq hl hc hf
    rw [hno, if_neg Bool.false_ne_true] at hexec
    unfold retryOrDrop at hexec
    rw [laneDown_block, if_pos hretry] at hexec
    exact ⟨_, hexec, rfl, rfl, rfl, rfl⟩
  · have hlast : c.noRetry = true ∨ Block.retryCount s.block ≤ c.retries := by
      cases hno : c.noRetry with
      | true => exact Or.inl rfl
      | false => exact Or.inr (Nat.not_lt.mp fun hlt => hr ⟨hno, hlt⟩)
    obtain ⟨stamp, -, hexec⟩ := exec_ends hq hl hc (Or.inr ⟨cause, rfl, hf, hlast⟩)
    obtain ⟨ht, hport⟩ := tellOutcome_port (c := { c with lastFailure := (some cause).or c.lastFailure })
      (frameOver_told hq c (some cause)) (hk.resolve_left hr) (some cause).isNone stamp
    exact ⟨_, hexec, ht.lanes, ht.lost, ht.home, hport⟩

/-- Settles O23: the failed and the SENT attempt's Link Unit and notices, run by run. -/
theorem laneHealthIsNoticed : Obligations.LaneHealthIsNoticed := by
  refine ⟨fun m s c cmd cause run other hq hl hc hf hrun hother hk => ?_, fun m s c stamp run hq hl hc ha hrun hk => ?_, fun _ => rfl⟩
  · obtain ⟨t, hexec, hlanes, hlost, hhome, hport⟩ := exec_fails_lanes hq hl hc hf hk
    refine ⟨t, hexec, ?_⟩
    rw [hlost, hhome, hport, hlanes, PerLane.get_set]
    subst hrun hother
    refine ⟨rfl, fun h3 => ?_, fun h3 ho => ?_, fun h3 ho hh => ?_, fun h3 ho hh => ?_, fun stamp own hr => ?_⟩
    · rw [failedLink_of_ne_three h3]
      unfold failureNotices
      rw [if_neg h3]
      exact ⟨rfl, rfl, rfl⟩
    · have h0 : ¬ (s.link.lanes.get c.lane).run = 0 := by omega
      rw [failedLink_lost h3 ho]
      unfold failureNotices
      rw [if_neg h0, if_pos h3, if_pos ho]
      exact ⟨rfl, rfl, rfl⟩
    · have h0 : ¬ (s.link.lanes.get c.lane).run = 0 := by omega
      rw [failedLink_home h3 ho hh]
      unfold failureNotices
      rw [if_neg h0, if_pos h3, if_neg (Nat.not_le.mpr (Nat.lt_succ_of_le ho)), if_pos hh]
      exact ⟨rfl, rfl, rfl⟩
    · have h0 : ¬ (s.link.lanes.get c.lane).run = 0 := by omega
      rw [failedLink_away ho hh]
      unfold failureNotices
      rw [if_neg h0, if_pos h3, if_neg (Nat.not_le.mpr (Nat.lt_succ_of_le ho)), if_neg hh]
      exact ⟨rfl, rfl, rfl⟩
    · exact congrArg (echoAfter cause) hr
  · obtain ⟨ht, hport⟩ := tellOutcome_port (frameOver_told hq c none) hk true stamp
    subst hrun
    refine ⟨_, exec_attemptSent_over hq hl hc ha, ?_, ht.lost, ht.home, hport⟩
    rw [ht.lanes]
    exact congrArg (·.run) (PerLane.get_set s.link.lanes c.lane _)

end Sys2Proof.Machine
end

section
/-! PROOFS. What each requester makes of its frame's final outcome where no fault is to be found (R52, R90, R94, R134, R141, R142, R152,
R173): the requester's answer to the station in which the frame is over, and the selection after it. -/

namespace Sys2Proof.Machine

/-! ## The answer and the selection -/

/-- What the selection after an answer leaves as the answer has it: all but the current frame, the Own Hit Queue and the count of free
choices (R48). -/
def SelectedFrom (x t : State) : Prop :=
  ∃ current queue count, t =
    ((x.withLink { x.link with current := current }).withChannels { x.channels with queue := queue }).withFreeCount count

section
variable {x t : State}

theorem SelectedFrom.tracker (h : SelectedFrom x t) : t.tracker = x.tracker := by obtain ⟨_, _, _, rfl⟩ := h; rfl
theorem SelectedFrom.units (h : SelectedFrom x t) : t.channels.units = x.channels.units := by obtain ⟨_, _, _, rfl⟩ := h; rfl
theorem SelectedFrom.queue (h : SelectedFrom x t) : t.link.queue = x.link.queue := by obtain ⟨_, _, _, rfl⟩ := h; rfl
theorem SelectedFrom.coin (h : SelectedFrom x t) : t.coin = x.coin := by obtain ⟨_, _, _, rfl⟩ := h; rfl
theorem SelectedFrom.evid (h : SelectedFrom x t) : t.evid = x.evid := by obtain ⟨_, _, _, rfl⟩ := h; rfl
theorem SelectedFrom.agree (h : SelectedFrom x t) : t.agree = x.agree := by obtain ⟨_, _, _, rfl⟩ := h; rfl
theorem SelectedFrom.coup (h : SelectedFrom x t) : t.coup = x.coup := by obtain ⟨_, _, _, rfl⟩ := h; rfl
theorem SelectedFrom.fault (h : SelectedFrom x t) : t.fault = x.fault := by obtain ⟨_, _, _, rfl⟩ := h; rfl
theorem SelectedFrom.port (h : SelectedFrom x t) : t.port = x.port := by obtain ⟨_, _, _, rfl⟩ := h; rfl

end

theorem selectFrame_from (x : State) : SelectedFrom x (selectFrame x) := selectFrame_current x

/-- The frame `c` of requester `r` comes to its final outcome with this command. -/
structure Heard (m : Moment) (s : State) (c : CurrentFrame) (cmd : Instr) (failure : Option FailCause) (r : Nat) : Prop where
  quiet : NoFaultToFind m s
  up : s.linkUp = true
  current : s.link.current = some c
  ref : c.ref = some r
  reported : c.unreported = false
  ends : EndsNow m s c cmd failure

/-- The frame that a final outcome is told of: the cause of a failed last attempt is its last failure (R52). -/
def concluded (failure : Option FailCause) (c : CurrentFrame) : CurrentFrame := { c with lastFailure := failure.or c.lastFailure }

/-- The answer to a final outcome other than a LOGOUT's, and the selection after it. -/
theorem Heard.exec_answer {m : Moment} {s : State} {c : CurrentFrame} {cmd : Instr} {failure : Option FailCause} {r : Nat}
    (h : Heard m s c cmd failure r) (hk : c.kind ≠ .logout) :
    ∃ stamp t, (failure = none → c.attempt = .transmitting stamp) ∧ exec cmd s = .next t ∧
      SelectedFrom (reportOutcome (concluded failure c) failure.isNone stamp (frameOver m c failure s)) t := by
  obtain ⟨stamp, hstamp, hexec⟩ := exec_ends h.quiet h.up h.current h.ends
  refine ⟨stamp, _, hstamp, hexec, ?_⟩
  show SelectedFrom _ (tellOutcome (concluded failure c) failure.isNone stamp (frameOver m c failure s))
  unfold tellOutcome
  rw [if_neg (by rw [concluded, h.reported]; exact Bool.false_ne_true), selectNext_quiet
    (reportOutcome_told (concluded failure c) failure.isNone stamp hk (frameOver_told h.quiet c failure)).quiet]
  exact selectFrame_from _

/-! ## What a final outcome leaves as it was -/

section
variable (m : Moment) (c : CurrentFrame) (failure : Option FailCause) (s : State)

theorem frameOver_ownNo : (frameOver m c failure s).ownNo = s.ownNo := by cases failure <;> rfl
theorem frameOver_nextRef : (frameOver m c failure s).link.nextRef = s.link.nextRef := by cases failure <;> rfl
theorem frameOver_queue : (frameOver m c failure s).link.queue = s.link.queue.filter fun d => c.ref != some d.ref :=
  congrArg (List.filter fun d : Descriptor => c.ref != some d.ref) (endedLink_queue c.lane failure s.link)
theorem frameOver_now : (frameOver m c failure s).now = m.tag := withNow_now s m.tag

theorem frameOver_pulseChannel : pulseChannel (frameOver m c failure s) = pulseChannel s := by
  unfold pulseChannel
  rw [frameOver_block, frameOver_ownNo]

theorem frameOver_listenState :
    listenState (frameOver m c failure s) = if s.listening || s.windowOpen then .quiet else .hush := by
  unfold listenState State.listening
  rw [frameOver_block]
  rfl

theorem raiseAll_control (ns : List Notice) (s : State) : (raiseAll ns s).port.control = s.port.control := by
  induction ns generalizing s with
  | nil => rfl
  | cons n ns ih => exact (ih _).trans (raise_control n s)

theorem frameOver_control : (frameOver m c failure s).port.control = s.port.control := raiseAll_control _ s

end

/-! ## Notices -/

/-- A notice that finds room is appended (R174). -/
theorem raise_appends {n : Notice} {s : State} (h : s.port.notices.length < 32) :
    raise n s = s.withPort { s.port with notices := s.port.notices ++ [n] } := if_pos h

theorem raise_notices_length (n : Notice) (s : State) : (raise n s).port.notices.length ≤ s.port.notices.length + 1 := by
  unfold raise
  dsimp only
  split
  next => exact Nat.le_of_eq List.length_append
  next => exact Nat.le_succ _

theorem raiseAll_notices_length (ns : List Notice) (s : State) :
    (raiseAll ns s).port.notices.length ≤ s.port.notices.length + ns.length := by
  induction ns generalizing s with
  | nil => exact Nat.le_refl _
  | cons n ns ih =>
    have hn := raise_notices_length n s
    have hns := ih (raise n s)
    rw [raiseAll_cons, List.length_cons]
    omega

theorem endNotices_length (l : Lane) (failure : Option FailCause) (s : State) : (endNotices l failure s).length ≤ 2 := by
  cases failure with
  | none =>
    show (sentNotices l s).length ≤ 2
    unfold sentNotices
    split <;> split <;> simp
  | some cause =>
    show (failureNotices l s).length ≤ 2
    unfold failureNotices
    split
    next => exact Nat.le_succ 1
    next =>
      split
      next =>
        split
        next => exact Nat.le_refl 2
        next => split <;> simp
      next => exact Nat.zero_le 2

/-- A last attempt raises two notices at most, so the requester's own finds room where three places are free. -/
theorem frameOver_room {m : Moment} {c : CurrentFrame} {failure : Option FailCause} {s : State} (h : s.port.notices.length < 30) :
    (frameOver m c failure s).port.notices.length < 32 := by
  have hall : (frameOver m c failure s).port.notices.length ≤ s.port.notices.length + (endNotices c.lane failure s).length :=
    raiseAll_notices_length _ s
  have htwo := endNotices_length c.lane failure s
  omega

/-- The notice of an answer is the last of the queue. -/
theorem raiseNow_last {subject : Nat} {d : NoticeDetail} {s : State} (h : s.port.notices.length < 32) :
    (raiseNow subject d s).port.notices.getLast? = some ⟨s.tracker.cycle, subject, d⟩ := by
  unfold raiseNow
  rw [raise_appends h]
  exact List.getLast?_concat

/-! ## The Coincidence Unit (R90) and the Agreement Unit's DIGEST (R134) -/

theorem reportOutcome_event {c : CurrentFrame} {failure : Option FailCause} {r : Nat} (hr : c.ref = some r) (hk : c.kind = .event)
    (wasSent : Bool) (stamp : Tag) (s : State) : reportOutcome (concluded failure c) wasSent stamp s =
      eventOutcome r wasSent s := by
  unfold reportOutcome concluded
  rw [hr, hk]

theorem reportOutcome_digest {c : CurrentFrame} {failure : Option FailCause} {r : Nat} (hr : c.ref = some r) (hk : c.kind = .digest)
    (wasSent : Bool) (stamp : Tag) (s : State) : reportOutcome (concluded failure c) wasSent stamp s =
      digestOutcome wasSent s := by
  unfold reportOutcome concluded
  rw [hr, hk]

/-- What the Coincidence Unit makes of an EVENT's outcome. -/
def eventCoin (r : Nat) (failure : Option FailCause) (k : Coincidence) : Coincidence :=
  { k with
    ownerRefs := k.ownerRefs.filter (· != r)
    pendingGroups := if failure = none then
        k.pendingGroups.map fun p => if p.publication = .queued r then { p with publication := .sent } else p
      else k.pendingGroups.filter fun p => p.publication != .queued r
    counts := { k.counts with
      published := if failure = none then min (k.counts.published + 1) 65535 else k.counts.published
      eventsDropped := if failure = none then k.counts.eventsDropped else min (k.counts.eventsDropped + 1) 65535 } }

theorem eventOutcome_eq (r : Nat) (failure : Option FailCause) (s : State) :
    eventOutcome r failure.isNone s = s.withCoin (eventCoin r failure s.coin) := by cases failure <;> rfl

theorem Heard.event {m : Moment} {s : State} {c : CurrentFrame} {cmd : Instr} {failure : Option FailCause} {r : Nat}
    (h : Heard m s c cmd failure r) (hk : c.kind = .event) : ∃ t, exec cmd s = .next t ∧ t.coin = eventCoin r failure s.coin ∧
      t.agree = s.agree ∧ t.coup = s.coup ∧ t.evid = s.evid ∧ t.tracker = s.tracker ∧ t.fault = s.fault := by
  obtain ⟨stamp, t, -, hexec, hs⟩ := h.exec_answer (by rw [hk]; decide)
  rw [reportOutcome_event h.ref hk, eventOutcome_eq] at hs
  exact ⟨t, hexec, hs.coin, hs.agree, hs.coup, hs.evid, hs.tracker, hs.fault⟩

/-- What the Agreement Unit makes of a DIGEST's outcome. -/
def digestAgreement (failure : Option FailCause) (a : Agreement) : Agreement :=
  { a with counts := { a.counts with
    digestsNotSent := if failure = none then a.counts.digestsNotSent else min (a.counts.digestsNotSent + 1) 65535 } }

theorem digestOutcome_eq (failure : Option FailCause) (s : State) :
    digestOutcome failure.isNone s = s.withAgree (digestAgreement failure s.agree) := by cases failure <;> rfl

theorem Heard.digest {m : Moment} {s : State} {c : CurrentFrame} {cmd : Instr} {failure : Option FailCause} {r : Nat}
    (h : Heard m s c cmd failure r) (hk : c.kind = .digest) : ∃ t, exec cmd s = .next t ∧ t.coin = s.coin ∧ t.coup = s.coup ∧
      t.evid = s.evid ∧ t.agree = digestAgreement failure s.agree := by
  obtain ⟨stamp, t, -, hexec, hs⟩ := h.exec_answer (by rw [hk]; decide)
  rw [reportOutcome_digest h.ref hk, digestOutcome_eq] at hs
  exact ⟨t, hexec, hs.coin, hs.coup, hs.evid, hs.agree⟩

/-! ## The Countercoupling Unit (R37, R152, R156) -/

theorem reportOutcome_pulse {c : CurrentFrame} {failure : Option FailCause} {r : Nat} (hr : c.ref = some r) (hk : c.kind = .pulse)
    (wasSent : Bool) (stamp : Tag) (s : State) : reportOutcome (concluded failure c) wasSent stamp s =
      pulseOutcome r wasSent stamp s := by
  unfold reportOutcome concluded
  rw [hr, hk]

theorem pulseOutcome_sent {r : Nat} {s : State} (h : s.coup.slot = .queued r) (stamp : Tag) :
    pulseOutcome r true stamp s = s.withCoup { s.coup with slot := .announced (stamp + 1000#32) } := by
  unfold pulseOutcome
  rw [h]
  exact if_pos rfl

theorem pulseOutcome_dropped {r : Nat} {s : State} (h : s.coup.slot = .queued r) (stamp : Tag) :
    pulseOutcome r false stamp s = judgeIfReady (releasePulse (skipSlot s)) := by
  unfold pulseOutcome
  rw [h]
  exact if_pos rfl

theorem pulseOutcome_other {r : Nat} {s : State} (h : s.coup.slot ≠ .queued r) (wasSent : Bool) (stamp : Tag) :
    pulseOutcome r wasSent stamp s = s := by
  unfold pulseOutcome
  split
  next q hq => exact if_neg fun hqr : q = r => h (hqr ▸ hq)
  next => rfl

theorem isArmed_iff (u : ChannelUnit) : isArmed u = true ↔ u.role = .pulse ∧ u.state = .hush := by
  unfold isArmed
  rw [Bool.and_eq_true, beq_iff_eq, beq_iff_eq]

/-- The release of a channel whose sensor is not DEAD: an armed one listens again (R37). -/
theorem releaseChannel_quiet {s : State} (hn : NoBadWord s) {ch : Channel} (hlive : (s.coup.records.get ch).state ≠ .dead)
    (ha : isArmed (s.channels.units.get ch) = true) :
    releaseChannel ch s = s.setUnit ch (listeningUnit s (s.channels.units.get ch)) := by
  have hback : releaseChannel ch s = returnToListen ch s := if_pos ((isArmed_iff _).mp ha)
  rw [hback, returnToListen, usingConfig_quiet hn]
  exact remute_live hlive

/-- The release of the pulse channel writes the units alone. -/
theorem releasePulse_quiet {s : State} (hn : NoBadWord s)
    (hlive : ∀ ch, pulseChannel s = some ch → (s.coup.records.get ch).state ≠ .dead) :
    ∃ units, releasePulse s = s.withChannels { s.channels with units := units } ∧
      ∀ ch, pulseChannel s = some ch → isArmed (s.channels.units.get ch) = true →
        units.get ch = listeningUnit s (s.channels.units.get ch) := by
  rw [releasePulse, usingConfig_quiet hn]
  unfold releaseNamed
  split
  next ch hch =>
    cases ha : isArmed (s.channels.units.get ch) with
    | true =>
      refine ⟨_, releaseChannel_quiet hn (hlive ch hch) ha, fun ch' hch' _ => ?_⟩
      obtain rfl : ch = ch' := Option.some.inj (hch.symm.trans hch')
      exact Four.get_set _ _ _
    | false =>
      refine ⟨s.channels.units, releaseChannel_unarmed ha, fun ch' hch' ha' => ?_⟩
      obtain rfl : ch = ch' := Option.some.inj (hch.symm.trans hch')
      rw [ha] at ha'
      cases ha'
  next hch => exact ⟨s.channels.units, rfl, fun ch' hch' _ => by rw [hch] at hch'; cases hch'⟩

/-- A pulse that is not announced: its slot ends, and its channel is released (R152). -/
theorem pulseOutcome_released {r : Nat} {s : State} (hn : NoBadWord s) (hslot : s.coup.slot = .queued r) (hj : NoJudging s)
    (hlive : ∀ ch, pulseChannel s = some ch → (s.coup.records.get ch).state ≠ .dead) (stamp : Tag) :
    ∃ units, pulseOutcome r false stamp s = (skipSlot s).withChannels { s.channels with units := units } ∧
      ∀ ch, pulseChannel s = some ch → isArmed (s.channels.units.get ch) = true →
        units.get ch = listeningUnit s (s.channels.units.get ch) := by
  obtain ⟨units, hrel, hunits⟩ := releasePulse_quiet (s := skipSlot s) (hn.of_fault rfl) hlive
  refine ⟨units, ?_, hunits⟩
  rw [pulseOutcome_dropped hslot, hrel]
  exact judgeIfReady_waits (by exact hj)

section
variable {m : Moment} {s : State} {c : CurrentFrame} {cmd : Instr} {failure : Option FailCause} {r : Nat}

theorem Heard.pulse_other (h : Heard m s c cmd failure r) (hk : c.kind = .pulse) (hslot : s.coup.slot ≠ .queued r) :
    ∃ t, exec cmd s = .next t ∧ t.coup = s.coup ∧ t.channels.units = s.channels.units ∧ t.coin = s.coin ∧ t.agree = s.agree := by
  obtain ⟨stamp, t, -, hexec, hs⟩ := h.exec_answer (by rw [hk]; decide)
  rw [reportOutcome_pulse h.ref hk, pulseOutcome_other (by exact hslot)] at hs
  exact ⟨t, hexec, hs.coup, hs.units, hs.coin, hs.agree⟩

theorem Heard.pulse_sent (h : Heard m s c cmd none r) (hk : c.kind = .pulse) (hslot : s.coup.slot = .queued r) :
    ∃ t, exec cmd s = .next t ∧ (∀ stamp, c.attempt = .transmitting stamp →
        t.coup = { s.coup with slot := .announced (stamp + 1000#32) } ∧ t.channels.units = s.channels.units) ∧
      t.coin = s.coin ∧ t.agree = s.agree ∧ t.evid = s.evid ∧ t.tracker = s.tracker := by
  obtain ⟨stamp, t, hstamp, hexec, hs⟩ := h.exec_answer (by rw [hk]; decide)
  rw [reportOutcome_pulse h.ref hk, Option.isNone_none, pulseOutcome_sent (by exact hslot)] at hs
  refine ⟨t, hexec, fun stamp' ha => ?_, hs.coin, hs.agree, hs.evid, hs.tracker⟩
  obtain rfl : stamp = stamp' := AttemptPhase.transmitting.inj ((hstamp rfl).symm.trans ha)
  exact ⟨hs.coup, hs.units⟩

theorem Heard.pulse_dropped {cause : FailCause} (h : Heard m s c cmd (some cause) r) (hk : c.kind = .pulse)
    (hslot : s.coup.slot = .queued r) (hj : NoJudging s)
    (hlive : ∀ ch, pulseChannel s = some ch → (s.coup.records.get ch).state ≠ .dead) :
    ∃ t, exec cmd s = .next t ∧
      t.coup = { s.coup with slot := .none, counts := { s.coup.counts with skipped := min (s.coup.counts.skipped + 1) 65535 } } ∧
      (∀ ch, pulseChannel s = some ch → isArmed (s.channels.units.get ch) = true →
        t.channels.units.get ch = { s.channels.units.get ch with
          role := .listen, state := if s.listening || s.windowOpen then .quiet else .hush, pulseTimer := none }) ∧
      t.coin = s.coin ∧ t.agree = s.agree ∧ t.evid = s.evid ∧ t.tracker = s.tracker := by
  obtain ⟨stamp, t, -, hexec, hs⟩ := h.exec_answer (by rw [hk]; decide)
  obtain ⟨units, hout, hunits⟩ := pulseOutcome_released (frameOver_told h.quiet c (some cause)).quiet (by exact hslot) (by exact hj)
    (by rw [frameOver_pulseChannel]; exact hlive) stamp
  rw [reportOutcome_pulse h.ref hk, Option.isNone_some, hout] at hs
  refine ⟨t, hexec, hs.coup, fun ch hch ha => ?_, hs.coin, hs.agree, hs.evid, hs.tracker⟩
  rw [hs.units, ← frameOver_listenState m c (some cause) s]
  exact hunits ch (by rw [frameOver_pulseChannel]; exact hch) ha

/-! ## The Board Port (R141, R173) -/

theorem reportOutcome_control {c : CurrentFrame} {failure : Option FailCause} {r : Nat} (hr : c.ref = some r) (hk : c.kind = .control)
    (wasSent : Bool) (stamp : Tag) (s : State) : reportOutcome (concluded failure c) wasSent stamp s =
      controlOutcome r wasSent (failure.or c.lastFailure) c.retries s := by
  unfold reportOutcome concluded
  rw [hr, hk]

theorem controlResult_quiet (hn : NoBadWord s) (delivered : Bool) (ctl : Control) (cause : Option FailCause) (retries : Nat) :
    controlResult delivered ctl cause retries s =
      raiseNow (lowestSelected ctl s) (.controlResult delivered ctl cause retries) s := boardReads_quiet hn _ _

theorem controlOutcome_own {ctl : Control} (hn : NoBadWord s) (h : s.port.control = some (r, ctl)) (wasSent : Bool)
    (cause : Option FailCause) (retries : Nat) : controlOutcome r wasSent cause retries s =
      raiseNow (lowestSelected ctl s) (.controlResult wasSent ctl cause retries) (s.withPort { s.port with control := none }) := by
  have hresult : controlOutcome r wasSent cause retries s =
      controlResult wasSent ctl cause retries (s.withPort { s.port with control := none }) := by
    unfold controlOutcome
    rw [h]
    exact if_pos rfl
  rw [hresult, controlResult_quiet (hn.of_fault (by rfl))]
  rfl

theorem controlOutcome_other (h : ∀ ctl, s.port.control ≠ some (r, ctl)) (wasSent : Bool) (cause : Option FailCause) (retries : Nat) :
    controlOutcome r wasSent cause retries s = s := by
  unfold controlOutcome
  split
  next q ctl hq => exact if_neg fun hqr : q = r => h ctl (hqr ▸ hq)
  next => rfl

theorem Heard.control {ctl : Control} (h : Heard m s c cmd failure r) (hk : c.kind = .control)
    (hown : s.port.control = some (r, ctl)) (hroom : s.port.notices.length < 30) :
    ∃ t, exec cmd s = .next t ∧ t.port.control = none ∧
      t.port.notices.getLast? = some ⟨s.tracker.cycle, lowestSelected ctl s,
        .controlResult failure.isNone ctl (failure.or c.lastFailure) c.retries⟩ ∧
      t.coin = s.coin ∧ t.agree = s.agree ∧ t.coup = s.coup ∧ t.evid = s.evid ∧ t.tracker = s.tracker := by
  obtain ⟨stamp, t, -, hexec, hs⟩ := h.exec_answer (by rw [hk]; decide)
  have hselected : lowestSelected ctl (frameOver m c failure s) = lowestSelected ctl s := by
    unfold lowestSelected
    rw [frameOver_block]
  rw [reportOutcome_control h.ref hk, controlOutcome_own (frameOver_told h.quiet c failure).quiet
    ((frameOver_control m c failure s).trans hown), hselected] at hs
  refine ⟨t, hexec, ?_, ?_, ?_⟩
  · rw [hs.port]
    exact raise_control _ _
  · rw [hs.port]
    exact raiseNow_last (frameOver_room (m := m) hroom)
  · rw [raiseNow, raise_eq] at hs
    exact ⟨hs.coin, hs.agree, hs.coup, hs.evid, hs.tracker⟩

theorem Heard.control_other (h : Heard m s c cmd failure r) (hk : c.kind = .control) (hother : ∀ ctl, s.port.control ≠ some (r, ctl)) :
    ∃ t, exec cmd s = .next t ∧ t.port.control = s.port.control ∧ t.coin = s.coin ∧ t.agree = s.agree ∧ t.coup = s.coup := by
  obtain ⟨stamp, t, -, hexec, hs⟩ := h.exec_answer (by rw [hk]; decide)
  rw [reportOutcome_control h.ref hk, controlOutcome_other (by rw [frameOver_control]; exact hother)] at hs
  exact ⟨t, hexec, by rw [hs.port, frameOver_control], hs.coin, hs.agree, hs.coup⟩

/-! ## The transfer (R141, R142) -/

theorem reportOutcome_row {c : CurrentFrame} {failure : Option FailCause} {r : Nat} (hr : c.ref = some r) (hk : c.kind = .row)
    (wasSent : Bool) (stamp : Tag) (s : State) : reportOutcome (concluded failure c) wasSent stamp s =
      rowOutcome r wasSent s := by
  unfold reportOutcome concluded
  rw [hr, hk]

/-- The Agreement Unit, one more row sent. -/
def rowCounted (a : Agreement) : Agreement := { a with counts := { a.counts with rowsSent := min (a.counts.rowsSent + 1) 65535 } }

theorem rowOutcome_last {n : Nat} (h : s.agree.transfer = .sending n (.row r true)) :
    rowOutcome r true s = raiseNow s.ownNo (.transfer .sent) (s.withAgree { rowCounted s.agree with transfer := .idle }) := by
  unfold rowOutcome
  rw [h]
  exact if_pos rfl

theorem rowOutcome_next {n : Nat} (h : s.agree.transfer = .sending n (.row r false)) :
    rowOutcome r true s = sendRow n (s.withAgree (rowCounted s.agree)) := by
  unfold rowOutcome
  rw [h]
  exact if_pos rfl

theorem rowOutcome_dropped {n : Nat} {last : Bool} (h : s.agree.transfer = .sending n (.row r last)) :
    rowOutcome r false s = abortTransfer s := by
  unfold rowOutcome
  rw [h]
  exact if_pos rfl

theorem rowOutcome_other (h : ∀ n last, s.agree.transfer ≠ .sending n (.row r last)) (wasSent : Bool) : rowOutcome r wasSent s = s := by
  unfold rowOutcome
  split
  next n q last hq => exact if_neg fun hqr : q = r => h n last (hqr ▸ hq)
  next => rfl

/-- A row that finds room follows the one before it (R142). -/
theorem sendRow_quiet {n : Nat} {snap : Snapshot} (hn : NoBadWord s) (hsnap : s.agree.snapshot = some snap)
    (hroom : canRequest .row s = true) (row : RowFrame) (hrow : row = rowOfSnapshot (s.agree.ownDigest.getD 0) snap n) :
    (sendRow n s).agree = { s.agree with transfer := .sending (n + row.count) (.row s.link.nextRef row.last) } ∧
      (sendRow n s).link.queue = s.link.queue ++ [⟨s.link.nextRef, .row, rowBytes (Block.histLen s.block) row, s.now⟩] := by
  have hmake : sendRow n s = usingConfig [0x1A] (makeRow row) s := by
    unfold sendRow
    rw [hsnap, hrow]
  rw [hmake, usingConfig_quiet hn, makeRow, usingWords_quiet hn, usingConfig_quiet hn, requestRow,
    request_quiet _ _ _ _ (hn.of_fault rfl), if_pos hroom]
  have hs := selectFrame_from (rowTaken row s.link.nextRef (enqueue .row (rowBytes (Block.histLen s.block) row) s))
  rw [hs.agree, hs.queue, hrow]
  exact ⟨rfl, rfl⟩

/-- With its own descriptor gone, the next row is taken where the queue has room. -/
theorem canRequest_row (hlen : s.link.queue.length < 12) (hrow : ∀ d ∈ s.link.queue, d.kind ≠ .row) : canRequest .row s = true := by
  have hnone : (s.link.queue.any fun d => d.kind == .row) = false := by simpa using hrow
  unfold canRequest
  rw [hnone, Bool.and_false, Bool.not_false, Bool.and_true]
  exact decide_eq_true hlen

/-- Where every ROW waiting is the one that is over, none waits after it. -/
theorem noRow_over (h : ∀ d ∈ s.link.queue, d.kind = .row → d.ref = r) :
    ∀ d ∈ s.link.queue.filter fun d => d.ref != r, d.kind ≠ .row := by
  intro d hd hrow
  obtain ⟨hmem, hne⟩ := List.mem_filter.mp hd
  exact bne_iff_ne.mp hne (h d hmem hrow)

theorem Heard.queue (h : Heard m s c cmd failure r) :
    (frameOver m c failure s).link.queue = s.link.queue.filter fun d => d.ref != r := by
  rw [frameOver_queue, h.ref]
  refine List.filter_congr fun d _ => ?_
  rw [Bool.eq_iff_iff, bne_iff_ne, bne_iff_ne]
  exact ⟨fun hne heq => hne (heq ▸ rfl), fun hne heq => hne (Option.some.inj heq).symm⟩

theorem Heard.row_last {n : Nat} (h : Heard m s c cmd none r) (hk : c.kind = .row)
    (htr : s.agree.transfer = .sending n (.row r true)) :
    ∃ t, exec cmd s = .next t ∧ t.agree = { rowCounted s.agree with transfer := .idle } ∧
      (s.port.notices.length < 30 → t.port.notices.getLast? = some ⟨s.tracker.cycle, s.ownNo, .transfer .sent⟩) := by
  obtain ⟨stamp, t, -, hexec, hs⟩ := h.exec_answer (by rw [hk]; decide)
  rw [reportOutcome_row h.ref hk, Option.isNone_none, rowOutcome_last (by exact htr), frameOver_ownNo] at hs
  refine ⟨t, hexec, ?_, fun hroom => ?_⟩
  · rw [raiseNow, raise_eq] at hs
    exact hs.agree
  · rw [hs.port]
    exact raiseNow_last (frameOver_room (m := m) hroom)

theorem Heard.row_next {n : Nat} {snap : Snapshot} (h : Heard m s c cmd none r) (hk : c.kind = .row)
    (htr : s.agree.transfer = .sending n (.row r false)) (hsnap : s.agree.snapshot = some snap) (row : RowFrame)
    (hrow : row = rowOfSnapshot (s.agree.ownDigest.getD 0) snap n) (hlen : (s.link.queue.filter fun d => d.ref != r).length < 12)
    (honly : ∀ d ∈ s.link.queue, d.kind = .row → d.ref = r) :
    ∃ t, exec cmd s = .next t ∧
      t.agree = { rowCounted s.agree with transfer := .sending (n + row.count) (.row s.link.nextRef row.last) } ∧
      t.link.queue = (s.link.queue.filter fun d => d.ref != r) ++
        [⟨s.link.nextRef, .row, rowBytes (Block.histLen s.block) row, m.tag⟩] := by
  obtain ⟨stamp, t, -, hexec, hs⟩ := h.exec_answer (by rw [hk]; decide)
  have hcan : canRequest .row ((frameOver m c none s).withAgree (rowCounted s.agree)) = true :=
    canRequest_row (by rw [withAgree_link, h.queue]; exact hlen) (by rw [withAgree_link, h.queue]; exact noRow_over honly)
  have hn : NoBadWord ((frameOver m c none s).withAgree (rowCounted s.agree)) := (frameOver_told h.quiet c none).quiet.of_fault rfl
  obtain ⟨hagree, hqueue⟩ := sendRow_quiet hn (by exact hsnap) hcan row hrow
  rw [reportOutcome_row h.ref hk, Option.isNone_none, rowOutcome_next (by exact htr)] at hs
  refine ⟨t, hexec, hs.agree.trans (hagree.trans ?_), hs.queue.trans (hqueue.trans ?_)⟩
  · rw [← frameOver_nextRef m c none s]
    rfl
  · rw [← h.queue, ← frameOver_block m c none s, ← frameOver_now m c none s, ← frameOver_nextRef m c none s]
    rfl

theorem Heard.row_dropped {n : Nat} {last : Bool} {cause : FailCause} (h : Heard m s c cmd (some cause) r) (hk : c.kind = .row)
    (htr : s.agree.transfer = .sending n (.row r last)) :
    ∃ t, exec cmd s = .next t ∧ t.agree = { s.agree with
        transfer := .idle, counts := { s.agree.counts with aborted := min (s.agree.counts.aborted + 1) 65535 } } ∧
      (s.port.notices.length < 30 → t.port.notices.getLast? = some ⟨s.tracker.cycle, s.ownNo, .transfer .aborted⟩) := by
  obtain ⟨stamp, t, -, hexec, hs⟩ := h.exec_answer (by rw [hk]; decide)
  rw [reportOutcome_row h.ref hk, Option.isNone_some, rowOutcome_dropped (by exact htr), abortTransfer, frameOver_ownNo] at hs
  refine ⟨t, hexec, ?_, fun hroom => ?_⟩
  · rw [raiseNow, raise_eq] at hs
    exact hs.agree
  · rw [hs.port]
    exact raiseNow_last (frameOver_room (m := m) hroom)

theorem Heard.row_other (h : Heard m s c cmd failure r) (hk : c.kind = .row)
    (hother : ∀ n last, s.agree.transfer ≠ .sending n (.row r last)) :
    ∃ t, exec cmd s = .next t ∧ t.agree = s.agree ∧ t.coin = s.coin ∧ t.coup = s.coup := by
  obtain ⟨stamp, t, -, hexec, hs⟩ := h.exec_answer (by rw [hk]; decide)
  rw [reportOutcome_row h.ref hk, rowOutcome_other (by exact hother)] at hs
  exact ⟨t, hexec, hs.agree, hs.coin, hs.coup⟩

end

/-! ## The requesters -/

/-- Settles O24, requester by requester. -/
theorem requestersHearOutcomes : Obligations.RequestersHearOutcomes := by
  intro m s c cmd failure r hq hl hc hr hu he
  have h : Heard m s c cmd failure r := ⟨hq, hl, hc, hr, hu, he⟩
  refine ⟨h.event, fun hk hslot hj hlive => ?_, h.pulse_other, fun ctl => h.control, h.control_other,
    fun n last hk htr => ⟨?_, ?_, ?_⟩, h.row_other, h.digest⟩
  · cases failure with
    | none =>
      obtain ⟨t, hexec, hsent, hrest⟩ := h.pulse_sent hk hslot
      exact ⟨t, hexec, fun stamp _ => hsent stamp, fun hne => absurd rfl hne, hrest⟩
    | some cause =>
      obtain ⟨t, hexec, hcoup, hunits, hrest⟩ := h.pulse_dropped hk hslot hj hlive
      exact ⟨t, hexec, fun _ hnone => (Option.some_ne_none cause hnone).elim,
        fun _ => ⟨hcoup, fun ch hch hrole hstate => hunits ch hch ((isArmed_iff _).mpr ⟨hrole, hstate⟩)⟩, hrest⟩
  · rintro rfl rfl
    exact h.row_last hk htr
  · rintro snap row rfl rfl hsnap hrow hlen honly
    exact h.row_next hk htr hsnap row hrow hlen honly
  · intro hne
    obtain ⟨cause, rfl⟩ := Option.ne_none_iff_exists'.mp hne
    exact h.row_dropped hk htr

end Sys2Proof.Machine
end

section
/-! PROOFS. What a change of a peer record's state tells the other blocks, and the silence and presence timers with sound stores (R46, R71
to R76, R147). -/

namespace Sys2Proof.Machine

/-! ## A change of a record's state (R71 to R75, R147) -/

section
variable {st : Station} {old new : PeerState} {s : State} {c : Option CycleNo} {v : BitVec 32} {n : Nat} {r : Option RowFrame}
  {b : List SegmentRecord}

/-- The loss of the donor abandons the transfer awaited from it (R74, R147). -/
theorem donorGone_awaiting (h : s.agree.transfer = .awaiting st c v n r b) : donorGone st s =
      raise ⟨s.tracker.cycle, stNo st, .transfer (.abandoned .donor)⟩ (s.withAgree (transferGone s.agree)) := by
  unfold donorGone abandonTransfer
  rw [h]
  exact if_pos rfl

theorem donorGone_other (h : ∀ c v n r b, s.agree.transfer ≠ .awaiting st c v n r b) : donorGone st s = s := by
  unfold donorGone
  split
  next ht =>
    refine if_neg ?_
    rintro rfl
    exact h _ _ _ _ _ ht
  next => rfl

/-- The loss of a peer concerns the Agreement Unit and the notice queue alone. -/
theorem donorGone_eq (st : Station) (s : State) :
    donorGone st s = (s.withAgree (donorGone st s).agree).withPort (donorGone st s).port := by
  by_cases h : ∃ c v n r b, s.agree.transfer = .awaiting st c v n r b
  · obtain ⟨c, v, n, r, b, h⟩ := h
    rw [donorGone_awaiting h, raise_eq]
    rfl
  · rw [donorGone_other fun c v n r b ht => h ⟨c, v, n, r, b, ht⟩]
    rfl

/-- A peer that is back is noticed, and no more (R71, R75). -/
theorem recordChanged_back (h : old ≠ .present) :
    recordChanged st old .present s = raise ⟨s.tracker.cycle, stNo st, .peerState .present⟩ s := by
  unfold recordChanged
  rw [if_neg h.symm]
  exact if_pos rfl

/-- A peer that leaves PRESENT, or is FOREIGN, is noticed, and lost as a donor (R72 to R74). -/
theorem recordChanged_away (h : new ≠ old) (hp : new ≠ .present) :
    recordChanged st old new s = donorGone st (raise ⟨s.tracker.cycle, stNo st, .peerState new⟩ s) := by
  unfold recordChanged
  rw [if_neg h]
  exact if_neg hp

/-- A donor that leaves PRESENT: the PEER STATE notice comes before the TRANSFER notice (log entry 11). -/
theorem recordChanged_donor (h : new ≠ old)
    (hp : new ≠ .present) (ht : s.agree.transfer = .awaiting st c v n r b) : recordChanged st old new s =
      raise ⟨s.tracker.cycle, stNo st, .transfer (.abandoned .donor)⟩
        ((raise ⟨s.tracker.cycle, stNo st, .peerState new⟩ s).withAgree (transferGone s.agree)) := by
  rw [recordChanged_away h hp, raise_eq, donorGone_awaiting (by exact ht)]
  rfl

theorem recordChanged_noDonor (h : new ≠ old) (hp : new ≠ .present) (ht : ∀ c v n r b, s.agree.transfer ≠ .awaiting st c v n r b) :
    recordChanged st old new s = raise ⟨s.tracker.cycle, stNo st, .peerState new⟩ s := by
  rw [recordChanged_away h hp, donorGone_other]
  rw [raise_eq]
  exact ht

/-- A change of a record's state concerns the Agreement Unit and the notice queue alone. -/
theorem recordChanged_eq (st : Station) (old new : PeerState) (s : State) : recordChanged st old new s =
    (s.withAgree (recordChanged st old new s).agree).withPort (recordChanged st old new s).port := by
  unfold recordChanged raiseNow
  dsimp only
  split
  next => rfl
  next =>
    split
    next => rw [raise_eq]; rfl
    next => rw [donorGone_eq, raise_eq]; rfl

/-- A change of state is noticed while the queue has room (R71 to R74, R174). -/
theorem recordChanged_notices (hn : NoFlips s) (h : new ≠ old) (hroom : s.port.notices.length < 32) :
    (⟨s.tracker.cycle, stNo st, .peerState new⟩ : Notice) ∈ (recordChanged st old new s).port.notices := by
  have hraised : (⟨s.tracker.cycle, stNo st, .peerState new⟩ : Notice) ∈
      (raise ⟨s.tracker.cycle, stNo st, .peerState new⟩ s).port.notices := by
    rw [raise_appends hroom]
    simp
  by_cases hp : new = .present
  · subst hp
    rw [recordChanged_back h.symm]
    exact hraised
  · rw [recordChanged_away h hp]
    have hcalm := donorGone_calm st _ (Calm.refl (raise_noFlips ⟨s.tracker.cycle, stNo st, .peerState new⟩ hn))
    obtain ⟨_, _, _, _, _, _, _, _, hkept⟩ := hcalm
    exact hkept.subset hraised

end

/-! ## The silence and presence timers (R73, R76) -/

theorem exec_silenceTimerExpiry_due {m : Moment} {s : State} {st : Station} {d : Tag} (hS : Sound m s) (hw : s.atWork = true)
    (hp : (s.member.peers.get st).state = .present) (hd : (s.member.peers.get st).silence = some d) (hr : reached m.tag d = true) :
    exec (.silenceTimerExpiry m st) s = .next (goMissing st (s.withNow m.tag)) := by
  have hw' : (s.withNow m.tag).atWork = true := hw
  rw [exec_silenceTimerExpiry_quiet m st s hS.noFaultToFind, if_pos]
  simp [silenceDue, due, hw', hp, hd, hr]

theorem exec_presenceTimerExpiry_due {m : Moment} {s : State} {d : Tag} (hS : Sound m s) (hw : s.atWork = true)
    (hd : s.member.presenceTimer = some d) (hr : reached m.tag d = true) :
    exec (.presenceTimerExpiry m) s = .next (askPresence (s.withNow m.tag)) := by
  have hw' : (s.withNow m.tag).atWork = true := hw
  rw [exec_presenceTimerExpiry_quiet m s hS.noFaultToFind, if_pos, usingConfig_sound (by exact hS.noFlips)]
  simp [presenceDue, due, hw', hd, hr]

/-- A request for a PRESENCE is taken exactly while the transmit queue has room (R46). -/
theorem canRequest_presence (s : State) : canRequest .presence s = decide (s.link.queue.length < 12) := by
  unfold canRequest queueCapacity
  simp

theorem SelectedFrom.member {x t : State} (h : SelectedFrom x t) : t.member = x.member := by obtain ⟨_, _, _, rfl⟩ := h; rfl

/-- Settles O31: the silence timer's expiry is a change of the record to MISSING, the presence timer's a request. -/
theorem silenceAndPresenceTimers : Obligations.SilenceAndPresenceTimers := by
  refine ⟨fun m s st d hS hw hp hd hr => ?_, fun m s d hS hw hd hr => ?_⟩
  · rw [exec_silenceTimerExpiry_due hS hw hp hd hr, goMissing]
    refine ⟨fun hno => ?_, fun c v n r b ht => ?_⟩
    · rw [recordChanged_noDonor (by decide) (by decide) (by exact hno)]
      rfl
    · rw [recordChanged_donor (by decide) (by decide) (by exact ht)]
      rfl
  · have hcan : ∀ mem, canRequest .presence ((s.withNow m.tag).withMember mem) = decide (s.link.queue.length < 12) :=
      fun mem => canRequest_presence _
    rw [exec_presenceTimerExpiry_due hS hw hd hr, askPresence, request_sound _ _ _ _ (by exact hS.noFlips), hcan, withNow_now]
    refine ⟨fun hroom => ?_, fun hfull => ?_⟩
    · rw [if_pos (decide_eq_true hroom)]
      have hsel := selectFrame_from (keepNoRef s.link.nextRef (enqueue .presence (s.withNow m.tag).presencePayload
        ((s.withNow m.tag).withMember { s.member with presenceTimer := some (m.tag + presencePeriod s) })))
      refine ⟨_, rfl, hsel.queue.trans ?_, hsel.member, hsel.tracker, hsel.coin, hsel.evid, hsel.agree, hsel.coup, hsel.fault, hsel.port,
        hsel.units⟩
      unfold keepNoRef enqueue
      rw [withMember_now, withNow_now]
      rfl
    · rw [if_neg (by simpa using hfull)]
      rfl

end Sys2Proof.Machine
end

section
/-! PROOFS. What a taken frame makes of its sender's record with sound stores, the way of such a frame through the handler, and the whole
step of a PRESENCE (R58 to R61, R66, R69 to R75). -/

namespace Sys2Proof.Machine

/-! ## The record after a taken frame (R69 to R75) -/

section
variable {k : FrameKind} {st : Station} {f : RxFrame} {s : State}

/-- The sender's record after a taken frame, its silence timer included (R73). -/
def enteredRecord (tag : Tag) (k : FrameKind) (st : Station) (f : RxFrame) (s : State) : PeerRecord :=
  { takenRecord k st f s with
    silence := if s.member.number ≠ some st ∧ (takenRecord k st f s).state = .present then some (tag + silenceSpan s)
      else (takenRecord k st f s).silence }

/-- A record that the frame does not leave PRESENT starts no silence timer (R73). -/
theorem enteredRecord_away {tag : Tag} (h : (takenRecord k st f s).state ≠ .present) :
    enteredRecord tag k st f s = takenRecord k st f s := by
  unfold enteredRecord
  rw [if_neg fun hc => h hc.2]

/-- The own record has no silence timer (R73). -/
theorem enteredRecord_own {tag : Tag} (h : s.member.number = some st) : enteredRecord tag k st f s = takenRecord k st f s := by
  unfold enteredRecord
  rw [if_neg fun hc => hc.1 h]

theorem enteredRecord_peer {tag : Tag} (h : s.member.number ≠ some st) (hp : (takenRecord k st f s).state = .present) :
    enteredRecord tag k st f s = { takenRecord k st f s with silence := some (tag + silenceSpan s) } := by
  unfold enteredRecord
  rw [if_pos ⟨h, hp⟩]

theorem Eight.set_set {α : Type} (f : Eight α) (i : Station) (a b : α) : (f.set i a).set i b = f.set i b := by cases i <;> rfl

theorem setPeer_setPeer (r q : PeerRecord) : (s.setPeer st r).setPeer st q = s.setPeer st q := by
  unfold State.setPeer
  rw [withMember_member, Eight.set_set]
  rfl

/-- A taken frame writes its sender's record, and what a change of its state tells the other blocks (R69 to R75). -/
theorem storeTaken_eq (k : FrameKind) (st : Station) (f : RxFrame) (s : State) : storeTaken k st f s =
    ((s.setPeer st (takenRecord k st f s)).withAgree (storeTaken k st f s).agree).withPort (storeTaken k st f s).port :=
  recordChanged_eq st _ _ _

/-- Where the state stays, the frame writes the record alone. -/
theorem storeTaken_same (h : (takenRecord k st f s).state = (s.member.peers.get st).state) :
    storeTaken k st f s = s.setPeer st (takenRecord k st f s) := if_pos h

/-- A frame that takes the transfer's donor away from PRESENT (R74, R147; log entry 11). -/
theorem storeTaken_donor {new : PeerState} {c : Option CycleNo} {v : BitVec 32} {n : Nat} {r : Option RowFrame} {b : List SegmentRecord}
    (hr : (takenRecord k st f s).state = new) (h : new ≠ (s.member.peers.get st).state) (hp : new ≠ .present)
    (ht : s.agree.transfer = .awaiting st c v n r b) :
    (storeTaken k st f s).agree = transferGone s.agree ∧
      (storeTaken k st f s).port = (raiseAll [⟨s.tracker.cycle, stNo st, .peerState new⟩,
        ⟨s.tracker.cycle, stNo st, .transfer (.abandoned .donor)⟩] s).port := by
  unfold storeTaken
  rw [hr, recordChanged_donor h hp (by exact ht)]
  refine ⟨?_, raise_port _ (raise_port _ rfl)⟩
  rw [raise_eq]
  rfl

/-- A frame that takes another peer away from PRESENT (R74). -/
theorem storeTaken_noDonor {new : PeerState} (hr : (takenRecord k st f s).state = new) (h : new ≠ (s.member.peers.get st).state)
    (hp : new ≠ .present) (ht : ∀ c v n r b, s.agree.transfer ≠ .awaiting st c v n r b) :
    (storeTaken k st f s).agree = s.agree ∧
      (storeTaken k st f s).port = (raise ⟨s.tracker.cycle, stNo st, .peerState new⟩ s).port := by
  unfold storeTaken
  rw [hr, recordChanged_noDonor h hp (by exact ht)]
  refine ⟨?_, raise_port _ rfl⟩
  rw [raise_eq]
  rfl

/-- A change of state that the frame makes is noticed while the queue has room (R71 to R74, R174). -/
theorem storeTaken_notices (hn : NoFlips s) (h : (takenRecord k st f s).state ≠ (s.member.peers.get st).state)
    (hroom : s.port.notices.length < 32) :
    (⟨s.tracker.cycle, stNo st, .peerState (takenRecord k st f s).state⟩ : Notice) ∈ (storeTaken k st f s).port.notices :=
  recordChanged_notices (s := s.setPeer st (takenRecord k st f s)) hn h hroom

theorem storeTaken_setPeer (k : FrameKind) (st : Station) (f : RxFrame) (s : State) (q : PeerRecord) : (storeTaken k st f s).setPeer st q =
    ((s.setPeer st q).withAgree (storeTaken k st f s).agree).withPort (storeTaken k st f s).port := by
  refine (congrArg (fun t : State => t.setPeer st q) (storeTaken_eq k st f s)).trans ?_
  rw [← setPeer_setPeer (s := s) (takenRecord k st f s) q]
  rfl

/-- The Membership Unit's part of a frame: the sender's record with its silence timer, and what a change of its state tells the other
blocks (R69 to R75). -/
theorem takeRecord_eq (hn : NoFlips s) (k : FrameKind) (st : Station) (f : RxFrame) : takeRecord k st f s =
    ((s.setPeer st (enteredRecord s.now k st f s)).withAgree (storeTaken k st f s).agree).withPort (storeTaken k st f s).port := by
  have hstored := storeTaken_eq k st f s
  have hcalm := storeTaken_calm k st f s (Calm.refl hn)
  have hrecord : (storeTaken k st f s).member.peers.get st = takenRecord k st f s := by
    rw [hstored]
    exact Eight.get_set _ _ _
  have hnumber : (storeTaken k st f s).member.number = s.member.number := by
    rw [hstored]
    rfl
  have hspan : (storeTaken k st f s).now + silenceSpan (storeTaken k st f s) = s.now + silenceSpan s := by
    unfold silenceSpan
    rw [hcalm.now, hcalm.block]
  unfold takeRecord enterRecord restartSilence
  rw [usingConfig_sound hn, hnumber, hrecord]
  by_cases hp : s.member.number ≠ some st ∧ (takenRecord k st f s).state = .present
  · rw [if_pos hp, usingConfig_sound hcalm.noFlips, enteredRecord_peer hp.1 hp.2, setSilence, hrecord, hspan]
    exact storeTaken_setPeer k st f s _
  · rw [if_neg hp]
    unfold enteredRecord
    rw [if_neg hp]
    exact hstored

/-! ## The record by kind -/

/-- A PRESENCE of a peer (R72). -/
theorem takenRecord_presence_peer (ho : s.member.number ≠ some st) :
    takenRecord .presence st f s =
      let r : PeerRecord := { touchRecord (clockOffset s f) f.stamp (s.member.peers.get st) with
        fingerprint := some (u32 f.payload 0), presence := some (presenceOf f.payload) }
      if some (u32 f.payload 0) = s.member.fingerprint then { r with state := .present }
      else { r with state := .foreign, silence := none, digest := none, logout := ⟨none, none, none⟩ } := by
  unfold takenRecord recordByKind presenceRecord
  simp [ho]

/-- A DIGEST of a sender on record (R71, R75). -/
theorem takenRecord_digest (hs : (s.member.peers.get st).state = .present ∨ (s.member.peers.get st).state = .missing ∨
      (s.member.peers.get st).state = .loggedOut) :
    takenRecord .digest st f s = { touchRecord (clockOffset s f) f.stamp (s.member.peers.get st) with
      state := .present, digest := some (digestContentOf f.payload f.stamp) } := by
  unfold takenRecord recordByKind digestRecord heardRecord touchRecord
  rcases hs with h | h | h <;> simp [h]

theorem logoutPartOf_one {p : List Byte} (h : u8 p 0 = 1) : logoutPartOf p = some .part1 := by rw [logoutPartOf, h]; rfl
theorem logoutPartOf_two {p : List Byte} (h : u8 p 0 = 2) : logoutPartOf p = some .part2 := by rw [logoutPartOf, h]; rfl
theorem logoutPartOf_three {p : List Byte} (h : u8 p 0 = 3) : logoutPartOf p = some .part3 := by rw [logoutPartOf, h]; rfl

theorem logoutPartOf_some {p : List Byte} (h1 : 1 ≤ u8 p 0) (h3 : u8 p 0 ≤ 3) : ∃ part, logoutPartOf p = some part := by
  obtain h | h | h : u8 p 0 = 1 ∨ u8 p 0 = 2 ∨ u8 p 0 = 3 := by omega
  · exact ⟨_, logoutPartOf_one h⟩
  · exact ⟨_, logoutPartOf_two h⟩
  · exact ⟨_, logoutPartOf_three h⟩

theorem logoutPartOf_none {p : List Byte} (h : u8 p 0 = 0 ∨ 4 ≤ u8 p 0) : logoutPartOf p = none := by
  unfold logoutPartOf
  split
  next h1 => omega
  next h2 => omega
  next h3 => omega
  next => rfl

/-- A LOGOUT whose part byte names no part is counted held back (R73, R178). -/
theorem takenRecord_logout_noPart (h : logoutPartOf f.payload = none) :
    takenRecord .logout st f s = { touchRecord (clockOffset s f) f.stamp (s.member.peers.get st) with
      heldBack := raised (s.member.peers.get st).heldBack } := by
  unfold takenRecord recordByKind logoutRecord
  rw [h]
  rfl

/-- An own LOGOUT stores nothing (R74). -/
theorem takenRecord_logout_own {part : LogoutPart} (h : logoutPartOf f.payload = some part) (ho : s.member.number = some st) :
    takenRecord .logout st f s = touchRecord (clockOffset s f) f.stamp (s.member.peers.get st) := by
  unfold takenRecord recordByKind logoutRecord
  rw [h]
  simp [ho]

/-- A peer's LOGOUT (R74). -/
theorem takenRecord_logout_peer {part : LogoutPart} (h : logoutPartOf f.payload = some part) (ho : s.member.number ≠ some st) :
    takenRecord .logout st f s = { touchRecord (clockOffset s f) f.stamp (s.member.peers.get st) with
      state := .loggedOut, silence := none, logout := storePart part f.payload (s.member.peers.get st).logout } := by
  unfold takenRecord recordByKind logoutRecord
  rw [h]
  simp [ho, touchRecord]

/-! ## The way of a frame through the handler (R58 to R61, R66, R69, R73) -/

/-- Only a PRESENCE gets past the check of its sender's record when that is FOREIGN or without a fingerprint (R69). -/
theorem heldAtOnce_iff (k : FrameKind) (r : PeerRecord) :
    heldAtOnce k r = true ↔ k ≠ .presence ∧ (r.state = .foreign ∨ r.fingerprint = none) := by
  unfold heldAtOnce
  simp

/-- The state in which the Membership Unit takes an accepted frame: its hold buffer is empty, and the Link Unit has counted it (R58,
R61). -/
def acceptedAt (m : Moment) (l : Lane) (k : FrameKind) (st : Station) (f : RxFrame) (s : State) : State :=
  countAccepted l k st (beginHandling l f (s.withNow m.tag))

theorem acceptedAt_eq (m : Moment) (l : Lane) (k : FrameKind) (st : Station) (f : RxFrame) (s : State) :
    acceptedAt m l k st f s = (s.withNow m.tag).withLink { s.link with
      lanes := s.link.lanes.set l { s.link.lanes.get l with
        hold := none, accepted := min ((s.link.lanes.get l).accepted + 1) 65535 }
      lastAccepted := ((k, st) :: s.link.lastAccepted).take 4, handler := some (l, f) } := by
  unfold acceptedAt countAccepted beginHandling raised
  simp only [setLane_link, withNow_link, withLink_link, PerLane.get_set, PerLane.set_set]
  rfl

/-- An accepted frame that is no peer's under the own number reaches the Membership Unit (R59 to R61). -/
theorem exec_frameHandlerTake_toMember {m : Moment} {l : Lane} (hS : Sound m s) (hw : s.atWork = true)
    (hh : heldFrame s.link = some (l, f)) (ha : acceptance (Block.histLen s.block) f = some (k, st))
    (ho : s.member.number = some st → f.own = true) :
    exec (.frameHandlerTake m) s = .next (endHandling (memberFrame k st f (acceptedAt m l k st f s))) := by
  have ha' : acceptance (Block.histLen (beginHandling l f (s.withNow m.tag)).block) f = some (k, st) := ha
  have hl : (s.withNow m.tag).linkUp = true := linkUp_of_atWork hw
  rw [exec_frameHandlerTake_quiet m s hS.noFaultToFind, withNow_link, hh]
  dsimp only
  rw [if_pos hl, handleFrame_quiet (s := s.withNow m.tag) (by exact hS.noFlips.noBadWord) hw, acceptFrame, ha']
  dsimp only
  rw [if_neg]
  · rfl
  · rintro ⟨hnum, hnot⟩
    rw [ho hnum] at hnot
    exact absurd hnot (by decide)

/-- A frame that no other block takes: its kind goes to none, and it is not held back. -/
def OnlyRecorded (k : FrameKind) (st : Station) (s : State) : Prop :=
  k = .presence ∨ k = .logout ∨ (k = .digest ∧ (s.member.peers.get st).state = .present)

theorem OnlyRecorded.handOn (h : OnlyRecorded k st s) (f : RxFrame) : Machine.handOn k st f s = s := by
  unfold Machine.handOn
  obtain rfl | rfl | ⟨rfl, hp⟩ := h
  · rw [if_neg fun hc => hc.1 rfl]
    rfl
  · rw [if_neg fun hc => hc.2.1 rfl]
    rfl
  · rw [if_neg (by simp [hp])]
    rfl

/-- What the adoption leaves alone (R14, R66). -/
structure KeepsRecords (s t : State) : Prop where
  peers : t.member.peers = s.member.peers
  link : t.link = s.link
  port : t.port = s.port
  table : t.evid.table = s.evid.table

theorem joinAdopt_keepsRecords (n : CycleNo) (hn : NoFlips s) : KeepsRecords s (joinAdopt n s) := by
  rw [joinAdopt_sound n hn, adoptFirst_sound n (by exact hn)]
  refine ⟨rfl, rfl, rfl, ?_⟩
  dsimp only
  split <;> rfl

/-- A frame that is only recorded ends with its record, and the adoption of its number by a joining station (R66). -/
theorem OnlyRecorded.joinAndHandOn_keeps (h : OnlyRecorded k st s) (hn : NoFlips s) (f : RxFrame) :
    KeepsRecords s (joinAndHandOn k st f s) := by
  unfold joinAndHandOn
  split
  next n _ =>
    have hkept := joinAdopt_keepsRecords n hn
    have hrunning : (joinAdopt n s).member.station = .running := by
      rw [joinAdopt_sound n hn, adoptFirst_sound n (by exact hn)]
      rfl
    have hrecorded : OnlyRecorded k st (joinAdopt n s) := by
      unfold OnlyRecorded
      rw [hkept.peers]
      exact h
    rw [unlessFrozen_live (by rw [hrunning]; decide), hrecorded.handOn]
    exact hkept
  next =>
    rw [h.handOn]
    exact ⟨rfl, rfl, rfl, rfl⟩

/-- A LOGOUT gives a joining station no number (R66). -/
theorem joinAndHandOn_logout (st : Station) (f : RxFrame) (s : State) : joinAndHandOn .logout st f s = s := by
  have hnone : joinNumber .logout st f s = none := if_neg fun hc => hc.2.2.1 rfl
  unfold joinAndHandOn
  rw [hnone]
  exact OnlyRecorded.handOn (Or.inr (Or.inl rfl)) f

/-- A frame that is not held back is taken into its sender's record, and goes on. -/
theorem memberFrame_taken (hn : NoFlips s) (hw : s.member.station ≠ .frozen) (hnot : heldAtOnce k (s.member.peers.get st) = false) :
    memberFrame k st f s = joinAndHandOn k st f (takeRecord k st f s) := by
  unfold memberFrame
  rw [hnot, if_neg (by decide), unlessFrozen_live]
  rw [takeRecord_eq hn]
  exact hw

/-- The sender's record in the station that has counted the frame. -/
theorem enteredRecord_acceptedAt (m : Moment) (l : Lane) (k : FrameKind) (st : Station) (f : RxFrame) (s : State) :
    enteredRecord (acceptedAt m l k st f s).now k st f (acceptedAt m l k st f s) = enteredRecord m.tag k st f s := by
  rw [show (acceptedAt m l k st f s).now = m.tag from withNow_now s m.tag]
  rfl

/-- The station once the frame is in its sender's record. -/
def recordedAt (m : Moment) (l : Lane) (k : FrameKind) (st : Station) (f : RxFrame) (s : State) : State :=
  takeRecord k st f (acceptedAt m l k st f s)

/-- The frame has changed its sender's record, the Agreement Unit where it lost its donor, and the Board Port's notices, the Link Unit's
counts apart. -/
theorem recordedAt_eq {m : Moment} (hS : Sound m s) (l : Lane) (k : FrameKind) (st : Station) (f : RxFrame) :
    recordedAt m l k st f s = (((acceptedAt m l k st f s).setPeer st (enteredRecord m.tag k st f s)).withAgree
      (storeTaken k st f (acceptedAt m l k st f s)).agree).withPort (storeTaken k st f (acceptedAt m l k st f s)).port := by
  rw [recordedAt, takeRecord_eq (by exact hS.noFlips), enteredRecord_acceptedAt]

theorem recordedAt_peers {m : Moment} (hS : Sound m s) (l : Lane) (k : FrameKind) (st : Station) (f : RxFrame) :
    (recordedAt m l k st f s).member.peers = s.member.peers.set st (enteredRecord m.tag k st f s) := by
  rw [recordedAt_eq hS]
  rfl

theorem recordedAt_noFlips {m : Moment} (hS : Sound m s) (l : Lane) (k : FrameKind) (st : Station) (f : RxFrame) :
    NoFlips (recordedAt m l k st f s) := by
  rw [recordedAt_eq hS]
  exact hS.noFlips

/-- An accepted frame that is not held back at once ends in its sender's record, and goes on from there (R58 to R61, R69). -/
theorem exec_frameHandlerTake_records {m : Moment} {l : Lane} (hS : Sound m s) (hw : s.atWork = true)
    (hh : heldFrame s.link = some (l, f)) (ha : acceptance (Block.histLen s.block) f = some (k, st))
    (ho : s.member.number = some st → f.own = true) (hnot : heldAtOnce k (s.member.peers.get st) = false) :
    exec (.frameHandlerTake m) s = .next (endHandling (joinAndHandOn k st f (recordedAt m l k st f s))) := by
  rw [exec_frameHandlerTake_toMember hS hw hh ha ho,
    memberFrame_taken (by exact hS.noFlips) (by exact atWork_not_frozen hw) (by exact hnot)]
  rfl

end

/-! ## PRESENCE (R69 to R73) -/

section
variable {st : Station} {f : RxFrame} {s : State} {tag : Tag}

/-- What a PRESENCE of a peer leaves in its record whatever its fingerprint (R70, R72). -/
theorem enteredRecord_presence (ho : s.member.number ≠ some st) :
    (enteredRecord tag .presence st f s).fingerprint = some (u32 f.payload 0) ∧
    (enteredRecord tag .presence st f s).presence = some (presenceOf f.payload) ∧
    (enteredRecord tag .presence st f s).lastHeard = some f.stamp ∧
    (enteredRecord tag .presence st f s).offset = some (clockOffset s f) ∧
    (enteredRecord tag .presence st f s).taken = raised (s.member.peers.get st).taken ∧
    (enteredRecord tag .presence st f s).heldBack = (s.member.peers.get st).heldBack := by
  unfold enteredRecord
  rw [takenRecord_presence_peer ho]
  dsimp only
  split <;> exact ⟨rfl, rfl, rfl, rfl, rfl, rfl⟩

/-- With the own fingerprint the peer is PRESENT, its silence timer started again (R72, R73). -/
theorem enteredRecord_presence_own (ho : s.member.number ≠ some st) (hprint : some (u32 f.payload 0) = s.member.fingerprint) :
    (enteredRecord tag .presence st f s).state = .present ∧
    (enteredRecord tag .presence st f s).digest = (s.member.peers.get st).digest ∧
    (enteredRecord tag .presence st f s).logout = (s.member.peers.get st).logout ∧
    (enteredRecord tag .presence st f s).silence = some (tag + silenceSpan s) := by
  rw [enteredRecord_peer ho (takenRecord_presence hprint), takenRecord_presence_peer ho]
  dsimp only
  rw [if_pos hprint]
  exact ⟨rfl, rfl, rfl, rfl⟩

/-- With another the peer is FOREIGN, and what it had sent of its state is gone (R72). -/
theorem enteredRecord_presence_foreign (ho : s.member.number ≠ some st) (hprint : some (u32 f.payload 0) ≠ s.member.fingerprint) :
    (enteredRecord tag .presence st f s).state = .foreign ∧ (enteredRecord tag .presence st f s).digest = none ∧
    (enteredRecord tag .presence st f s).logout = ⟨none, none, none⟩ ∧ (enteredRecord tag .presence st f s).silence = none := by
  have hrecord := takenRecord_presence_peer (f := f) ho
  dsimp only at hrecord
  rw [if_neg hprint] at hrecord
  rw [enteredRecord_away (by rw [hrecord]; exact nofun), hrecord]
  exact ⟨rfl, rfl, rfl, rfl⟩

end

/-- Settles O28: the record that a PRESENCE leaves is `enteredRecord`; a frame that is held back changes the counts alone. -/
theorem presenceMakesPeerRecord : Obligations.PresenceMakesPeerRecord := by
  intro m s l f st hS hw hh ho
  have hown : s.member.number = some st → f.own = true := fun h => absurd h ho
  refine ⟨fun ha => ?_, fun k hk ha hheld => ?_⟩
  · obtain ⟨hpeers, hlink, hport, htable⟩ := OnlyRecorded.joinAndHandOn_keeps (k := .presence) (st := st) (Or.inl rfl)
      (recordedAt_noFlips hS l .presence st f) f
    have hcounted : (recordedAt m l .presence st f s).link = (acceptedAt m l .presence st f s).link := by
      rw [recordedAt_eq hS]
      rfl
    rw [recordedAt_peers hS] at hpeers
    rw [hcounted, acceptedAt_eq] at hlink
    obtain ⟨hprint, hpresence, hheard, hoffset, htaken, hheldBack⟩ := enteredRecord_presence (f := f) (tag := m.tag) ho
    refine ⟨_, enteredRecord m.tag .presence st f s, exec_frameHandlerTake_records hS hw hh ha hown rfl, ?_, hprint, hpresence, hheard,
      hoffset, htaken, hheldBack, enteredRecord_presence_own ho, enteredRecord_presence_foreign ho, fun hnew hroom => ?_,
      fun st' hne => ?_, ?_, ?_, htable.trans ?_⟩
    · change _ = (joinAndHandOn .presence st f (recordedAt m l .presence st f s)).member.peers.get st
      rw [hpeers, Eight.get_set]
    · change _ ∈ (joinAndHandOn .presence st f (recordedAt m l .presence st f s)).port.notices
      rw [hport, recordedAt_eq hS]
      exact storeTaken_notices (s := acceptedAt m l .presence st f s) hS.noFlips hnew hroom
    · change (joinAndHandOn .presence st f (recordedAt m l .presence st f s)).member.peers.get st' = _
      rw [hpeers, Eight.get_set_ne _ _ hne]
    · change ((joinAndHandOn .presence st f (recordedAt m l .presence st f s)).link.lanes.get l).accepted = _
      rw [hlink, withLink_link, PerLane.get_set]
    · change (joinAndHandOn .presence st f (recordedAt m l .presence st f s)).link.lastAccepted = _
      rw [hlink]
      rfl
    · rw [recordedAt_eq hS]
      rfl
  · have hheld' : heldAtOnce k ((acceptedAt m l k st f s).member.peers.get st) = true := (heldAtOnce_iff _ _).mpr ⟨hk, hheld⟩
    rw [exec_frameHandlerTake_toMember hS hw hh ha hown, memberFrame, if_pos hheld', acceptedAt_eq]
    rfl

end Sys2Proof.Machine
end

section
/-! PROOFS. DIGEST and LOGOUT frames of a sender on record (R70, R73 to R75, R177, R178). -/

namespace Sys2Proof.Machine

section
variable {m : Moment} {s : State} {l : Lane} {f : RxFrame} {k : FrameKind} {st : Station}

/-- A frame that goes on to the blocks of its kind is not held back at once (R69). -/
theorem Handed.not_held (h : Handed m s l f k st) : heldAtOnce k (s.member.peers.get st) = false := by
  obtain ⟨-, -, -, -, -, hprint, hs⟩ := h
  rw [← Bool.not_eq_true, heldAtOnce_iff]
  rintro ⟨-, hf | hf⟩
  · rw [hf] at hs
    revert hs
    decide
  · exact hprint hf

theorem Handed.exec_records (h : Handed m s l f k st) :
    exec (.frameHandlerTake m) s = .next (endHandling (joinAndHandOn k st f (recordedAt m l k st f s))) := by
  have hnot := h.not_held
  obtain ⟨hS, hw, hh, ha, ho, -, -⟩ := h
  exact exec_frameHandlerTake_records hS hw hh ha ho hnot

/-! ## DIGEST (R71, R73, R75) -/

/-- The sender's record after a DIGEST. -/
theorem Handed.enteredRecord_digest (h : Handed m s l f .digest st) : enteredRecord m.tag .digest st f s =
    { touchRecord (clockOffset s f) f.stamp (s.member.peers.get st) with
      state := .present, digest := some (digestContentOf f.payload f.stamp)
      silence := if s.member.number = some st then (s.member.peers.get st).silence else some (m.tag + silenceSpan s) } := by
  obtain ⟨-, -, -, -, -, -, hs⟩ := h
  have hrecord := takenRecord_digest (f := f) hs
  by_cases ho : s.member.number = some st
  · rw [enteredRecord_own ho, hrecord, if_pos ho]
    rfl
  · rw [enteredRecord_peer ho (by rw [hrecord]), hrecord, if_neg ho]

/-- A DIGEST writes no record but its sender's (R75). -/
theorem Handed.digest_peers (h : Handed m s l f .digest st) {t : State} (ht : exec (.frameHandlerTake m) s = .next t) :
    t.member.peers = s.member.peers.set st (enteredRecord m.tag .digest st f s) := by
  have hentered := recordedAt_peers h.1 l .digest st f
  have honly : OnlyRecorded .digest st (recordedAt m l .digest st f s) := by
    refine Or.inr (Or.inr ⟨rfl, ?_⟩)
    rw [hentered, Eight.get_set, h.enteredRecord_digest]
  have hkept := honly.joinAndHandOn_keeps (recordedAt_noFlips h.1 l .digest st f) f
  rw [h.exec_records] at ht
  cases ht
  exact hkept.peers.trans hentered

/-! ## LOGOUT (R73, R74, R147, R178) -/

/-- A LOGOUT goes no further than its sender's record. -/
theorem Handed.exec_logout (h : Handed m s l f .logout st) :
    exec (.frameHandlerTake m) s = .next (endHandling (recordedAt m l .logout st f s)) := by
  rw [h.exec_records, joinAndHandOn_logout]

/-- A frame that leaves its sender's state as it was tells the other blocks nothing. -/
theorem recordedAt_same (hS : Sound m s) (h : (takenRecord k st f s).state = (s.member.peers.get st).state) :
    (recordedAt m l k st f s).agree = s.agree ∧ (recordedAt m l k st f s).port = s.port := by
  rw [recordedAt_eq hS, storeTaken_same (s := acceptedAt m l k st f s) h]
  exact ⟨rfl, rfl⟩

theorem enteredRecord_logout_noPart (hp : logoutPartOf f.payload = none) : enteredRecord m.tag .logout st f s =
    { touchRecord (clockOffset s f) f.stamp (s.member.peers.get st) with
      heldBack := raised (s.member.peers.get st).heldBack
      silence := if s.member.number ≠ some st ∧ (s.member.peers.get st).state = .present then some (m.tag + silenceSpan s)
        else (s.member.peers.get st).silence } := by
  unfold enteredRecord
  rw [takenRecord_logout_noPart hp]
  rfl

theorem takenRecord_logout_state {part : LogoutPart} (hp : logoutPartOf f.payload = some part) (ho : s.member.number ≠ some st) :
    (takenRecord .logout st f s).state = .loggedOut := by
  rw [takenRecord_logout_peer hp ho]

theorem enteredRecord_logout_peer {part : LogoutPart} (hp : logoutPartOf f.payload = some part) (ho : s.member.number ≠ some st) :
    enteredRecord m.tag .logout st f s = { touchRecord (clockOffset s f) f.stamp (s.member.peers.get st) with
      state := .loggedOut, silence := none, logout := storePart part f.payload (s.member.peers.get st).logout } := by
  rw [enteredRecord_away (by rw [takenRecord_logout_state hp ho]; decide), takenRecord_logout_peer hp ho]

/-- A peer's LOGOUT that changes its state abandons the transfer awaited from it (R74, R147; log entry 11). -/
theorem recordedAt_logout_donor {part : LogoutPart} (hS : Sound m s) (hp : logoutPartOf f.payload = some part)
    (ho : s.member.number ≠ some st) (hnew : (s.member.peers.get st).state ≠ .loggedOut) {c : Option CycleNo} {v : BitVec 32} {n : Nat}
    {r : Option RowFrame} {b : List SegmentRecord} (ht : s.agree.transfer = .awaiting st c v n r b) :
    (recordedAt m l .logout st f s).agree = transferGone s.agree ∧
      (recordedAt m l .logout st f s).port = (raiseAll [⟨s.tracker.cycle, stNo st, .peerState .loggedOut⟩,
        ⟨s.tracker.cycle, stNo st, .transfer (.abandoned .donor)⟩] s).port := by
  obtain ⟨hagree, hport⟩ := storeTaken_donor (s := acceptedAt m l .logout st f s) (takenRecord_logout_state (s := s) hp ho)
    (by exact hnew.symm) (by decide) ht
  rw [recordedAt_eq hS]
  exact ⟨hagree, hport.trans (raiseAll_port _ rfl)⟩

theorem recordedAt_logout_noDonor {part : LogoutPart} (hS : Sound m s) (hp : logoutPartOf f.payload = some part)
    (ho : s.member.number ≠ some st) (hnew : (s.member.peers.get st).state ≠ .loggedOut)
    (ht : ∀ c v n r b, s.agree.transfer ≠ .awaiting st c v n r b) :
    (recordedAt m l .logout st f s).agree = s.agree ∧
      (recordedAt m l .logout st f s).port = (raise ⟨s.tracker.cycle, stNo st, .peerState .loggedOut⟩ s).port := by
  obtain ⟨hagree, hport⟩ := storeTaken_noDonor (s := acceptedAt m l .logout st f s) (takenRecord_logout_state (s := s) hp ho)
    (by exact hnew.symm) (by decide) ht
  rw [recordedAt_eq hS]
  exact ⟨hagree, hport.trans (raise_port _ rfl)⟩

/-- A kept part 2: its flags byte, and each of the eight entries whose flag is set (R74, R177; log entry 49). -/
theorem keptEntries_entry (p : List Byte) {i : Nat} (hi : i < 8) : (keptEntries p).getD (i + 1) 0 =
    if (p.getD 1 0).getLsbD (i / 2) then p.getD (2 + i) 0 else 0 := by
  unfold keptEntries
  rw [List.getD_cons_succ, List.getD_eq_getElem _ _ (by simpa using hi), List.getElem_map, List.getElem_range]

end

/-- Settles O29: both frames end in `enteredRecord`; a DIGEST reaches the other blocks as any frame of a sender on record does, and a LOGOUT
tells them the change of state alone. -/
theorem digestAndLogoutFramesRecorded : Obligations.DigestAndLogoutFramesRecorded := by
  refine ⟨fun m s l f st s0 old h h0 hold => ?_, fun m s l f st old base h hold hbase => ?_,
    fun p i hi => ⟨by simp [keptEntries], rfl, keptEntries_entry p hi⟩⟩
  · subst h0 hold
    obtain ⟨u, hexec, hfound⟩ := handed_take h (by decide) (by decide)
    obtain ⟨⟨htracker, hcoin, hevid, hstation⟩, ⟨hagree, hcoup, hchannels, hport⟩, -, -, -, hrecord, -, -⟩ := hfound
    have hpeers := h.digest_peers hexec
    refine ⟨_, hexec, ?_, fun st' hne => ?_, hstation, hport, htracker, hcoin, hevid, hagree, hcoup, hrecord, hchannels⟩
    · rw [hpeers, Eight.get_set, h.enteredRecord_digest]
      rfl
    · rw [hpeers, Eight.get_set_ne _ _ hne]
  · subst hold hbase
    have hS := h.1
    have hget : (endHandling (recordedAt m l .logout st f s)).member.peers.get st = enteredRecord m.tag .logout st f s :=
      (congrArg (·.get st) (recordedAt_peers hS l .logout st f)).trans (Eight.get_set _ _ _)
    refine ⟨_, h.exec_logout, fun hpart => ?_, fun h1 h3 ho => ?_, fun ho => ⟨fun h1 => ?_, fun h2 => ?_, fun h3 => ?_,
      fun h1 h3 hnew => ⟨fun c v n r b ht => ?_, fun ht => ?_⟩⟩, fun st' hne => ?_, ?_⟩
    · have hnone := logoutPartOf_none hpart
      exact ⟨hget.trans (enteredRecord_logout_noPart hnone), recordedAt_same hS (by rw [takenRecord_logout_noPart hnone]; rfl)⟩
    · obtain ⟨part, hsome⟩ := logoutPartOf_some h1 h3
      have hrecord := takenRecord_logout_own hsome ho
      exact ⟨hget.trans ((enteredRecord_own ho).trans hrecord), recordedAt_same hS (by rw [hrecord]; rfl)⟩
    · exact hget.trans (enteredRecord_logout_peer (logoutPartOf_one h1) ho)
    · exact hget.trans (enteredRecord_logout_peer (logoutPartOf_two h2) ho)
    · exact hget.trans (enteredRecord_logout_peer (logoutPartOf_three h3) ho)
    · obtain ⟨part, hsome⟩ := logoutPartOf_some h1 h3
      exact recordedAt_logout_donor hS hsome ho hnew ht
    · obtain ⟨part, hsome⟩ := logoutPartOf_some h1 h3
      exact recordedAt_logout_noDonor hS hsome ho hnew ht
    · exact (congrArg (·.get st') (recordedAt_peers hS l .logout st f)).trans (Eight.get_set_ne _ _ hne)
    · rw [recordedAt_eq hS]
      exact ⟨rfl, rfl, rfl, rfl, rfl, rfl⟩

end Sys2Proof.Machine
end

section
/-! PROOFS. The close of groups with sound stores (R84 to R92): what one close, and the closes of all groups due, do to the Coincidence
Unit and leave of the rest; who publishes a closed group. -/

namespace Sys2Proof.Machine

/-! ## What closes leave alone -/

/-- Between `s` and `t` groups may have closed and been published: the Hit Window has lost entries from its front only, a closed horizon that
stood still stands, and beside the Coincidence Unit only the transmit queue and the selection from it have changed. -/
structure GroupsTaken (s t : State) : Prop where
  window : t.coin.window <:+ s.coin.window
  horizon : s.coin.horizon ≠ none → t.coin.horizon ≠ none
  tracker : t.tracker = s.tracker
  member : t.member = s.member
  evid : t.evid = s.evid
  agree : t.agree = s.agree
  coup : t.coup = s.coup
  fault : t.fault = s.fault
  port : t.port = s.port
  units : t.channels.units = s.channels.units
  now : t.now = s.now

section
variable {s t u : State}

theorem GroupsTaken.refl (s : State) : GroupsTaken s s := ⟨List.suffix_rfl, id, rfl, rfl, rfl, rfl, rfl, rfl, rfl, rfl, rfl⟩

theorem GroupsTaken.trans (h : GroupsTaken s t) (h' : GroupsTaken t u) : GroupsTaken s u where
  window := h'.window.trans h.window
  horizon hs := h'.horizon (h.horizon hs)
  tracker := h'.tracker.trans h.tracker
  member := h'.member.trans h.member
  evid := h'.evid.trans h.evid
  agree := h'.agree.trans h.agree
  coup := h'.coup.trans h.coup
  fault := h'.fault.trans h.fault
  port := h'.port.trans h.port
  units := h'.units.trans h.units
  now := h'.now.trans h.now

theorem GroupsTaken.noFlips (h : GroupsTaken s t) (hn : NoFlips s) : NoFlips t := by
  unfold NoFlips
  rw [h.fault]
  exact hn

theorem GroupsTaken.live (h : GroupsTaken s t) (hs : s.member.station ≠ .frozen) : t.member.station ≠ .frozen := by
  rw [h.member]
  exact hs

/-- The selection of the next frame closes no group. -/
theorem SelectedFrom.groupsTaken (h : SelectedFrom s t) : GroupsTaken s t := by
  obtain ⟨_, _, _, rfl⟩ := h
  exact ⟨List.suffix_rfl, id, rfl, rfl, rfl, rfl, rfl, rfl, rfl, rfl, rfl⟩

end

/-! ## Asking for an EVENT (R46) -/

section
variable {s : State} {payload : List Byte} {taken : Nat → State → State} {refused : State → State}

theorem canRequest_event (s : State) : canRequest .event s = decide (s.link.queue.length < 12) := by
  unfold canRequest queueCapacity
  simp

/-- With room in the transmit queue the EVENT's descriptor joins it, the requester notes its name, and the next frame is selected. -/
theorem request_event_taken (hn : NoFlips (taken s.link.nextRef (enqueue .event payload s))) (hroom : s.link.queue.length < 12) :
    SelectedFrom (taken s.link.nextRef (enqueue .event payload s)) (request .event payload taken refused s) := by
  rw [request_sound _ _ _ _ hn, canRequest_event, if_pos (decide_eq_true hroom)]
  exact selectFrame_from _

theorem request_event_refused (hfull : 12 ≤ s.link.queue.length) : request .event payload taken refused s = refused s := by
  unfold request
  rw [canRequest_event, if_neg (by simpa using hfull)]

end

/-! ## One close (R84, R88 to R91) -/

section
variable {g : OpenGroup} {members : List HitEntry} {crowded : Bool} {rank : Nat} {s : State}

/-- The station whose open group `g` has left the Hit Window and moved the closed horizon (R84, R88). -/
def groupLeft (g : OpenGroup) (s : State) : State := s.withCoin { s.coin with
  window := s.coin.window.drop g.members.length
  horizon := moveHorizon s.coin.horizon (g.anchor + span (Block.cw s.block)) }

theorem moveHorizon_ne_none (h : Option Tag) (spanEnd : Tag) : moveHorizon h spanEnd ≠ none := by
  unfold moveHorizon
  split
  next => exact nofun
  next => split <;> exact nofun

theorem groupLeft_taken (g : OpenGroup) (s : State) : GroupsTaken s (groupLeft g s) where
  window := List.drop_suffix _ _
  horizon _ := moveHorizon_ne_none _ _
  tracker := rfl
  member := rfl
  evid := rfl
  agree := rfl
  coup := rfl
  fault := rfl
  port := rfl
  units := rfl
  now := rfl

@[simp] theorem withCoin_ownNo (s : State) (v : Coincidence) : (s.withCoin v).ownNo = s.ownNo := rfl

/-- A station without a member does nothing more (R89). -/
theorem closeGroup_outside (h : rankOf s.ownNo g.members = none) : closeGroup g s = groupLeft g s := by
  unfold closeGroup
  dsimp only
  rw [withCoin_ownNo, h]
  rfl

/-- The station of rank 0 is the group's owner (R90). -/
theorem closeGroup_owner (h : rankOf s.ownNo g.members = some 0) :
    closeGroup g s = publishAsOwner g.members g.crowded (groupLeft g s) := by
  unfold closeGroup
  dsimp only
  rw [withCoin_ownNo, h]
  rfl

/-- A station of a rank above 0 waits for the owner (R91). -/
theorem closeGroup_ranked (h : rankOf s.ownNo g.members = some (rank + 1)) :
    closeGroup g s = pendGroup g.members g.crowded (rank + 1) (groupLeft g s) := by
  unfold closeGroup
  dsimp only
  rw [withCoin_ownNo, h]
  rfl

theorem publishAsOwner_room (hn : NoFlips s) (hroom : s.link.queue.length < 12) :
    SelectedFrom (ownerTaken s.link.nextRef (enqueue .event (eventPayload members crowded s) s)) (publishAsOwner members crowded s) := by
  unfold publishAsOwner
  rw [usingConfig_sound hn]
  exact request_event_taken hn hroom

theorem publishAsOwner_full (hn : NoFlips s) (hfull : 12 ≤ s.link.queue.length) :
    publishAsOwner members crowded s = eventDropped s := by
  unfold publishAsOwner
  rw [usingConfig_sound hn]
  exact request_event_refused hfull

theorem pendGroup_room (hn : NoFlips s) (hroom : s.coin.pendingGroups.length < 8) :
    pendGroup members crowded rank s = addPending members crowded rank s := by
  unfold pendGroup pendingCapacity
  rw [if_neg (by omega), usingConfig_sound hn]

theorem pendGroup_full (hfull : 8 ≤ s.coin.pendingGroups.length) :
    pendGroup members crowded rank s = coinCounts (fun k => { k with groupsDropped := raised k.groupsDropped }) s := if_pos hfull

theorem publishAsOwner_taken (members : List HitEntry) (crowded : Bool) (hn : NoFlips s) :
    GroupsTaken s (publishAsOwner members crowded s) := by
  by_cases hroom : s.link.queue.length < 12
  · have hasked : GroupsTaken s (ownerTaken s.link.nextRef (enqueue .event (eventPayload members crowded s) s)) :=
      ⟨List.suffix_rfl, id, rfl, rfl, rfl, rfl, rfl, rfl, rfl, rfl, rfl⟩
    exact hasked.trans (publishAsOwner_room hn hroom).groupsTaken
  · rw [publishAsOwner_full hn (by omega)]
    exact ⟨List.suffix_rfl, id, rfl, rfl, rfl, rfl, rfl, rfl, rfl, rfl, rfl⟩

theorem pendGroup_taken (members : List HitEntry) (crowded : Bool) (rank : Nat) (hn : NoFlips s) :
    GroupsTaken s (pendGroup members crowded rank s) := by
  by_cases hroom : s.coin.pendingGroups.length < 8
  · rw [pendGroup_room hn hroom]
    exact ⟨List.suffix_rfl, id, rfl, rfl, rfl, rfl, rfl, rfl, rfl, rfl, rfl⟩
  · rw [pendGroup_full (by omega)]
    exact ⟨List.suffix_rfl, id, rfl, rfl, rfl, rfl, rfl, rfl, rfl, rfl, rfl⟩

/-- Publishing or pending a group closes no other. -/
theorem closeGroup_left (g : OpenGroup) (hn : NoFlips s) : GroupsTaken (groupLeft g s) (closeGroup g s) := by
  match h : rankOf s.ownNo g.members with
  | none =>
    rw [closeGroup_outside h]
    exact .refl _
  | some 0 =>
    rw [closeGroup_owner h]
    exact publishAsOwner_taken _ _ hn
  | some (r + 1) =>
    rw [closeGroup_ranked h]
    exact pendGroup_taken _ _ _ hn

theorem closeGroup_taken (g : OpenGroup) (hn : NoFlips s) : GroupsTaken s (closeGroup g s) :=
  (groupLeft_taken g s).trans (closeGroup_left g hn)

theorem closeGroup_horizon (g : OpenGroup) (hn : NoFlips s) : (closeGroup g s).coin.horizon ≠ none :=
  (closeGroup_left g hn).horizon (moveHorizon_ne_none _ _)

/-- The open group is read from the Hit Window and the configuration store alone (R85). -/
theorem openGroup_congr {t : State} (hwindow : t.coin.window = s.coin.window) (hblock : t.block = s.block) :
    t.openGroup = s.openGroup := by
  unfold State.openGroup
  rw [hwindow, hblock]

theorem openGroup_none (h : s.coin.window = []) : s.openGroup = none := by
  unfold State.openGroup
  rw [h]
  rfl

/-- The open group has a member, the window's earliest entry (R85). -/
theorem openGroup_members (h : s.openGroup = some g) : 0 < g.members.length ∧ 0 < s.coin.window.length := by
  unfold State.openGroup at h
  match hw : s.coin.window with
  | [] =>
    rw [hw] at h
    cases h
  | e :: w =>
    rw [hw] at h
    cases h
    have hspan : spanEntries (Block.cw s.block) (e :: w) =
        e :: w.takeWhile fun h => elapsed h.localArrival e.localArrival ≤ Block.cw s.block := by
      unfold spanEntries
      exact List.takeWhile_cons_of_pos (by simp [elapsed])
    rw [hspan]
    exact ⟨Nat.succ_pos _, Nat.succ_pos _⟩

/-- Each close takes at least one hit out of the window (R88). -/
theorem closeGroup_window_lt (hn : NoFlips s) (h : s.openGroup = some g) :
    (closeGroup g s).coin.window.length < s.coin.window.length := by
  obtain ⟨hmembers, hwindow⟩ := openGroup_members h
  have hle : (closeGroup g s).coin.window.length ≤ (s.coin.window.drop g.members.length).length :=
    (closeGroup_left g hn).window.length_le
  rw [List.length_drop] at hle
  omega

end

/-! ## The closes of all groups due (R86, R88) -/

section
variable {n : Nat} {g : OpenGroup} {s : State}

/-- No group is due: the open group's close expiry lies ahead (R87). -/
def NoneDue (s : State) : Prop := ∀ g, s.openGroup = some g → reached s.now g.expiry = false

theorem noneDue_of_empty (h : s.coin.window = []) : NoneDue s := fun g hg => by
  rw [openGroup_none h] at hg
  cases hg

theorem due_or_noneDue (s : State) : (∃ g, s.openGroup = some g ∧ reached s.now g.expiry = true) ∨ NoneDue s := by
  match hg : s.openGroup with
  | none => exact Or.inr fun g h => by rw [hg] at h; cases h
  | some g =>
    cases hr : reached s.now g.expiry with
    | true => exact Or.inl ⟨g, rfl, hr⟩
    | false =>
      refine Or.inr fun g' h => ?_
      rw [hg] at h
      cases h
      exact hr

theorem closeDueGroups_noneDue (n : Nat) (h : NoneDue s) : closeDueGroups n s = s := by
  cases n with
  | zero => rfl
  | succ n =>
    unfold closeDueGroups
    split
    next g hg => rw [if_neg (by rw [h g hg]; exact Bool.false_ne_true)]
    next => rfl

theorem closeDueGroups_due (hn : NoFlips s) (hlive : s.member.station ≠ .frozen) (hg : s.openGroup = some g)
    (hr : reached s.now g.expiry = true) : closeDueGroups (n + 1) s = closeDueGroups n (closeGroup g s) := by
  rw [closeDueGroups, hg]
  dsimp only
  rw [if_pos hr, unlessFrozen_live ((closeGroup_taken g hn).live hlive)]

theorem closeDueGroups_taken (n : Nat) (hn : NoFlips s) (hlive : s.member.station ≠ .frozen) : GroupsTaken s (closeDueGroups n s) := by
  induction n generalizing s with
  | zero => exact .refl s
  | succ n ih =>
    obtain ⟨g, hg, hr⟩ | hnone := due_or_noneDue s
    · have hclosed := closeGroup_taken g hn
      rw [closeDueGroups_due hn hlive hg hr]
      exact hclosed.trans (ih (hclosed.noFlips hn) (hclosed.live hlive))
    · rw [closeDueGroups_noneDue _ hnone]
      exact .refl s

/-- As many closes as the window has entries leave no group due. -/
theorem closeDueGroups_leaves_noneDue (hn : NoFlips s) (hlive : s.member.station ≠ .frozen) (hlen : s.coin.window.length ≤ n) :
    NoneDue (closeDueGroups n s) := by
  induction n generalizing s with
  | zero => exact noneDue_of_empty (List.length_eq_zero_iff.mp (Nat.le_zero.mp hlen))
  | succ n ih =>
    obtain ⟨g, hg, hr⟩ | hnone := due_or_noneDue s
    · have hclosed := closeGroup_taken g hn
      have hlt := closeGroup_window_lt hn hg
      rw [closeDueGroups_due hn hlive hg hr]
      exact ih (hclosed.noFlips hn) (hclosed.live hlive) (by omega)
    · rw [closeDueGroups_noneDue _ hnone]
      exact hnone

end

/-! ## The close expiry (R87) -/

section
variable {m : Moment} {s : State} {g : OpenGroup}

theorem exec_closeExpiry_due (hS : Sound m s) (hw : s.atWork = true) (hg : s.openGroup = some g) (hr : reached m.tag g.expiry = true) :
    exec (.closeExpiry m) s = .next (closeDueGroups 63 (closeGroup g (s.withNow m.tag))) := by
  have hg' : (s.withNow m.tag).openGroup = some g := hg
  have hr' : reached (s.withNow m.tag).now g.expiry = true := by rw [withNow_now]; exact hr
  have hdue : closeDue (s.withNow m.tag) = true := by
    have hw' : (s.withNow m.tag).atWork = true := hw
    unfold closeDue
    rw [hw', hg']
    exact hr'
  have hn : NoFlips (s.withNow m.tag) := hS.noFlips
  rw [exec_closeExpiry_quiet m s hS.noFaultToFind, if_pos hdue, takeCloseExpiry, usingConfig_sound hn, closeExpired, checkWindow_sound hn,
    ← closeDueGroups_due hn (atWork_not_frozen (s := s) hw) hg' hr']
  rfl

/-- A close expiry before its tag changes nothing (log entry 2). -/
theorem exec_closeExpiry_early (hS : Sound m s) (hg : s.openGroup = some g) (hr : reached m.tag g.expiry = false) :
    exec (.closeExpiry m) s = .next (s.withNow m.tag) := by
  have hdue : closeDue (s.withNow m.tag) = false := by
    have hg' : (s.withNow m.tag).openGroup = some g := hg
    unfold closeDue
    rw [hg', withNow_now, Bool.and_eq_false_iff]
    exact Or.inr hr
  rw [exec_closeExpiry_quiet m s hS.noFaultToFind, hdue, if_neg Bool.false_ne_true]

end

/-- Settles O34: the first close takes an entry and sets the horizon, and the closes after it keep both, until none is due. -/
theorem closeExpiryTakesGroups : Obligations.CloseExpiryTakesGroups := by
  intro m s g hS hw hcap hg
  refine ⟨fun hr => ?_, exec_closeExpiry_early hS hg⟩
  have hn : NoFlips (s.withNow m.tag) := hS.noFlips
  have hfirst := closeGroup_taken g hn
  have hlt := closeGroup_window_lt hn (show (s.withNow m.tag).openGroup = some g from hg)
  have hlive := hfirst.live (atWork_not_frozen (s := s) hw)
  have hrest := closeDueGroups_taken 63 (hfirst.noFlips hn) hlive
  have hall := hfirst.trans hrest
  refine ⟨_, exec_closeExpiry_due hS hw hg hr, fun g' hg' => ?_, hall.window, hrest.window.length_le.trans_lt hlt,
    hrest.horizon (closeGroup_horizon g hn), hall.tracker, hall.member, hall.evid, hall.agree, hall.fault⟩
  have hlen : s.coin.window.length ≤ 64 := hcap.window
  have hnone := closeDueGroups_leaves_noneDue (n := 63) (hfirst.noFlips hn) hlive (Nat.le_of_lt_succ (hlt.trans_le hlen)) g' hg'
  rwa [hall.now, withNow_now] at hnone

/-! ## The publisher (R88 to R92) -/

/-- The station of the earliest member has rank 0, and no other (R89). -/
theorem rankOf_cons_zero (station : Nat) (e : HitEntry) (es : List HitEntry) :
    rankOf station (e :: es) = some 0 ↔ e.id.station = station := by
  unfold rankOf stationOrder
  rw [List.findIdx?_cons]
  by_cases h : e.id.station = station <;> simp [h]

section
variable {m : Moment} {s : State} {g : OpenGroup} {key : HitId} {p : PendingGroup}

/-- Where the whole window is one due group, its close is all that happens. -/
theorem exec_closeExpiry_whole (hS : Sound m s) (hw : s.atWork = true) (hg : s.openGroup = some g) (hr : reached m.tag g.expiry = true)
    (hall : s.coin.window = g.members) : exec (.closeExpiry m) s = .next (closeGroup g (s.withNow m.tag)) := by
  have hsuffix : (closeGroup g (s.withNow m.tag)).coin.window <:+ s.coin.window.drop g.members.length :=
    (closeGroup_left g (s := s.withNow m.tag) hS.noFlips).window
  rw [hall, List.drop_length] at hsuffix
  rw [exec_closeExpiry_due hS hw hg hr, closeDueGroups_noneDue _ (noneDue_of_empty (List.suffix_nil.mp hsuffix))]

theorem groupLeft_whole (tag : Tag) (hall : s.coin.window = g.members) : groupLeft g (s.withNow tag) = (s.withNow tag).withCoin
    { s.coin with window := [], horizon := moveHorizon s.coin.horizon (g.anchor + span (Block.cw s.block)) } := by
  unfold groupLeft
  rw [withNow_coin, hall, List.drop_length]
  rfl

theorem deadlineEntry_eq_some (h : deadlineEntry key s = some p) :
    p ∈ s.coin.pendingGroups ∧ groupKey p.members = key ∧ p.publication = .waiting ∧ reached s.now p.deadline = true := by
  have htest := List.find?_some h
  simp only [Bool.and_eq_true, beq_iff_eq] at htest
  exact ⟨List.mem_of_find?_eq_some h, htest.1.1, htest.1.2, htest.2⟩

theorem exec_publicationDeadline_due (hS : Sound m s) (hw : s.atWork = true) (hp : deadlineEntry key (s.withNow m.tag) = some p) :
    exec (.publicationDeadline m key) s = .next (requestAsStandIn p (s.withNow m.tag)) := by
  have hw' : (s.withNow m.tag).atWork = true := hw
  rw [exec_publicationDeadline_quiet m key s hS.noFaultToFind, hp]
  dsimp only
  rw [if_pos hw', publishAsStandIn, usingConfig_sound (by exact hS.noFlips)]

end

/-- Settles O35: by the station's rank in the group, and by whether the transmit queue and the Pending Group List have room. -/
theorem groupPublishedOrPended : Obligations.GroupPublishedOrPended := by
  refine ⟨fun m s g c hS hw hg hr hall hc => ?_, fun m s key p hS hw hp => ?_⟩
  · have hexec := exec_closeExpiry_whole hS hw hg hr hall
    have hleft : groupLeft g (s.withNow m.tag) = (s.withNow m.tag).withCoin c := by rw [groupLeft_whole m.tag hall, hc]
    have hn : NoFlips ((s.withNow m.tag).withCoin c) := hS.noFlips
    have hpending : c.pendingGroups = s.coin.pendingGroups := by rw [hc]
    refine ⟨fun hrank => ?_, fun hrank hroom => ?_, fun hrank hfull => ?_, fun r hrank hroom => ?_, fun r hrank hfull => ?_,
      fun e es hes => ?_⟩
    · rw [hexec, closeGroup_outside (by exact hrank), hleft]
      rfl
    · rw [closeGroup_owner (by exact hrank), hleft] at hexec
      have hasked := publishAsOwner_room (members := g.members) (crowded := g.crowded) hn hroom
      refine ⟨_, hexec, hasked.coin, hasked.queue.trans ?_⟩
      unfold ownerTaken enqueue
      rw [withCoin_now, withNow_now]
      rfl
    · rw [hexec, closeGroup_owner (by exact hrank), hleft, publishAsOwner_full hn (by exact hfull)]
      rfl
    · rw [hexec, closeGroup_ranked (by exact hrank), hleft, pendGroup_room hn (by rw [withCoin_coin, hpending]; exact hroom)]
      unfold addPending
      rw [withCoin_now, withNow_now]
      rfl
    · rw [hexec, closeGroup_ranked (by exact hrank), hleft, pendGroup_full (by rw [withCoin_coin, hpending]; exact hfull)]
      rfl
    · rw [hes]
      exact ⟨rankOf_cons_zero _ _ _, rfl⟩
  · have hentry := deadlineEntry_eq_some hp
    rw [withNow_now] at hentry
    have hexec := exec_publicationDeadline_due hS hw hp
    refine ⟨hentry, fun hroom => ?_, fun hfull => ?_⟩
    · have hasked : SelectedFrom _ (requestAsStandIn p (s.withNow m.tag)) := request_event_taken (by exact hS.noFlips) hroom
      refine ⟨_, hexec, hasked.coin, hasked.queue.trans ?_, hasked.tracker, hasked.evid, hasked.member⟩
      unfold standInTaken enqueue
      rw [withNow_now]
      rfl
    · rw [hexec, requestAsStandIn, request_event_refused (by exact hfull)]
      rfl

end Sys2Proof.Machine
end

section
/-! PROOFS. EVENT frames with sound stores (R93, R109 to R112): the pending groups that an EVENT covers go, and its record is judged. -/

namespace Sys2Proof.Machine

theorem chOf_isSome_iff (n : Nat) : (chOf n).isSome = true ↔ 1 ≤ n ∧ n ≤ 4 := by
  match n with
  | 0 => decide
  | 1 => decide
  | 2 => decide
  | 3 => decide
  | 4 => decide
  | n + 5 => simp [chOf]

theorem eventWellFormed_iff (nSeg : Nat) (e : EventRecord) : eventWellFormed nSeg e = true ↔
    e.segment ≤ nSeg ∧ (∀ i ∈ e.ids, 1 ≤ i.channel ∧ i.channel ≤ 4) ∧ e.ids.Nodup := by
  simp [eventWellFormed, chOf_isSome_iff, and_assoc]

theorem sharesIdentity_iff (ids : List HitId) (members : List HitEntry) :
    sharesIdentity ids members = true ↔ ∃ x ∈ members, x.id ∈ ids := by
  simp [sharesIdentity]

section
variable {s : State} {e : EventRecord} {st : Station}

/-! ## The Coincidence Unit's receipt (R93) -/

/-- The pending groups that an EVENT of the open cycle covers. -/
def coveredGroups (e : EventRecord) (s : State) : List PendingGroup :=
  s.coin.pendingGroups.filter fun p => sharesIdentity e.ids p.members

/-- The covered groups leave the Pending Group List, and their QUEUED descriptors the transmit queue, but for the current frame's. -/
theorem eventReceipt_ofCycle (ho : s.tracker.isOpen = true) (hc : e.cycle = s.tracker.cycle) : eventReceipt e s =
    (s.withCoin { s.coin with pendingGroups := s.coin.pendingGroups.filter fun p => !sharesIdentity e.ids p.members }).withLink
      { s.link with queue := s.link.queue.filter fun d => isSelected d.ref s || !(pendingRefs (coveredGroups e s)).contains d.ref } := by
  unfold eventReceipt
  rw [if_pos ⟨ho, hc⟩, withdrawPendings_eq, withdraws_eq]
  rfl

theorem eventReceipt_otherCycle (h : s.tracker.isOpen = false ∨ e.cycle ≠ s.tracker.cycle) : eventReceipt e s = s := by
  unfold eventReceipt
  rw [if_neg]
  rintro ⟨ho, hc⟩
  rcases h with h | h
  · rw [ho] at h
    cases h
  · exact h hc

/-- The receipt writes the Pending Group List and the transmit queue alone. -/
theorem eventReceipt_eq (e : EventRecord) (s : State) : eventReceipt e s =
    (s.withCoin (eventReceipt e s).coin).withLink { s.link with queue := (eventReceipt e s).link.queue } := by
  by_cases h : s.tracker.isOpen = true ∧ e.cycle = s.tracker.cycle
  · rw [eventReceipt_ofCycle h.1 h.2]
    rfl
  · rw [eventReceipt_otherCycle (by cases ho : s.tracker.isOpen <;> simp_all)]
    rfl

theorem isSelected_iff (ref : Nat) (s : State) : isSelected ref s = true ↔ ∃ c, s.link.current = some c ∧ c.ref = some ref := by
  unfold isSelected
  cases s.link.current <;> simp

theorem pendingRefs_coveredGroups (ref : Nat) : (pendingRefs (coveredGroups e s)).contains ref = false ↔
    ∀ p ∈ s.coin.pendingGroups, sharesIdentity e.ids p.members = true → p.publication ≠ .queued ref := by
  rw [pendingRefs_contains]
  simp [coveredGroups]

/-- Which descriptors an EVENT of the open cycle leaves in the transmit queue (R93). -/
theorem mem_eventReceipt_queue (ho : s.tracker.isOpen = true) (hc : e.cycle = s.tracker.cycle) (d : Descriptor) :
    d ∈ (eventReceipt e s).link.queue ↔ d ∈ s.link.queue ∧ ((∃ c, s.link.current = some c ∧ c.ref = some d.ref) ∨
      ∀ p ∈ s.coin.pendingGroups, sharesIdentity e.ids p.members = true → p.publication ≠ .queued d.ref) := by
  rw [eventReceipt_ofCycle ho hc, withLink_link, List.mem_filter, Bool.or_eq_true, Bool.not_eq_true', isSelected_iff,
    pendingRefs_coveredGroups]

/-! ## The Evidence Unit's judgment (R109 to R112) -/

/-- The Evidence Unit after an EVENT has been judged against the Applied Event List (R111, R112). -/
def judgedEvid (j : Judgement) (v : Evidence) : Evidence := { v with
  applied := j.list
  counts := { v.counts with
    applied := if j.applied then raised v.counts.applied else v.counts.applied
    duplicate := if j.duplicate then raised v.counts.duplicate else v.counts.duplicate
    listFull := if j.full then raised v.counts.listFull else v.counts.listFull } }

/-- What the check of the Applied Event List writes besides the list (R162). -/
theorem checkApplied_eq (s : State) : checkApplied s = (s.withEvid (checkApplied s).evid).withFault (checkApplied s).fault := rfl

theorem checkApplied_record (s : State) : (checkApplied s).fault.record = s.fault.record := rfl

theorem judgeApplied_malformed (h : eventWellFormed (Block.nSeg s.block) e = false) : judgeApplied st e s =
    s.withEvid { s.evid with counts := { s.evid.counts with malformed := raised s.evid.counts.malformed } } := if_pos h

theorem judgeApplied_stale (hwf : eventWellFormed (Block.nSeg s.block) e = true)
    (h : s.tracker.isOpen = false ∨ e.cycle ≠ s.tracker.cycle) : judgeApplied st e s =
    s.withEvid { s.evid with counts := { s.evid.counts with stale := raised s.evid.counts.stale } } := by
  unfold judgeApplied
  rw [if_neg (by rw [hwf]; decide), if_pos h]
  rfl

theorem judgeApplied_judged (hn : NoFlips s) (hwf : eventWellFormed (Block.nSeg s.block) e = true) (ho : s.tracker.isOpen = true)
    (hc : e.cycle = s.tracker.cycle) : judgeApplied st e s =
    (s.withEvid (judgedEvid (judgeEvent s.evid.applied ⟨e, stNo st⟩) s.evid)).withFault (checkApplied s).fault := by
  unfold judgeApplied
  rw [if_neg (by rw [hwf]; decide), if_neg (by simp [ho, hc])]
  dsimp only
  rw [checkApplied_applied hn, checkApplied_eq]
  unfold evidCounts
  rw [withEvid_evid]
  rfl

/-- The judgment goes by the Evidence Unit, the tracker and the configuration alone, and writes the Evidence Unit and, of the Fault Unit,
not the record. -/
theorem judgeApplied_elsewhere (st : Station) (e : EventRecord) (hn : NoFlips s) (c : Coincidence) (k : Link) :
    ∃ fault, fault.record = s.fault.record ∧ judgeApplied st e ((s.withCoin c).withLink k) =
      (((s.withCoin c).withLink k).withEvid (judgeApplied st e s).evid).withFault fault := by
  cases hwf : eventWellFormed (Block.nSeg s.block) e with
  | false =>
    rw [judgeApplied_malformed hwf, judgeApplied_malformed (by exact hwf)]
    exact ⟨s.fault, rfl, rfl⟩
  | true =>
    by_cases h : s.tracker.isOpen = false ∨ e.cycle ≠ s.tracker.cycle
    · rw [judgeApplied_stale hwf h, judgeApplied_stale (by exact hwf) (by exact h)]
      exact ⟨s.fault, rfl, rfl⟩
    · rw [not_or, Bool.not_eq_false, not_not] at h
      obtain ⟨ho, hc⟩ := h
      rw [judgeApplied_judged hn hwf ho hc, judgeApplied_judged (by exact hn) (by exact hwf) (by exact ho) (by exact hc)]
      exact ⟨_, checkApplied_record ((s.withCoin c).withLink k), rfl⟩

/-- What the blocks of its kind make of an EVENT of a PRESENT sender (R93, R109). -/
theorem handToBlocks_event {f : RxFrame} (hn : NoFlips s) (hp : (s.member.peers.get st).state = .present) (he : e = eventOf f.payload) :
    ∃ fault, fault.record = s.fault.record ∧ handToBlocks .event st f s =
      (((s.withCoin (eventReceipt e s).coin).withLink { s.link with queue := (eventReceipt e s).link.queue }).withEvid
        (judgeApplied st e s).evid).withFault fault := by
  obtain ⟨fault, hrecord, hjudged⟩ :=
    judgeApplied_elsewhere st e hn (eventReceipt e s).coin { s.link with queue := (eventReceipt e s).link.queue }
  rw [← eventReceipt_eq e s] at hjudged
  have hkept := eventReceipt_memberKept e ⟨hn, (rfl : s.member = s.member)⟩
  refine ⟨fault, hrecord, ?_⟩
  unfold handToBlocks applyEvent
  dsimp only
  rw [← he, if_neg (by rw [hkept.2]; exact fun h => h hp), usingConfig_sound hkept.1, hjudged, ← eventReceipt_eq]

end

/-- The blocks take a frame with the configuration of before. -/
theorem FoundBy.block {m : Moment} {f : RxFrame} {st : Station} {s x : State} (h : FoundBy m f st s x) : x.block = s.block := by
  obtain ⟨-, ⟨-, -, -, hport⟩, -⟩ := h
  unfold State.block
  rw [hport, raiseAll_config]

/-- Settles O33: the receipt of the Coincidence Unit and the judgment of the Evidence Unit write different parts of the station. -/
theorem eventFramesAreApplied : Obligations.EventFramesAreApplied := by
  refine ⟨fun m s l f st s0 e j h h0 he hj => ?_, eventWellFormed_iff, sharesIdentity_iff⟩
  subst h0 hj
  obtain ⟨u, hexec, hfound⟩ := handed_take h (by decide) (by decide)
  have hblock := hfound.block
  obtain ⟨⟨htracker, hcoin, hevid, -⟩, ⟨hagree, hcoup, hchannels, hport⟩, ⟨hqueue, hcurrent, -⟩, ⟨-, hpresent⟩,
    hn, hrecord, -, -⟩ := hfound
  obtain ⟨fault, hfault, htaken⟩ := handToBlocks_event hn hpresent he
  rw [htaken] at hexec
  rw [← htracker, ← hcoin, ← hevid, ← hqueue, ← hcurrent, ← hblock]
  refine ⟨_, hexec, rfl, hchannels, hagree, hcoup, hport, hfault.trans hrecord, fun ho hc => ⟨?_, mem_eventReceipt_queue ho hc⟩,
    fun hother => ?_, fun hbad => ?_, fun hwf => ⟨fun hother => ?_, fun ho hc => ?_⟩⟩
  · exact congrArg State.coin (eventReceipt_ofCycle ho hc)
  · change (eventReceipt e u).coin = u.coin ∧ (eventReceipt e u).link.queue = u.link.queue
    rw [eventReceipt_otherCycle hother]
    exact ⟨rfl, rfl⟩
  · exact congrArg State.evid (judgeApplied_malformed hbad)
  · exact congrArg State.evid (judgeApplied_stale hwf hother)
  · exact congrArg State.evid (judgeApplied_judged hn hwf ho hc)

end Sys2Proof.Machine
end

section
/-! PROOFS. HIT frames with sound stores (R78, R81 to R87): what one record does, where its entry stands in the Hit Window,
and the whole step. -/

namespace Sys2Proof.Machine

/-! ## The order of the Hit Window (R78) -/

theorem entryBefore_iff (a b : HitEntry) : entryBefore a b = true ↔ 0 < (b.localArrival - a.localArrival).toInt ∨
    (a.localArrival = b.localArrival ∧ (a.id.station < b.id.station ∨ (a.id.station = b.id.station ∧
      (a.id.channel < b.id.channel ∨ (a.id.channel = b.id.channel ∧ a.id.tag.toNat < b.id.tag.toNat))))) := by
  simp [entryBefore, later, idBefore]

/-- An entry goes behind those it is not before, in front of the first that it is before (R78). -/
theorem insertEntry_split (e : HitEntry) (w : List HitEntry) : ∃ pre post, w = pre ++ post ∧ insertEntry e w = pre ++ e :: post ∧
    (∀ x ∈ pre, entryBefore e x = false) ∧ (∀ x ∈ post.head?, entryBefore e x = true) := by
  induction w with
  | nil => exact ⟨[], [], rfl, rfl, nofun, nofun⟩
  | cons a w ih =>
    unfold insertEntry
    cases ha : entryBefore e a with
    | true =>
      refine ⟨[], a :: w, rfl, rfl, nofun, fun x hx => ?_⟩
      rw [List.head?_cons, Option.mem_some_iff] at hx
      rwa [← hx]
    | false =>
      obtain ⟨pre, post, hw, hinsert, hpre, hpost⟩ := ih
      exact ⟨a :: pre, post, congrArg (a :: ·) hw, congrArg (a :: ·) hinsert, List.forall_mem_cons.mpr ⟨ha, hpre⟩, hpost⟩

/-! ## One record (R81 to R83) -/

section
variable {st : Station} {off : Tag} {s : State} {h : HitRecord}

theorem inPulseWindow_iff (s : State) (a : Tag) : inPulseWindow s a = true ↔
    ∃ w, s.coup.window = some w ∧ w.stage = .isOpen ∧ reached a w.fire = true ∧ reached w.finish a = true := by
  unfold inPulseWindow
  cases s.coup.window <;> simp [and_assoc]

theorem inPulseWindow_eq_false {a : Tag} (h : ∀ w, s.coup.window = some w →
    w.stage ≠ .isOpen ∨ reached a w.fire = false ∨ reached w.finish a = false) : inPulseWindow s a = false := by
  rw [← Bool.not_eq_true, inPulseWindow_iff]
  rintro ⟨w, hw, hopen, hfire, hfinish⟩
  rcases h w hw with h | h | h
  · exact h hopen
  · rw [hfire] at h
    cases h
  · rw [hfinish] at h
    cases h

theorem isLate_iff (s : State) (a : Tag) : isLate s a = true ↔ ∃ z, s.coin.horizon = some z ∧ reached z a = true := by
  unfold isLate
  cases s.coin.horizon <;> simp

theorem isLate_eq_false {a : Tag} (h : ∀ z, s.coin.horizon = some z → reached z a = false) : isLate s a = false := by
  rw [← Bool.not_eq_true, isLate_iff]
  rintro ⟨z, hz, hlate⟩
  rw [h z hz] at hlate
  cases hlate

/-- A record whose station is not its frame's sender, or whose channel does not exist (R82). -/
def BadRecord (st : Station) (h : HitRecord) : Prop := h.station ≠ stNo st ∨ (chOf h.channel).isNone = true

theorem badRecord_iff (st : Station) (h : HitRecord) : BadRecord st h ↔ h.station ≠ stNo st ∨ h.channel = 0 ∨ 4 < h.channel := by
  have hchannel : (chOf h.channel).isNone = true ↔ h.channel = 0 ∨ 4 < h.channel := by
    rw [← Option.not_isSome, Bool.not_eq_true', ← Bool.not_eq_true, chOf_isSome_iff]
    omega
  unfold BadRecord
  rw [hchannel]

theorem peerHit_malformed (hbad : BadRecord st h) : peerHit st off s h =
    s.withCoin { s.coin with counts := { s.coin.counts with malformed := raised s.coin.counts.malformed } } := if_pos hbad

/-- The identity of a record's hit (R82). -/
def recordId (h : HitRecord) : HitId := ⟨h.station, h.channel, h.arrival⟩

theorem window_any_iff (w : List HitEntry) (id : HitId) : (w.any fun e => e.id == id) = true ↔ ∃ x ∈ w, x.id = id := by simp

theorem peerHit_duplicate (hgood : ¬ BadRecord st h) (hknown : ∃ x ∈ s.coin.window, x.id = recordId h) : peerHit st off s h =
    s.withCoin { s.coin with counts := { s.coin.counts with duplicates := raised s.coin.counts.duplicates } } :=
  (if_neg hgood).trans (if_pos ((window_any_iff _ _).mpr hknown))

/-- A record that is neither malformed nor a duplicate goes on to the pulse window, the horizon and the Hit Window (R83). -/
theorem peerHit_new (hgood : ¬ BadRecord st h) (hnew : ∀ x ∈ s.coin.window, x.id ≠ recordId h) : peerHit st off s h =
    if inPulseWindow s (h.arrival + off) then
      s.withCoup { s.coup with counts := { s.coup.counts with peerHits := raised s.coup.counts.peerHits } }
    else if isLate s (h.arrival + off) then coinCounts (fun k => { k with late := raised k.late }) s
    else if windowCapacity ≤ s.coin.window.length then coinCounts (fun k => { k with overflow := raised k.overflow }) s
    else enterWindow ⟨recordId h, h.arrival + off, h.phase, some h.features, false⟩ s :=
  (if_neg hgood).trans (if_neg fun hknown => by
    obtain ⟨x, hx, hid⟩ := (window_any_iff _ _).mp hknown
    exact hnew x hx hid)

/-- A record goes by the Coincidence and Coupling Units alone, and writes them alone. -/
theorem peerHit_elsewhere (st : Station) (off : Tag) (h : HitRecord) (r s : State) :
    peerHit st off ((r.withCoin s.coin).withCoup s.coup) h =
      (r.withCoin (peerHit st off s h).coin).withCoup (peerHit st off s h).coup := by
  have hpulse : inPulseWindow ((r.withCoin s.coin).withCoup s.coup) (h.arrival + off) = inPulseWindow s (h.arrival + off) := rfl
  have hlate : isLate ((r.withCoin s.coin).withCoup s.coup) (h.arrival + off) = isLate s (h.arrival + off) := rfl
  unfold peerHit
  dsimp only
  rw [hpulse, hlate, withCoup_coin, withCoin_coin]
  split_ifs <;> rfl

theorem peerHits_elsewhere (st : Station) (off : Tag) (hs : List HitRecord) (r s : State) :
    hs.foldl (peerHit st off) ((r.withCoin s.coin).withCoup s.coup) =
      (r.withCoin (hs.foldl (peerHit st off) s).coin).withCoup (hs.foldl (peerHit st off) s).coup := by
  induction hs generalizing s with
  | nil => rfl
  | cons h hs ih => rw [List.foldl_cons, List.foldl_cons, peerHit_elsewhere, ih]

theorem peerHits_eq (st : Station) (off : Tag) (hs : List HitRecord) (s : State) : hs.foldl (peerHit st off) s =
    (s.withCoin (hs.foldl (peerHit st off) s).coin).withCoup (hs.foldl (peerHit st off) s).coup := peerHits_elsewhere st off hs s s

end

/-! ## The whole frame (R81, R85, R87) -/

section
variable {st : Station} {f : RxFrame} {s : State}

theorem hitFrame_own (ho : f.own = true) : hitFrame st f s = s := if_pos ho

theorem hitFrame_offCycle (ho : f.own = false) (hp : (s.member.peers.get st).state = .present)
    (hoff : s.tracker.isOpen = false ∨ f.cycle ≠ s.tracker.cycle ∨ s.member.station ≠ .running) : hitFrame st f s =
    s.withCoin { s.coin with counts := { s.coin.counts with offCycle := raised s.coin.counts.offCycle } } := by
  unfold hitFrame
  rw [if_neg (by rw [ho]; exact Bool.false_ne_true), if_neg fun h => h hp, if_pos hoff]
  rfl

theorem readForHits_sound (hn : NoFlips s) : readForHits st f s = s := by
  unfold readForHits
  rw [readWindow_sound hn, ite_self]

/-- The records of a HIT frame of the open cycle are taken, and then what they have made due (log entry 15). -/
theorem hitFrame_taken (hn : NoFlips s) (ho : f.own = false) (hp : (s.member.peers.get st).state = .present)
    (hopen : s.tracker.isOpen = true) (hc : f.cycle = s.tracker.cycle) (hr : s.member.station = .running) : hitFrame st f s =
    closeIfMoved (s.openGroup.map (·.anchor)) ((hitsOf f.payload).foldl (peerHit st (clockOffset s f)) s) := by
  have hlive : s.member.station ≠ .frozen := by rw [hr]; decide
  unfold hitFrame
  rw [if_neg (by rw [ho]; exact Bool.false_ne_true), if_neg fun h => h hp, if_neg (by simp [hopen, hc, hr]), readForHits_sound hn,
    unlessFrozen_live hlive, takeHits, takePeerHits_sound _ _ _ hn hlive, unlessFrozen_live (by rw [peerHits_eq]; exact hlive)]

theorem closeIfMoved_taken (old : Option Tag) (hn : NoFlips s) (hlive : s.member.station ≠ .frozen) :
    GroupsTaken s (closeIfMoved old s) := by
  unfold closeIfMoved
  split
  next => exact .refl s
  next => exact closeDueGroups_taken _ hn hlive

theorem closeIfMoved_rests {old : Option Tag} (h : s.openGroup.map (·.anchor) = old ∨ NoneDue s) : closeIfMoved old s = s := by
  unfold closeIfMoved
  split
  next => rfl
  next hmoved => exact closeDueGroups_noneDue _ (h.resolve_left hmoved)

/-- Neither the records of a HIT frame nor the closes after them reach these parts. -/
theorem hitFrame_keeps (hn : NoFlips s) (hp : (s.member.peers.get st).state = .present) :
    (hitFrame st f s).tracker = s.tracker ∧ (hitFrame st f s).evid = s.evid ∧ (hitFrame st f s).agree = s.agree ∧
    (hitFrame st f s).channels.units = s.channels.units ∧ (hitFrame st f s).port = s.port := by
  cases ho : f.own with
  | true =>
    rw [hitFrame_own ho]
    exact ⟨rfl, rfl, rfl, rfl, rfl⟩
  | false =>
    by_cases hoff : s.tracker.isOpen = false ∨ f.cycle ≠ s.tracker.cycle ∨ s.member.station ≠ .running
    · rw [hitFrame_offCycle ho hp hoff]
      exact ⟨rfl, rfl, rfl, rfl, rfl⟩
    · simp only [not_or, Bool.not_eq_false, not_not] at hoff
      obtain ⟨hopen, hc, hr⟩ := hoff
      rw [hitFrame_taken hn ho hp hopen hc hr, peerHits_eq]
      have hclosed := closeIfMoved_taken (s.openGroup.map (·.anchor))
        (s := (s.withCoin ((hitsOf f.payload).foldl (peerHit st (clockOffset s f)) s).coin).withCoup
          ((hitsOf f.payload).foldl (peerHit st (clockOffset s f)) s).coup) hn (by rw [withCoup_member, withCoin_member, hr]; decide)
      exact ⟨hclosed.tracker, hclosed.evid, hclosed.agree, hclosed.units, hclosed.port⟩

/-- An anchor that has moved leaves no group due (R87). -/
theorem closeIfMoved_moved {old : Option Tag} (hn : NoFlips s) (hlive : s.member.station ≠ .frozen)
    (hlen : s.coin.window.length ≤ windowCapacity) (h : s.openGroup.map (·.anchor) ≠ old) : NoneDue (closeIfMoved old s) := by
  unfold closeIfMoved
  rw [if_neg h]
  exact closeDueGroups_leaves_noneDue hn hlive hlen

end

section
variable {m : Moment} {f : RxFrame} {st : Station} {s : State}

/-- The station as a frame finds it has the coupling state and the configuration of before, and keeps the capacities. -/
theorem frameFinds_keeps (m : Moment) (f : RxFrame) (st : Station) (hn : NoFlips s) :
    (frameFinds m f st s).coup = s.coup ∧ (frameFinds m f st s).block = s.block ∧
    (CapacityInv s → CapacityInv (frameFinds m f st s)) := by
  have hsame : (s.withNow m.tag).coup = s.coup ∧ (s.withNow m.tag).block = s.block ∧
      (CapacityInv s → CapacityInv (s.withNow m.tag)) := ⟨rfl, rfl, id⟩
  unfold frameFinds
  split
  next n _ =>
    split
    next =>
      obtain ⟨-, -, -, -, hcoup, -⟩ := adoptFirst_fields n
        (s := (s.withNow m.tag).withMember { s.member with station := .running, joinTimer := none }) hn
      exact ⟨hcoup, adoptFirst_block _ _, fun hcap => adoptFirst_cap _ _ hcap⟩
    next => exact hsame
  next => exact hsame

/-- The station after the records of a HIT frame, as the frame finds it (R81). -/
def hitsTaken (m : Moment) (f : RxFrame) (st : Station) (s : State) : State :=
  (hitsOf f.payload).foldl (peerHit st (f.stamp - f.senderStamp - span (Block.linkDelay s.block))) (frameFinds m f st s)

theorem hitsTaken_block (m : Moment) (f : RxFrame) (st : Station) (hn : NoFlips s) : (hitsTaken m f st s).block = s.block :=
  (congrArg State.block (peerHits_eq st _ (hitsOf f.payload) (frameFinds m f st s))).trans (frameFinds_keeps m f st hn).2.1

theorem hitsTaken_window (m : Moment) (f : RxFrame) (st : Station) (hn : NoFlips s) (hcap : CapacityInv s) :
    (hitsTaken m f st s).coin.window.length ≤ windowCapacity := by
  obtain ⟨-, -, hfinds⟩ := frameFinds_keeps m f st hn
  exact (foldl_cap _ (fun t h ht => peerHit_cap st _ t h ht) (hitsOf f.payload) _ (hfinds hcap)).window

/-- The records of a HIT frame that the blocks take leave the Coincidence and Coupling Units as they leave those of `frameFinds`. -/
theorem FoundBy.peerHits {x : State} (h : FoundBy m f st s x) (hn : NoFlips s) :
    (hitsOf f.payload).foldl (peerHit st (clockOffset x f)) x =
      (x.withCoin (hitsTaken m f st s).coin).withCoup (hitsTaken m f st s).coup := by
  have hblock := h.block
  obtain ⟨⟨-, hcoin, -⟩, ⟨-, hcoup, -⟩, -⟩ := h
  have hfound : x = (x.withCoin (frameFinds m f st s).coin).withCoup (frameFinds m f st s).coup := by
    rw [← hcoin, (frameFinds_keeps m f st hn).1, ← hcoup]
    rfl
  have hoffset : clockOffset x f = f.stamp - f.senderStamp - span (Block.linkDelay s.block) := by rw [clockOffset, hblock]
  rw [hoffset, hfound]
  exact peerHits_elsewhere st _ (hitsOf f.payload) x (frameFinds m f st s)

/-- A peer's HIT frame of the open cycle: the state in which its last step, the closes, begins. -/
theorem FoundBy.recordsTaken {x : State} (h : FoundBy m f st s x) (hn : NoFlips s) (ho : f.own = false)
    (hopen : (frameFinds m f st s).tracker.isOpen = true) (hc : f.cycle = (frameFinds m f st s).tracker.cycle)
    (hr : (frameFinds m f st s).member.station = .running) :
    ∃ y, hitFrame st f x = closeIfMoved ((frameFinds m f st s).openGroup.map (·.anchor)) y ∧
      y.coin = (hitsTaken m f st s).coin ∧ y.coup = (hitsTaken m f st s).coup ∧ y.openGroup = (hitsTaken m f st s).openGroup ∧
      y.now = m.tag ∧ NoFlips y ∧ y.member.station ≠ .frozen := by
  have hrecords := h.peerHits hn
  have hblock := h.block
  obtain ⟨⟨htracker, hcoin, -, hstation⟩, -, -, ⟨-, hpresent⟩, hnx, -, -, hnow⟩ := h
  have hrunning := hstation.trans hr
  have hold : x.openGroup = (frameFinds m f st s).openGroup :=
    openGroup_congr (congrArg Coincidence.window hcoin) (hblock.trans (frameFinds_keeps m f st hn).2.1.symm)
  rw [← htracker] at hopen hc
  refine ⟨(x.withCoin (hitsTaken m f st s).coin).withCoup (hitsTaken m f st s).coup, ?_, rfl, rfl,
    openGroup_congr rfl (hblock.trans (hitsTaken_block m f st hn).symm), hnow, hnx,
    (show x.member.station ≠ .frozen by rw [hrunning]; decide)⟩
  rw [hitFrame_taken hnx ho hpresent hopen hc hrunning, hrecords, hold]

end

/-- Settles O32: the records by the tests each meets in turn, and the frame by the state in which the blocks find it. -/
theorem hitFramesEnterTheWindow : Obligations.HitFramesEnterTheWindow := by
  refine ⟨fun st off s h id a e hid ha he => ⟨fun hbad => ?_, fun hstation hlow hhigh => ?_⟩, entryBefore_iff,
    fun m s l f st s0 u h h0 hu => ?_⟩
  · exact peerHit_malformed ((badRecord_iff st h).mpr hbad)
  · have hgood : ¬ BadRecord st h := by
      rw [badRecord_iff]
      omega
    subst hid ha he
    refine ⟨fun hknown => peerHit_duplicate hgood hknown, fun hnew => ?_⟩
    rw [peerHit_new hgood hnew]
    refine ⟨fun hpulse => if_pos ((inPulseWindow_iff _ _).mpr hpulse), fun hnoPulse => ?_⟩
    rw [inPulseWindow_eq_false hnoPulse, if_neg Bool.false_ne_true]
    refine ⟨fun hlate => if_pos ((isLate_iff _ _).mpr hlate), fun hontime => ?_⟩
    rw [isLate_eq_false hontime, if_neg Bool.false_ne_true]
    refine ⟨fun hfull => if_pos hfull, fun hroom => ?_⟩
    rw [if_neg (show ¬ windowCapacity ≤ _ from Nat.not_le.mpr hroom)]
    obtain ⟨pre, post, hw, hinsert, hpre, hpost⟩ := insertEntry_split ⟨recordId h, h.arrival + off, h.phase, some h.features, false⟩
      s.coin.window
    refine ⟨pre, post, hw, ?_, hpre, hpost⟩
    unfold enterWindow
    rw [hinsert]
    rfl
  · subst h0
    obtain rfl : u = hitsTaken m f st s := hu
    obtain ⟨x, hexec, hx⟩ := handed_take h (by decide) (by decide)
    have hns : NoFlips s := h.1.noFlips
    have ⟨⟨htracker, hcoin, hevid, hstation⟩, ⟨hagree, hcoup, hchannels, hport⟩, _, ⟨_, hpresent⟩, ⟨hn, _⟩⟩ := hx
    obtain ⟨hkTracker, hkEvid, hkAgree, hkUnits, hkPort⟩ := hitFrame_keeps (f := f) hn hpresent
    refine ⟨_, hexec, hkTracker.trans htracker, hkEvid.trans hevid, hkAgree.trans hagree,
      hkUnits.trans (congrArg Channels.units hchannels), hkPort.trans hport, fun ho => ?_, fun ho hoff => ?_, fun ho hopen hc hr => ?_⟩
    · change (hitFrame st f x).coin = _ ∧ (hitFrame st f x).coup = _
      rw [hitFrame_own ho]
      exact ⟨hcoin, hcoup⟩
    · change (hitFrame st f x).coup = _ ∧ (hitFrame st f x).coin = _
      rw [← htracker, ← hstation] at hoff
      rw [hitFrame_offCycle ho hpresent hoff, ← hcoin]
      exact ⟨hcoup, rfl⟩
    · obtain ⟨y, htaken, hycoin, hycoup, hygroup, hynow, hyn, hylive⟩ := hx.recordsTaken hns ho hopen hc hr
      have hclosed := closeIfMoved_taken ((frameFinds m f st s).openGroup.map (·.anchor)) hyn hylive
      have hnoneDue : NoneDue y ↔ ∀ g, (hitsTaken m f st s).openGroup = some g → reached m.tag g.expiry = false := by
        unfold NoneDue
        rw [hygroup, hynow]
      change (hitFrame st f x).coup = _ ∧ (hitFrame st f x).coin.window <:+ _ ∧ (_ → (hitFrame st f x).coin = _) ∧
        (_ → _ → ∀ g, (hitFrame st f x).openGroup = some g → _)
      rw [htaken, ← hycoin, ← hycoup]
      refine ⟨hclosed.coup, hclosed.window, fun hrests => ?_, fun hmoved hcap g hg => ?_⟩
      · rw [← hnoneDue, ← hygroup] at hrests
        rw [closeIfMoved_rests hrests]
      · have hlen : y.coin.window.length ≤ windowCapacity := by
          rw [hycoin]
          exact hitsTaken_window m f st hns hcap
        rw [← hygroup] at hmoved
        have hnone := closeIfMoved_moved hyn hylive hlen hmoved g hg
        rwa [hclosed.now, hynow] at hnone

end Sys2Proof.Machine
end

section
/-! PROOFS. The Locator: the lead hits of a group, the search of the Zone Map, and the EVENT record's measures and attributes
(R101 to R106). -/

namespace Sys2Proof.Machine

/-! ## The lead hits (R101) -/

section
variable {ms : List HitEntry} {e : HitEntry}

theorem leadHits_append_new (h : ∀ x ∈ ms, sensorOf x ≠ sensorOf e) : leadHits (ms ++ [e]) = leadHits ms ++ [e] := by
  induction ms with
  | nil => rfl
  | cons a as ih =>
    obtain ⟨ha, has⟩ := List.forall_mem_cons.mp h
    simp [leadHits, ih has, ha.symm]

theorem leadHits_append_repeated (h : ∃ x ∈ ms, sensorOf x = sensorOf e) : leadHits (ms ++ [e]) = leadHits ms := by
  induction ms with
  | nil => simp at h
  | cons a as ih =>
    by_cases has : ∃ x ∈ as, sensorOf x = sensorOf e
    · rw [List.cons_append, leadHits, leadHits, ih has]
    · have ha : sensorOf a = sensorOf e := (List.or_exists_of_exists_mem_cons h).resolve_right has
      rw [List.cons_append, leadHits, leadHits, leadHits_append_new (by simpa using has)]
      simp [ha]

end

/-- A group has fewer lead hits than members exactly if it hears a sensor twice (R101). -/
theorem leadHits_length_lt_iff (ms : List HitEntry) :
    (leadHits ms).length < ms.length ↔ ¬ (ms.map sensorOf).Nodup := by
  induction ms using List.reverseRecOn with
  | nil => simp
  | append_singleton ms e ih =>
    by_cases h : ∃ x ∈ ms, sensorOf x = sensorOf e
    · have hle := (leadHits_cover ms).1
      have hrepeat : ¬ ((ms ++ [e]).map sensorOf).Nodup := by
        rw [List.map_append, List.nodup_append]
        simpa using fun _ => h
      rw [leadHits_append_repeated h, List.length_append]
      exact iff_of_true (Nat.lt_succ_of_le hle) hrepeat
    · have hnew : ∀ x ∈ ms, sensorOf x ≠ sensorOf e := by simpa using h
      have hnodup : ((ms ++ [e]).map sensorOf).Nodup ↔ (ms.map sensorOf).Nodup := by
        rw [List.map_append, List.nodup_append]
        simpa using fun _ => hnew
      rw [leadHits_append_new hnew, List.length_append, List.length_append, hnodup, ← ih]
      exact Nat.add_lt_add_iff_right

/-! ## The placement (R102, R103) -/

theorem zoneMatches_iff (b : List Byte) (s1 s2 : Nat × Nat) (dt i : Nat) : zoneMatches b s1 s2 dt i = true ↔
    Block.zoneFirst b i = s1.1 * 16 + s1.2 ∧ (Block.zoneSecond b i = s2.1 * 16 + s2.2 ∨ Block.zoneSecond b i = 0) ∧
    Block.zoneLow b i ≤ dt ∧ dt ≤ Block.zoneHigh b i := by
  simp [zoneMatches, packSensor, and_assoc]

section
variable {b : List Byte} {s1 s2 : Nat × Nat} {dt i : Nat}

theorem zoneSearch_first (hi : 1 ≤ i) (hcount : i ≤ Block.zoneCount b) (hmatch : zoneMatches b s1 s2 dt i = true)
    (hbefore : ∀ j, 1 ≤ j → j < i → zoneMatches b s1 s2 dt j = false) : zoneSearch b s1 s2 dt = some i := by
  obtain ⟨k, rfl⟩ := Nat.exists_eq_add_of_le' hi
  have hfind : (List.range (Block.zoneCount b)).find? (fun k => zoneMatches b s1 s2 dt (k + 1)) = some k :=
    List.find?_range_eq_some.mpr ⟨hmatch, List.mem_range.mpr hcount, fun j hj => by
      rw [hbefore (j + 1) (Nat.le_add_left 1 j) (Nat.succ_lt_succ hj)]
      rfl⟩
  rw [zoneSearch, hfind]
  rfl

theorem zoneSearch_unmatched (h : ∀ j, 1 ≤ j → j ≤ Block.zoneCount b → zoneMatches b s1 s2 dt j = false) :
    zoneSearch b s1 s2 dt = none := by
  rw [zoneSearch, List.find?_range_eq_none.mpr fun k hk => by rw [h (k + 1) (Nat.le_add_left 1 k) hk]; rfl]
  rfl

end

section
variable {b : List Byte} {ms rest : List HitEntry} {e e1 e2 : HitEntry} {i : Nat}

theorem placeGroup_single (h : leadHits ms = [e]) : (placeGroup b ms).method = methodSingle ∧
    (placeGroup b ms).segment = Block.singleHit b (sensorPlace e.id.station e.id.channel) := by
  unfold placeGroup
  rw [h]
  exact ⟨rfl, rfl⟩

theorem placeGroup_pair (h : leadHits ms = e1 :: e2 :: rest)
    (hfound : zoneSearch b (sensorOf e1) (sensorOf e2) (elapsed e2.localArrival e1.localArrival) = some i) :
    (placeGroup b ms).method = methodPair ∧ (placeGroup b ms).segment = Block.zoneSegment b i := by
  unfold placeGroup
  simp only [h, hfound, and_self]

theorem placeGroup_none (h : leadHits ms = e1 :: e2 :: rest)
    (hnone : zoneSearch b (sensorOf e1) (sensorOf e2) (elapsed e2.localArrival e1.localArrival) = none) :
    (placeGroup b ms).method = methodNone ∧ (placeGroup b ms).segment = 0 := by
  unfold placeGroup
  simp only [h, hnone, and_self]

end

/-! ## The record (R104 to R106) -/

/-- The fold by which the record takes its peak and its longest duration gives the highest value among the members. -/
theorem foldl_max_highest (f : HitEntry → Nat) (ms : List HitEntry) : (∀ e ∈ ms, f e ≤ (ms.map f).foldl max 0) ∧
    (ms ≠ [] → ∃ e ∈ ms, f e = (ms.map f).foldl max 0) := by
  cases ms with
  | nil => simp
  | cons a as =>
    have hmax : ((a :: as).map f).max? = some (((a :: as).map f).foldl max 0) := by
      rw [List.map_cons, List.max?_cons', List.foldl_cons, Nat.zero_max]
    obtain ⟨hmem, hle⟩ := List.max?_eq_some_iff.mp hmax
    exact ⟨fun e he => hle _ (List.mem_map_of_mem he), fun _ => List.mem_map.mp hmem⟩

/-- The eight bits of a group's attributes (R104, 12.1). -/
theorem groupAttributes_bits (segment : Nat) (ms : List HitEntry) (crowded : Bool) :
    let attrs := groupAttributes segment ms crowded
    (attrs.getLsbD 0 = true ↔ ∃ e ∈ ms, (featuresOf e).saturated = true) ∧
    (attrs.getLsbD 1 = true ↔ ∃ e ∈ ms, (featuresOf e).long = true) ∧
    (attrs.getLsbD 2 = true ↔ (leadHits ms).length < 3) ∧ (attrs.getLsbD 3 = true ↔ segment = 0) ∧
    (attrs.getLsbD 4 = true ↔ ∃ e ∈ ms, ∃ f ∈ ms, e.phase ≠ f.phase) ∧
    (attrs.getLsbD 5 = true ↔ ¬ (ms.map sensorOf).Nodup) ∧ attrs.getLsbD 6 = crowded ∧ attrs.getLsbD 7 = false := by
  obtain ⟨saturated, long, sparse, unplaced, mixed, echoes, crowd, spare⟩ :=
    flags_of_byte (ms.any fun e => (featuresOf e).saturated) (ms.any fun e => (featuresOf e).long)
      (decide ((leadHits ms).length < 3)) (segment == 0) (ms.any fun e => ms.any fun f => e.phase != f.phase)
      (decide ((leadHits ms).length < ms.length)) crowded false
  refine ⟨?_, ?_, ?_, ?_, ?_, ?_, crowd, spare⟩
  · exact (Bool.eq_iff_iff.mp saturated).trans List.any_eq_true
  · exact (Bool.eq_iff_iff.mp long).trans List.any_eq_true
  · exact (Bool.eq_iff_iff.mp sparse).trans decide_eq_true_iff
  · exact (Bool.eq_iff_iff.mp unplaced).trans beq_iff_eq
  · exact (Bool.eq_iff_iff.mp mixed).trans (by simp)
  · exact (Bool.eq_iff_iff.mp echoes).trans (decide_eq_true_iff.trans (leadHits_length_lt_iff ms))

/-- Settles O36: the lead hits member by member, the search of the Zone Map by its first match, and the record field by field. -/
theorem placementMethods : Obligations.PlacementMethods := by
  refine ⟨fun b ms e => placeGroup_single, fun b ms rest e1 e2 i h hi hcount hmatch hbefore => ?_,
    fun b ms rest e1 e2 h hnone => ?_, zoneMatches_iff,
    ⟨rfl, fun ms e => ⟨leadHits_append_repeated, leadHits_append_new⟩⟩, fun b cycle ms crowded r hr => ?_, fun e f h => ?_⟩
  · exact placeGroup_pair h (zoneSearch_first hi hcount hmatch hbefore)
  · exact placeGroup_none h (zoneSearch_unmatched hnone)
  · subst hr
    obtain ⟨hpeak, hpeakAt⟩ := foldl_max_highest (fun e => (featuresOf e).peak) ms
    obtain ⟨hlongest, hlongestAt⟩ := foldl_max_highest (fun e => (featuresOf e).duration) ms
    have hphase : ∀ e es, ms = e :: es → (buildRecord b cycle ms crowded).phase = e.phase := by
      rintro e es rfl
      rfl
    exact ⟨rfl, hphase, rfl, rfl, rfl, rfl, hpeak, hpeakAt, rfl, hlongest, hlongestAt, rfl,
      groupAttributes_bits _ ms crowded⟩
  · rw [featuresOf, h]
    rfl

end Sys2Proof.Machine
end

section
/-! PROOFS. The segment records along every command (R115): Laws/Segments.lean carries them through the operations; only a ROW that the
frame handler takes brings records from outside. -/

namespace Sys2Proof.Machine

theorem segmentsInv_frame : KeptByFrame SegmentsInv := ⟨fun m s => arrive_segs m s, lookAgain_segs⟩

/-- If the frame the handler takes next is a ROW, its records are as R115 says. -/
def HeldRowOk (s : State) : Prop := ∀ l f, heldFrame s.link = some (l, f) → RowRecordsOk f s

/-- The frame handler keeps the segment records if a ROW it takes brings records of that kind. -/
theorem frameHandlerTake_segs (m : Moment) {s t : State} (hs : SegmentsInv s) (hrow : HeldRowOk s)
    (ht : execFrameHandlerTake m s = .next t) : SegmentsInv t := by
  unfold execFrameHandlerTake atMoment at ht
  injection ht with ht
  subst ht
  split
  next => exact hs
  next =>
    refine lookAgain_segs _ _ ?_
    dsimp only
    split
    next l f hf =>
      split
      next => exact handleFrame_segs l f _ (arrive_segs m s hs) (hrow l f hf)
      next => exact arrive_segs m s hs
    next => exact arrive_segs m s hs

/-- Every other command keeps the segment records. -/
theorem exec_segs (c : Instr) (hc : ∀ m, c ≠ .frameHandlerTake m) : StepKeeps SegmentsInv (exec c) := by
  have hP := segmentsInv_frame
  cases c with
  | cycRising m =>
    change StepKeeps SegmentsInv (execCycRising m)
    exact atMoment_keeps hP fun s => takeEdge_segs _ s cycEdge_segs
  | filRising m =>
    change StepKeeps SegmentsInv (execFilRising m)
    exact atMoment_keeps hP fun s => takeEdge_segs _ s filEdge_segs
  | vibRising m =>
    change StepKeeps SegmentsInv (execVibRising m)
    exact atMoment_keeps hP fun s => takeEdge_segs _ s vibEdge_segs
  | strRising m =>
    change StepKeeps SegmentsInv (execStrRising m)
    exact atMoment_keeps hP fun s => takeEdge_segs _ s strEdge_segs
  | strFalling m =>
    change StepKeeps SegmentsInv (execStrFalling m)
    exact atMoment_keeps hP fun s => takeEdge_segs _ s strFall_segs
  | settleTimerExpiry m =>
    change StepKeeps SegmentsInv (execSettleTimerExpiry m)
    exact atMoment_keeps hP (keeps_guarded settleClose_segs)
  | cycleTimerExpiry m =>
    change StepKeeps SegmentsInv (execCycleTimerExpiry m)
    exact atMoment_keeps hP (keeps_guarded cycleExpired_segs)
  | sample m c v =>
    change StepKeeps SegmentsInv (execSample m c v)
    exact atMoment_keeps hP (takeSample_segs c v)
  | lockoutTimerExpiry m c =>
    change StepKeeps SegmentsInv (execLockoutTimerExpiry m c)
    exact atMoment_keeps hP (keeps_guarded fun s => usingConfig_segs _ _ s (endLockout_segs c))
  | sampleLoss m c =>
    change StepKeeps SegmentsInv (execSampleLoss m c)
    exact atMoment_keeps hP (keeps_guarded (sampleLost_segs c))
  | sampleRecovery m c =>
    change StepKeeps SegmentsInv (execSampleRecovery m c)
    refine atMoment_keeps hP fun s h => ?_
    split
    next last _ => exact usingConfig_segs _ _ s (sampleRecovered_segs c last) h
    next => exact h
  | pulseWidthEnd m c =>
    change StepKeeps SegmentsInv (execPulseWidthEnd m c)
    exact atMoment_keeps hP (keeps_guarded fun s => usingConfig_segs _ _ s (endPulseWidth_segs c))
  | recoveryEnd m c =>
    change StepKeeps SegmentsInv (execRecoveryEnd m c)
    exact atMoment_keeps hP (keeps_guarded (endRecovery_segs c))
  | accessGapReached m lane =>
    change StepKeeps SegmentsInv (execAccessGapReached m lane)
    exact atMoment_keeps hP (whileWaiting_keeps fun c _ s _ h =>
      takeGap_segs lane.lane c _ (hearBytes_segs lane s h))
  | accessTimerExpiry m =>
    change StepKeeps SegmentsInv (execAccessTimerExpiry m)
    exact atMoment_keeps hP (whileWaiting_keeps fun c d s _ h => starve_segs c d s h)
  | attemptSent m =>
    change StepKeeps SegmentsInv (execAttemptSent m)
    exact atMoment_keeps hP (whileTransmitting_keeps fun c d s _ h => attemptSucceeded_segs c d s h)
  | echoMismatch m =>
    change StepKeeps SegmentsInv (execEchoMismatch m)
    exact atMoment_keeps hP (whileTransmitting_keeps fun c _ s _ h => echoFailed_segs c .clash s h)
  | echoTimeout m index =>
    change StepKeeps SegmentsInv (execEchoTimeout m index)
    exact atMoment_keeps hP (whileTransmitting_keeps fun c _ s _ h => echoFailed_segs c (timeoutCause index) s h)
  | frameComplete m l bytes =>
    change StepKeeps SegmentsInv (execFrameComplete m l bytes)
    refine atMoment_keeps hP fun s h => ?_
    split
    next stamp own _ => exact completeFrame_segs l ⟨bytes, stamp, own⟩ s h
    next => exact h
  | frameBroken m l cause =>
    change StepKeeps SegmentsInv (execFrameBroken m l cause)
    refine atMoment_keeps hP fun s h => ?_
    split
    next => exact breakFrame_segs l _ s h
    next => exact h
  | frameHandlerTake m => exact absurd rfl (hc m)
  | joinTimerExpiry m =>
    change StepKeeps SegmentsInv (execJoinTimerExpiry m)
    exact atMoment_keeps hP (keeps_guarded (joinAdopt_segs 0))
  | silenceTimerExpiry m st =>
    change StepKeeps SegmentsInv (execSilenceTimerExpiry m st)
    exact atMoment_keeps hP (keeps_guarded (goMissing_segs st))
  | presenceTimerExpiry m =>
    change StepKeeps SegmentsInv (execPresenceTimerExpiry m)
    exact atMoment_keeps hP (keeps_guarded fun s => usingConfig_segs _ _ s askPresence_segs)
  | closeExpiry m =>
    change StepKeeps SegmentsInv (execCloseExpiry m)
    exact atMoment_keeps hP (keeps_guarded takeCloseExpiry_segs)
  | publicationDeadline m key =>
    change StepKeeps SegmentsInv (execPublicationDeadline m key)
    refine atMoment_keeps hP fun s h => ?_
    split
    next p _ => exact keeps_guarded (p := fun s => s.atWork = true) (publishAsStandIn_segs p) s h
    next => exact h
  | digestWindowExpiry m =>
    change StepKeeps SegmentsInv (execDigestWindowExpiry m)
    exact atMoment_keeps hP (keeps_guarded fun s => usingConfig_segs _ _ s decide__segs)
  | transferLeadExpiry m =>
    change StepKeeps SegmentsInv (execTransferLeadExpiry m)
    refine atMoment_keeps hP fun s h => ?_
    split
    next n _ => exact sendRow_segs n s h
    next => exact h
  | slotTagReached m =>
    change StepKeeps SegmentsInv (execSlotTagReached m)
    refine atMoment_keeps hP fun s h => ?_
    split
    next tag _ => exact usingConfig_segs _ _ s (takeSlot_segs tag) h
    next => exact h
  | slotWaitEnd m =>
    change StepKeeps SegmentsInv (execSlotWaitEnd m)
    exact atMoment_keeps hP (keeps_guarded fun s => usingConfig_segs _ _ s endWait_segs)
  | fireTagReached m =>
    change StepKeeps SegmentsInv (execFireTagReached m)
    exact atMoment_keeps hP (keeps_guarded fun s => usingConfig_segs _ _ s takeFire_segs)
  | windowFireTag m =>
    change StepKeeps SegmentsInv (execWindowFireTag m)
    exact atMoment_keeps hP (keeps_guarded fun s h => reofferPulse_segs _ (openWindow_segs s h))
  | endTagReached m =>
    change StepKeeps SegmentsInv (execEndTagReached m)
    exact atMoment_keeps hP (keeps_guarded takeEndTag_segs)
  | scrubRead m =>
    change StepKeeps SegmentsInv (execScrubRead m)
    exact atMoment_keeps hP (keeps_guarded scrubStep_segs)
  | logoutTimerExpiry m =>
    change StepKeeps SegmentsInv (execLogoutTimerExpiry m)
    exact atMoment_keeps hP (keeps_guarded (selfRestart_segs .fault))
  | load m block =>
    change StepKeeps SegmentsInv (execLoad m block)
    exact atMoment_keeps hP (keeps_guarded (judgeCommand_segs _ _ _))
  | loadCheckComplete m =>
    change StepKeeps SegmentsInv (execLoadCheckComplete m)
    exact atMoment_keeps hP (keeps_guarded endCheck_segs)
  | start m =>
    change StepKeeps SegmentsInv (execStart m)
    exact atMoment_keeps hP (judgeCommand_segs _ _ _)
  | restart m =>
    change StepKeeps SegmentsInv (execRestart m)
    exact atMoment_keeps hP (judgeCommand_segs _ _ _)
  | status m =>
    change StepKeeps SegmentsInv (execStatus m)
    exact atMoment_keeps hP fun s => judgeCommand_segs _ _ _ s
  | nextNotice m =>
    change StepKeeps SegmentsInv (execNextNotice m)
    exact atMoment_keeps hP fun s => judgeCommand_segs _ _ _ s
  | readSegment m n =>
    change StepKeeps SegmentsInv (execReadSegment m n)
    exact atMoment_keeps hP (readSegmentStep_segs n.toNat)
  | readPeer m n =>
    change StepKeeps SegmentsInv (execReadPeer m n)
    exact atMoment_keeps hP fun s => judgeCommand_segs _ _ _ s
  | readCoupling m =>
    change StepKeeps SegmentsInv (execReadCoupling m)
    exact atMoment_keeps hP fun s => judgeCommand_segs _ _ _ s
  | readFault m =>
    change StepKeeps SegmentsInv (execReadFault m)
    exact atMoment_keeps hP fun s => judgeCommand_segs _ _ _ s
  | clearFault m =>
    change StepKeeps SegmentsInv (execClearFault m)
    exact atMoment_keeps hP (judgeCommand_segs _ _ _)
  | segmentControl m kind group value mask =>
    change StepKeeps SegmentsInv (execSegmentControl m kind group value mask)
    exact atMoment_keeps hP (segmentControlStep_segs kind group value mask)
  | selectRise m bytesOut =>
    change StepKeeps SegmentsInv (execSelectRise m bytesOut)
    exact atMoment_keeps hP (deselect_segs bytesOut)
  | frameStart m l =>
    change StepKeeps SegmentsInv (execFrameStart m l)
    exact atMoment_keeps hP (keeps_guarded (beginFrameOn_segs l))
  | noCommandByte m b =>
    change StepKeeps SegmentsInv (execNoCommandByte m b)
    exact atMoment_keeps hP (keeps_guarded (judgeCommand_segs _ _ _))
  | reset =>
    intro s t hs ht
    injection ht with ht
    subst ht
    exact powerOnValues_segs true s hs
  | powerOn =>
    intro s t hs ht
    injection ht with ht
    subst ht
    exact powerOnValues_segs false s hs
  | resetRelease =>
    intro s t hs ht
    injection ht with ht
    subst ht
    exact hs

/-- Settles O58: a step runs the front command, whose ROW, if it takes one, has such records, or ticks. -/
theorem segmentRecordsKept : Obligations.SegmentRecordsKept := by
  intro s t hs hrow ht
  by_cases hc : ∃ m, s.pending.head? = some (.frameHandlerTake m)
  next =>
    obtain ⟨m, hm⟩ := hc
    obtain ⟨rest, hp⟩ := List.head?_eq_some_iff.mp hm
    have held : HeldRowOk (s.withPending rest) := fun l f hf hk => hrow m l f hm hf hk
    unfold step at ht
    rw [hp] at ht
    exact frameHandlerTake_segs m ((withPending_segs s rest).mpr hs) held ht
  next =>
    unfold step at ht
    split at ht
    next =>
      injection ht with ht
      subst ht
      unfold tick
      split
      next => exact hs
      next => exact hs
    next c rest hp =>
      have hother : ∀ m, c ≠ .frameHandlerTake m := fun m hm => hc ⟨m, by rw [hp, hm]; rfl⟩
      exact exec_segs c hother (s.withPending rest) t hs ht

end Sys2Proof.Machine
end

section
/-! PROOFS. The rules of the Evidence Unit on plain data: the outputs (R127), the Applied Event List (R110 to R112), the fold of one segment
(R118, R119) and what a CONTROL selects and changes (R122 to R124). -/

namespace Sys2Proof.Machine

/-! ## WARN and STOP (R127) -/

theorem warnLevel_iff (table : List SegmentRecord) :
    warnLevel table = true ↔ ∃ r ∈ table, r.excluded = false ∧ (r.state = .suspect ∨ r.state = .cracked) := by
  simp [warnLevel]

theorem stopLevel_iff (n : Nat) (table : List SegmentRecord) :
    stopLevel n table = true ↔ 1 ≤ n ∧ n ≤ (table.filter fun r => !r.excluded && r.state == .cracked).length := by
  simp [stopLevel]

/-- Settles O41: the two levels are read off the table. -/
theorem outputsFollowTable : Obligations.OutputsFollowTable :=
  fun s => ⟨rfl, warnLevel_iff s.evid.table, stopLevel_iff (Block.stopCount s.block) s.evid.table⟩

/-! ## The Applied Event List (R110 to R112) -/

theorem overlaps_iff (e f : EventRecord) : overlaps e f = true ↔ ∃ i ∈ e.ids, i ∈ f.ids := by
  simp [overlaps]

/-- A comparison that an unequal value decides, and the rest of the comparisons else. -/
theorem ite_ne_iff {α : Type} [DecidableEq α] {a b : α} {p q : Prop} (hp : p → a ≠ b) :
    (if a ≠ b then p else q) ↔ p ∨ (a = b ∧ q) := by
  by_cases h : a = b
  next =>
    have hnot : ¬ p := fun h' => hp h' h
    simp [h, hnot]
  next => simp [h]

theorem beats_iff {a b : AppliedEvent} {x y : HitId} (hx : x = a.event.ids.headD ⟨0, 0, 0⟩) (hy : y = b.event.ids.headD ⟨0, 0, 0⟩) :
    beats a b = true ↔ b.event.hitCount < a.event.hitCount ∨ (a.event.hitCount = b.event.hitCount ∧
      (a.publisher < b.publisher ∨ (a.publisher = b.publisher ∧
        (x.station < y.station ∨ (x.station = y.station ∧
          (x.channel < y.channel ∨ (x.channel = y.channel ∧ x.tag.toNat < y.tag.toNat))))))) := by
  have hxk : eventKey a.event = x := hx.symm
  have hyk : eventKey b.event = y := hy.symm
  unfold beats
  rw [hxk, hyk]
  simp only [apply_ite (· = true), decide_eq_true_eq]
  rw [ite_ne_iff (by omega), ite_ne_iff (by omega), ite_ne_iff (by omega), ite_ne_iff (by omega)]

/-- The displaced entry is the first of those with the fewest hits (R112). -/
theorem fewestHits_spec (list : List AppliedEvent) :
    (fewestHits list = none ∧ list = []) ∨ ∃ pre b post, fewestHits list = some b ∧ list = pre ++ b :: post ∧
      (∀ x ∈ pre, b.event.hitCount < x.event.hitCount) ∧ ∀ x ∈ post, b.event.hitCount ≤ x.event.hitCount := by
  induction list with
  | nil => exact Or.inl ⟨rfl, rfl⟩
  | cons a as ih =>
    refine Or.inr ?_
    obtain ⟨hnone, rfl⟩ | ⟨pre, b, post, hb, rfl, hpre, hpost⟩ := ih
    · exact ⟨[], a, [], rfl, rfl, by simp, by simp⟩
    · by_cases hlt : b.event.hitCount < a.event.hitCount
      · refine ⟨a :: pre, b, post, by simp [fewestHits, hb, hlt], rfl, ?_, hpost⟩
        exact List.forall_mem_cons.mpr ⟨hlt, hpre⟩
      · refine ⟨[], a, pre ++ b :: post, by simp [fewestHits, hb, hlt], rfl, by simp, fun x hx => ?_⟩
        obtain hx | hx := List.mem_append.mp hx
        · have := hpre x hx
          omega
        · obtain rfl | hx := List.mem_cons.mp hx
          · omega
          · have := hpost x hx
            omega

section
variable {list : List AppliedEvent} {a : AppliedEvent}

theorem sharing_isEmpty_iff :
    (list.filter fun b => overlaps a.event b.event).isEmpty = true ↔ ∀ b ∈ list, overlaps a.event b.event = false := by
  simp

/-- The overlap rule where no entry is shared and there is room: the event is appended (R110). -/
theorem judgeEvent_append (hno : ∀ b ∈ list, overlaps a.event b.event = false) (hroom : list.length < appliedCapacity) :
    judgeEvent list a = ⟨list ++ [a], true, false, false⟩ := by
  unfold judgeEvent
  rw [if_pos (sharing_isEmpty_iff.mpr hno), if_pos hroom]

/-- The overlap rule where entries are shared: all beaten, they are replaced; else the event is a duplicate (R111). -/
theorem judgeEvent_shared (hsome : ∃ b ∈ list, overlaps a.event b.event = true) :
    judgeEvent list a = if (list.filter fun b => overlaps a.event b.event).all fun b => beats a b then
      ⟨list.filter (fun b => !overlaps a.event b.event) ++ [a], true, false, false⟩ else ⟨list, false, true, false⟩ := by
  obtain ⟨b, hb, ho⟩ := hsome
  have hne : ¬ (list.filter fun b => overlaps a.event b.event).isEmpty = true := fun h => by
    rw [sharing_isEmpty_iff.mp h b hb] at ho
    cases ho
  unfold judgeEvent
  rw [if_neg hne]

/-- The full-list rule: the first entry with the fewest hits makes room for an event with more (R112). -/
theorem judgeEvent_full (hno : ∀ b ∈ list, overlaps a.event b.event = false) (hfull : 96 ≤ list.length) :
    ∃ pre b post, list = pre ++ b :: post ∧ (∀ x ∈ pre, b.event.hitCount < x.event.hitCount) ∧
      (∀ x ∈ post, b.event.hitCount ≤ x.event.hitCount) ∧
      judgeEvent list a = if b.event.hitCount < a.event.hitCount then ⟨pre ++ post ++ [a], true, false, true⟩
        else ⟨list, false, false, true⟩ := by
  obtain ⟨-, rfl⟩ | ⟨pre, b, post, hb, rfl, hpre, hpost⟩ := fewestHits_spec list
  · simp at hfull
  · have herase : (pre ++ b :: post).erase b = pre ++ post := by
      rw [List.erase_append_right _ (fun h => Nat.lt_irrefl _ (hpre b h)), List.erase_cons_head]
    refine ⟨pre, b, post, rfl, hpre, hpost, ?_⟩
    unfold judgeEvent
    rw [if_pos (sharing_isEmpty_iff.mpr hno), if_neg (by unfold appliedCapacity; omega), hb]
    dsimp only
    rw [herase]

end

/-- Settles O37: the cases of the two rules, one after the other. -/
theorem eventJudgedAgainstList : Obligations.EventJudgedAgainstList := by
  refine ⟨fun list a => ⟨fun hno hroom => ?_, fun hsome hall => ?_, fun hlost => ?_, fun hno hfull => ?_⟩,
    fun a b x y hx hy => beats_iff hx hy, overlaps_iff⟩
  · rw [judgeEvent_append hno hroom]
    exact ⟨rfl, rfl⟩
  · have hbeats : ((list.filter fun b => overlaps a.event b.event).all fun b => beats a b) = true :=
      List.all_eq_true.mpr fun b hb => hall b (List.mem_filter.mp hb).1 (List.mem_filter.mp hb).2
    rw [judgeEvent_shared hsome, if_pos hbeats]
    exact ⟨rfl, rfl⟩
  · obtain ⟨b, hb, ho, hlose⟩ := hlost
    have hnot : ¬ ((list.filter fun b => overlaps a.event b.event).all fun b => beats a b) = true := fun h => by
      have hwin : beats a b = true := List.all_eq_true.mp h b (List.mem_filter.mpr ⟨hb, ho⟩)
      rw [hlose] at hwin
      cases hwin
    rw [judgeEvent_shared ⟨b, hb, ho⟩, if_neg hnot]
    exact ⟨rfl, rfl, rfl⟩
  · obtain ⟨pre, b, post, hlist, hpre, hpost, hj⟩ := judgeEvent_full hno hfull
    have hleast : ∀ x ∈ list, b.event.hitCount ≤ x.event.hitCount := fun x hx => by
      rw [hlist] at hx
      obtain hx | hx := List.mem_append.mp hx
      · exact (hpre x hx).le
      · exact (List.mem_cons.mp hx).elim (fun h => h ▸ le_rfl) (hpost x)
    have hmem : b ∈ list := by simp [hlist]
    rw [hj]
    refine ⟨by split <;> rfl, fun hfew => ?_, fun ⟨x, hx, hlt⟩ => ?_⟩
    · rw [if_neg (hfew b hmem).not_gt]
      exact ⟨rfl, rfl⟩
    · rw [if_pos ((hleast x hx).trans_lt hlt)]
      exact ⟨rfl, pre, b, post, hlist, rfl, hpre, hpost⟩

/-! ## The fold of one segment (R118, R119) -/

theorem foldRecord_excluded {b : List Byte} {closed : Option CycleNo} {es : List AppliedEvent} {r : SegmentRecord}
    (h : r.excluded = true) : foldRecord b closed es r = r := if_pos h

/-- What R118 makes of a record before its transition. -/
def recordEntered (b : List Byte) (es : List AppliedEvent) (r : SegmentRecord) : SegmentRecord :=
  { r with
    history := foldHistory b es r.history
    quietRun := if activeNow b es then 0 else raised r.quietRun }

theorem foldRecord_included {b : List Byte} {closed : Option CycleNo} {es : List AppliedEvent} {r : SegmentRecord}
    (h : r.excluded = false) : foldRecord b closed es r = transition b closed (activeNow b es) (recordEntered b es r) :=
  if_neg (by simp [h])

section
variable {b : List Byte} {closed : Option CycleNo} {active : Bool} {r : SegmentRecord}

/-- A transition changes the state and the two since-fields alone. -/
theorem transition_kept : (transition b closed active r).excluded = r.excluded ∧
    (transition b closed active r).history = r.history ∧ (transition b closed active r).quietRun = r.quietRun := by
  unfold transition
  split <;> (repeat' split) <;> exact ⟨rfl, rfl, rfl⟩

theorem transition_clear (h : r.state = .clear) :
    (transition b closed active r).state = if active then .watch else .clear := by
  unfold transition
  rw [h]
  cases active <;> simp [h]

theorem transition_watch (h : r.state = .watch) : transition b closed active r =
    if Block.kS b ≤ activeEntries (Block.aMin b) r.history then { r with state := .suspect, suspectSince := some closed }
    else if Block.qW b ≤ r.quietRun then { r with state := .clear } else r := by
  unfold transition
  rw [h]
  simp only [reachesSuspect, decide_eq_true_eq]

theorem transition_suspect (h : r.state = .suspect) : transition b closed active r =
    if Block.kC b ≤ activeEntries (Block.aMin b) r.history ∧ phaseTest (unionPhases r.history) = true then
      { r with state := .cracked, crackedSince := some closed }
    else if Block.qS b ≤ r.quietRun then { r with state := .watch, suspectSince := none } else r := by
  unfold transition
  rw [h]
  simp only [reachesCracked, Bool.and_eq_true, decide_eq_true_eq]

theorem transition_cracked (h : r.state = .cracked) : transition b closed active r = r := by
  unfold transition
  rw [h]

end

/-- Settles O38: the fold enters the cycle, then makes the transition that the state gives. -/
theorem foldMovesOneSegment : Obligations.FoldMovesOneSegment := by
  intro b closed es r r' active hr' hactive
  subst hr'
  refine ⟨foldRecord_excluded, fun hin => ?_⟩
  have hnow : activeNow b es = active := hactive.symm
  rw [foldRecord_included hin, hnow]
  obtain ⟨hexcl, hhist, hquiet⟩ := transition_kept (b := b) (closed := closed) (active := active) (r := recordEntered b es r)
  have hrun : (recordEntered b es r).quietRun = if active then 0 else min (r.quietRun + 1) 65535 := by rw [← hnow]; rfl
  have hst : (recordEntered b es r).state = r.state := rfl
  rw [hhist, hquiet]
  refine ⟨hexcl.trans hin, rfl, fun ha => ?_, fun ha => ?_, fun h => transition_clear (hst.trans h),
    fun h hk => ?_, fun h hk hq => ?_, fun h hk hq => ?_,
    fun h hk hp => ?_, fun h hno => ⟨fun hq => ?_, fun hq => ?_⟩, fun h => ?_⟩
  · rw [hrun, if_pos ha]
  · rw [hrun, if_neg (by simp [ha])]
  · rw [transition_watch (hst.trans h), if_pos hk]
    exact ⟨rfl, rfl⟩
  · rw [transition_watch (hst.trans h), if_neg hk.not_ge, if_pos hq]
  · rw [transition_watch (hst.trans h), if_neg hk.not_ge, if_neg hq.not_ge]
    exact h
  · rw [transition_suspect (hst.trans h), if_pos ⟨hk, hp⟩]
    exact ⟨rfl, rfl⟩
  · rw [transition_suspect (hst.trans h), if_neg (not_and_or.mpr (hno.imp Nat.not_le.mpr (by simp))), if_pos hq]
    exact ⟨rfl, rfl⟩
  · rw [transition_suspect (hst.trans h), if_neg (not_and_or.mpr (hno.imp Nat.not_le.mpr (by simp))), if_neg hq.not_ge]
    exact h
  · rw [transition_cracked (hst.trans h)]
    exact ⟨h, rfl⟩

/-! ## CONTROLs (R122 to R124) -/

theorem mem_selectedSegments_iff {nSeg n : Nat} {group mask : Byte} : n ∈ selectedSegments nSeg group mask ↔
    ∃ i, i < 8 ∧ mask.getLsbD i = true ∧ n = 8 * group.toNat + 1 + i ∧ n ≤ nSeg := by
  simp only [selectedSegments, List.mem_map, List.mem_filter, List.mem_range, Bool.and_eq_true, decide_eq_true_eq]
  constructor
  · rintro ⟨i, ⟨hi, hm, hn⟩, rfl⟩
    exact ⟨i, hi, hm, rfl, hn⟩
  · rintro ⟨i, hi, hm, rfl, hn⟩
    exact ⟨i, ⟨hi, hm, hn⟩, rfl⟩

section
variable {c : Control} {n : Nat} {r : SegmentRecord}

theorem controlRecord_excluding (hk : c.kind = .excludeSet) (hv : valueBit c n = true) :
    controlRecord c n r = if r.excluded then r else .clean true := by
  unfold controlRecord
  rw [hk]
  exact if_pos hv

theorem controlRecord_including (hk : c.kind = .excludeSet) (hv : valueBit c n = false) :
    controlRecord c n r = { r with excluded := false } := by
  unfold controlRecord
  rw [hk]
  exact if_neg (by simp [hv])

theorem controlRecord_release (hk : c.kind = .release) : controlRecord c n r = .clean r.excluded := by
  unfold controlRecord
  rw [hk]

end

theorem controlValid_iff {nSeg : Nat} {c : Control} :
    controlValid nSeg c = true ↔ c.group.toNat ≤ (nSeg - 1) / 8 ∧ (c.kind = .release → c.value = 0) := by
  unfold controlValid lastGroup
  cases hk : c.kind <;> simp

/-- Settles O39: selection, EXCLUDE-SET, RELEASE and the checks, one after the other. -/
theorem controlChangesSelectedSegments : Obligations.ControlChangesSelectedSegments := by
  refine ⟨fun _ _ _ _ => mem_selectedSegments_iff, fun c n r hk hv hr => ?_, fun c n r hk hv hr => ?_,
    fun c n r => controlRecord_including, fun c n r => controlRecord_release, fun _ _ => controlValid_iff⟩
  · rw [controlRecord_excluding hk hv, if_neg (by simp [hr])]
  · rw [controlRecord_excluding hk hv, if_pos hr]

end Sys2Proof.Machine
end

section
/-! PROOFS. The Evidence Unit's side of a close (R116 to R121, R127, R129): the fold of the table, the notices, and what the rest of a closing
command leaves of both. -/

namespace Sys2Proof.Machine

/-! ## Changes segment by segment -/

/-- Changing segments one after the other, each once, changes each by its number. -/
theorem foldl_modify_eq_mapIdx {α : Type} (f : Nat → α → α) {ns : List Nat} (hd : ns.Nodup) (hp : ∀ n ∈ ns, 1 ≤ n) (t : List α) :
    ns.foldl (fun t n => t.modify (n - 1) (f n)) t = t.mapIdx fun i r => if i + 1 ∈ ns then f (i + 1) r else r := by
  induction ns generalizing t with
  | nil => exact List.ext_getElem? fun i => by simp
  | cons n ns ih =>
    obtain ⟨hn, hd⟩ := List.nodup_cons.mp hd
    obtain ⟨hp1, hp⟩ := List.forall_mem_cons.mp hp
    rw [List.foldl_cons, ih hd hp]
    refine List.ext_getElem? fun i => ?_
    rw [List.getElem?_mapIdx, List.getElem?_mapIdx, List.getElem?_modify]
    by_cases hi : n = i + 1
    · subst hi
      simp [hn, Function.comp_def]
    · have hne : n - 1 ≠ i := by omega
      simp [hne, Ne.symm hi]

/-- The fold of the segments 1 to N_SEG folds each record with the entries placed on it (R116, R118). -/
theorem foldedTable_eq (closed : Option CycleNo) (s : State) : foldedTable closed s =
    s.evid.table.mapIdx fun i r => foldRecord s.block closed (entriesOn s.block s.evid.applied (i + 1)) r := by
  have hd : (segmentNumbers s).Nodup := List.nodup_range.map (fun a b h => by simpa using h)
  have hp : ∀ n ∈ segmentNumbers s, 1 ≤ n := fun n hn => by
    obtain ⟨i, -, rfl⟩ := List.mem_map.mp hn
    omega
  have hall : ∀ i, i < s.evid.table.length → i + 1 ∈ segmentNumbers s := fun i hi =>
    List.mem_map.mpr ⟨i, List.mem_range.mpr hi, rfl⟩
  unfold foldedTable
  rw [foldl_modify_eq_mapIdx (fun n => foldRecord s.block closed (entriesOn s.block s.evid.applied n)) hd hp]
  exact List.mapIdx_eq_mapIdx_iff.mpr fun i hi => if_pos (hall i hi)

/-- A table that stays raises no notice. -/
theorem segmentNotices_self (cycle : Option CycleNo) (cause : SegCause) (table : List SegmentRecord) :
    segmentNotices cycle cause table table = [] := by
  unfold segmentNotices
  rw [List.filterMap_eq_nil_iff]
  rintro ⟨⟨a, b⟩, i⟩ hmem
  have hab : (a, b) ∈ table.zip table := (List.mem_zipIdx hmem).2.2 ▸ List.getElem_mem _
  obtain ⟨k, hk, he⟩ := List.mem_iff_getElem.mp hab
  rw [List.getElem_zip] at he
  cases he
  exact if_pos ⟨rfl, rfl⟩

/-! ## The Evidence Unit at a close (R116, R121) -/

/-- The Evidence Unit after a close of this kind, with the configuration `b` and the standing `standing` (R116, R120, R121, R128). -/
def closedEvid (b : List Byte) (standing : Standing) (closed : Option CycleNo) (kind : CloseKind) (v : Evidence) : Evidence :=
  match kind with
  | .normal =>
    let table := v.table.mapIdx fun i r => foldRecord b closed (entriesOn b v.applied (i + 1)) r
    { v with
      applied := [], table := table, age := raised v.age
      warn := if standing = .outOfStep then v.warn else warnLevel table
      stop := if standing = .outOfStep then v.stop else stopLevel (Block.stopCount b) table }
  | _ => { v with applied := [], counts := { v.counts with unfolded := raisedBy v.applied.length v.counts.unfolded } }

theorem evidenceClose_fields (closed : Option CycleNo) (kind : CloseKind) {s : State} (hn : NoFlips s)
    (hs : s.member.station ≠ .frozen) :
    SameElsewhere s (evidenceClose closed kind s) ∧ (evidenceClose closed kind s).agree = s.agree ∧
      (evidenceClose closed kind s).evid = closedEvid s.block s.agree.standing closed kind s.evid ∧
      (evidenceClose closed kind s).port =
        (raiseAll (segmentNotices closed .fold s.evid.table (evidenceClose closed kind s).evid.table) s).port := by
  by_cases hk : kind = .normal
  · subst hk
    obtain ⟨hsame, hagree, -, hport, hevid⟩ := evidenceClose_normal closed hn hs rfl
    rw [hevid, foldedTable_eq, hport, foldedTable_eq]
    exact ⟨hsame, hagree, rfl, rfl⟩
  · obtain ⟨hsame, hagree, -, hport, hevid⟩ := evidenceClose_unfolded closed hn hk rfl
    rw [hevid, hport, segmentNotices_self]
    refine ⟨hsame, hagree, ?_, rfl⟩
    cases kind with
    | normal => exact absurd rfl hk
    | disordered => rfl
    | abandoned => rfl

/-! ## The Agreement Unit's side, and the selection -/

/-- The Evidence Unit and the Board Port are those of `s`. -/
def SameEvidence (s t : State) : Prop := t.evid = s.evid ∧ t.port = s.port

theorem selectFrame_evidence {s : State} (hq : s.channels.queue = []) : SameEvidence s (selectFrame s) := by
  obtain ⟨cur, count, heq, -⟩ := selectFrame_noHits hq
  rw [heq]
  exact ⟨rfl, rfl⟩

theorem requestDigest_evidence (snap : Snapshot) (digest : BitVec 32) {s : State} (hn : NoFlips s) (hq : s.channels.queue = []) :
    SameEvidence s (requestDigest snap digest s) := by
  unfold requestDigest
  rw [request_sound _ _ _ _ (by exact hn)]
  split
  next => exact selectFrame_evidence (s := keepNoRef s.link.nextRef (enqueue .digest (digestPayload snap digest s) s)) hq
  next => exact ⟨rfl, rfl⟩

theorem takeSnapshot_evidence (closed : Option CycleNo) {s : State} (hn : NoFlips s) (hs : s.member.station ≠ .frozen)
    (hq : s.channels.queue = []) : SameEvidence s (takeSnapshot closed s) := by
  have hstore : storeSnapshot closed s = s.withAgree { s.agree with snapshot := some ⟨closed, s.evid.age, s.evid.table⟩ } :=
    rewrite_sound (by exact hn) _
  unfold takeSnapshot
  rw [hstore, usingConfig_sound (by exact hn)]
  generalize hx : s.withAgree { s.agree with snapshot := some ⟨closed, s.evid.age, s.evid.table⟩ } = x
  have hxn : NoFlips x := by rw [← hx]; exact hn
  have hxq : x.channels.queue = [] := by rw [← hx]; exact hq
  obtain ⟨⟨⟨-, -, hmem, -⟩, -, hflips, -⟩, -⟩ := digestSnapshot_named ⟨closed, s.evid.age, s.evid.table⟩ hxn hxq
  have hsame : SameEvidence s (digestSnapshot ⟨closed, s.evid.age, s.evid.table⟩ x) := by
    unfold digestSnapshot
    rw [← hx]
    exact requestDigest_evidence _ _ (by exact hn) (by exact hq)
  rw [unlessFrozen_live (by rw [hmem, ← hx]; exact hs), usingConfig_sound hflips]
  exact hsame

theorem agreementClose_evidence (closed : Option CycleNo) {s : State} (hn : NoFlips s) (hs : s.member.station ≠ .frozen)
    (hq : s.channels.queue = []) :
    (agreementClose closed s).evid = s.evid ∧ (agreementClose closed s).port = (raiseAll (closeAbandons s) s).port := by
  unfold agreementClose
  dsimp only
  generalize hu : State.withAgree _ _ = u
  obtain ⟨⟨⟨-, hch, hmem, -⟩, -, hflips, -⟩, hevid, -, hport, -⟩ := cutTransfer_fields hn hu
  rw [usingConfig_sound hflips]
  unfold copyTable
  rw [usingWords_sound hflips]
  obtain ⟨hevid', hport'⟩ := takeSnapshot_evidence closed hflips (by rw [hmem]; exact hs) (by rw [hch]; exact hq)
  exact ⟨hevid'.trans hevid, hport'.trans hport⟩

/-- The tables' side of a close (R116, R132). -/
theorem closeTables_evidence (closed : Option CycleNo) (kind : CloseKind) {s : State} (hn : NoFlips s) (hs : s.member.station ≠ .frozen)
    (hq : s.channels.queue = []) :
    (closeTables closed kind s).evid = closedEvid s.block s.agree.standing closed kind s.evid ∧
      (closeTables closed kind s).port = (raiseAll (segmentNotices closed .fold s.evid.table (closeTables closed kind s).evid.table ++
        closeAbandons s) s).port := by
  obtain ⟨⟨⟨htr, hch, hmem, -⟩, -, hflips, -⟩, hagree, hevid, hport⟩ := evidenceClose_fields closed kind hn hs
  unfold closeTables
  generalize evidenceClose closed kind s = c at htr hch hmem hflips hagree hevid hport
  have hlive : c.member.station ≠ .frozen := by rw [hmem]; exact hs
  have habandon : closeAbandons c = closeAbandons s := by unfold closeAbandons; rw [hagree, htr]
  rw [unlessFrozen_live hlive]
  obtain ⟨hevid', hport'⟩ := agreementClose_evidence closed hflips hlive (by rw [hch]; exact hq)
  rw [hevid', hport', habandon, raiseAll_append]
  exact ⟨hevid, raiseAll_port _ hport⟩

/-! ## The whole close -/

/-- The notice of a close that is not NORMAL (R13). -/
def flagNotices (t : Tracker) (own : Nat) (cause : CloseCause) : List Notice :=
  if t.disordered = false ∧ t.abandoned = false then []
  else [⟨t.cycle, own, .cycleFlag t.cycle t.disordered t.abandoned cause⟩]

theorem closeKind_normal_iff (d a : Bool) : closeKind d a = .normal ↔ d = false ∧ a = false := by
  cases d <;> cases a <;> decide

theorem cycleFlagNotice_raises {t : Tracker} {s : State} (cause : CloseCause) (hc : s.tracker.cycle = t.cycle) :
    cycleFlagNotice t cause s = raiseAll (flagNotices t s.ownNo cause) s := by
  unfold cycleFlagNotice flagNotices
  simp only [closeKind_normal_iff]
  split
  next => rfl
  next =>
    unfold raiseNow
    rw [hc]
    rfl

/-- The Evidence Unit and the port after the close of the cycle of `s` (R13, R116, R129, R147). -/
theorem closeCycle_evidence (cause : CloseCause) {s t : State} (hn : NoFlips s) (hs : s.member.station ≠ .frozen)
    (ht : closeCycle cause s = t) :
    t.evid = closedEvid s.block s.agree.standing s.tracker.cycle (closeKind s.tracker.disordered s.tracker.abandoned) s.evid ∧
      t.port = (raiseAll (flagNotices s.tracker s.ownNo cause ++
        segmentNotices s.tracker.cycle .fold s.evid.table t.evid.table ++ closeAbandons s) s).port := by
  unfold closeCycle at ht
  dsimp only at ht
  rw [cycleFlagNotice_raises cause (by rfl)] at ht
  have hflag := raiseAll_eq (flagNotices s.tracker s.ownNo cause) (s.withTracker (closedTracker s.tracker))
  have hflagPort : (raiseAll (flagNotices s.tracker s.ownNo cause) (s.withTracker (closedTracker s.tracker))).port =
    (raiseAll (flagNotices s.tracker s.ownNo cause) s).port := raiseAll_port _ rfl
  change selectNext (closeTables _ _ (closeHits (raiseAll (flagNotices s.tracker s.ownNo cause)
    (s.withTracker (closedTracker s.tracker))))) = t at ht
  generalize raiseAll (flagNotices s.tracker s.ownNo cause) (s.withTracker (closedTracker s.tracker)) = a at hflag hflagPort ht
  have hb := closeHits_eq a
  have hbn : NoFlips (closeHits a) := (closeHits_calm _ (Calm.refl (by rw [hflag]; exact hn))).noFlips
  generalize closeHits a = b at hb hbn ht
  have hbs : b.member.station ≠ .frozen := by rw [hb, hflag]; exact hs
  have hbq : b.channels.queue = [] := by rw [hb]; rfl
  have hbe : b.evid = s.evid := by rw [hb, hflag]; rfl
  have hba : b.agree = s.agree := by rw [hb, hflag]; rfl
  have hbp : b.port = (raiseAll (flagNotices s.tracker s.ownNo cause) s).port := by rw [hb]; exact hflagPort
  have hbb : b.block = s.block := by unfold State.block; rw [hbp, raiseAll_config]
  have habandon : closeAbandons b = closeAbandons s := by unfold closeAbandons; rw [hb, hflag]; rfl
  obtain ⟨hce, hcp⟩ := closeTables_evidence s.tracker.cycle (closeKind s.tracker.disordered s.tracker.abandoned) hbn hbs hbq
  obtain ⟨⟨⟨-, hcc, -⟩, -, hcn, -⟩, -⟩ :=
    closeTables_named s.tracker.cycle (closeKind s.tracker.disordered s.tracker.abandoned) hbn hbs hbq
  generalize closeTables s.tracker.cycle (closeKind s.tracker.disordered s.tracker.abandoned) b = c at hce hcp hcc hcn ht
  rw [selectNext_sound hcn] at ht
  obtain ⟨hte, htp⟩ := selectFrame_evidence (s := c) (by rw [hcc]; exact hbq)
  rw [ht] at hte htp
  refine ⟨by rw [hte, hce, hbb, hba, hbe], ?_⟩
  rw [htp, hcp, habandon, hbe, hte, List.append_assoc, raiseAll_append (flagNotices _ _ _)]
  exact raiseAll_port _ hbp

/-! ## The rest of a closing command -/

/-- The stores are sound, and the Evidence and Agreement Units are those of `r`. -/
def TablesKept (r s : State) : Prop := NoFlips s ∧ s.evid = r.evid ∧ s.agree = r.agree

section
variable {r s : State}

theorem discardHit_tablesKept (c : Channel) (hit : Option OpenHit) (h : TablesKept r s) : TablesKept r (discardHit c hit s) := by
  unfold discardHit
  split
  next => exact h
  next =>
    split
    next =>
      rw [requestRemoval_sound h.1]
      exact h
    next =>
      unfold settleCapture
      split
      next =>
        split
        next => exact h
        next => exact h
      next => exact h
    next => exact h

theorem remute_tablesKept (c : Channel) (h : TablesKept r s) : TablesKept r (remute c s) := by
  unfold remute muteChannel
  split
  next =>
    dsimp only
    split
    next => exact h
    next => exact discardHit_tablesKept c _ h
  next => exact h

theorem releaseChannel_tablesKept (c : Channel) (h : TablesKept r s) : TablesKept r (releaseChannel c s) := by
  cases ha : isArmed (s.channels.units.get c) with
  | false => rw [releaseChannel_unarmed ha]; exact h
  | true => rw [releaseChannel_armed h.1 ha]; exact remute_tablesKept c h

theorem releasePulse_tablesKept (h : TablesKept r s) : TablesKept r (releasePulse s) := by
  obtain ⟨-, heq⟩ | ⟨c, -, heq⟩ := releasePulse_cases h.1
  · rw [heq]; exact h
  · rw [heq]; exact releaseChannel_tablesKept c h

theorem endSlotAtCyc_tablesKept (h : TablesKept r s) : TablesKept r (endSlotAtCyc s) := by
  unfold endSlotAtCyc
  split
  next => exact h
  next => exact h
  next => exact h
  next ref _ =>
    rw [withdraw_eq]
    exact releasePulse_tablesKept h
  next => exact releasePulse_tablesKept h
  next => exact h

theorem couplingCyc_tablesKept (h : TablesKept r s) : TablesKept r (couplingCyc s) := by
  have he := endSlotAtCyc_tablesKept h
  unfold couplingCyc State.unlessFrozen
  split
  next => exact he
  next =>
    rw [abandonWindow_sound he.1]
    exact he

theorem enterPhase_tablesKept (p : Phase) (h : TablesKept r s) : TablesKept r (enterPhase p s) := by
  rw [enterPhase_eq h.1]
  exact h

/-- The new cycle begins with an empty Applied Event List, which the close has left (R9, R116). -/
theorem countCycle_tablesKept (h : TablesKept r s) (he : s.evid.applied = []) : TablesKept r (countCycle s) := by
  have hself : { s.evid with applied := [] } = s.evid := by rw [← he]
  unfold countCycle
  dsimp only
  split
  next =>
    rw [beginCycle_sound (by exact h.1)]
    exact ⟨h.1, hself.trans h.2.1, h.2.2⟩
  next => exact h

theorem startCycle_tablesKept (h : TablesKept r s) (he : s.evid.applied = []) : TablesKept r (startCycle s) := by
  have hf := enterPhase_tablesKept .feed (countCycle_tablesKept h he)
  unfold startCycle State.unlessFrozen
  split
  next => exact hf
  next => exact couplingCyc_tablesKept hf

theorem goIdle_tablesKept (h : TablesKept r s) : TablesKept r (goIdle s) := enterPhase_tablesKept .idle h

theorem goIdle_port (hn : NoFlips s) : (goIdle s).port = s.port := by
  rw [goIdle_sound hn]
  rfl

end

theorem closedEvid_applied (b : List Byte) (standing : Standing) (closed : Option CycleNo) (kind : CloseKind) (v : Evidence) :
    (closedEvid b standing closed kind v).applied = [] := by
  cases kind <;> rfl

/-- The station `s` at a closing command's moment, with the flags of the close (R11 to R13). -/
def closingState (m : Moment) (dis ab : Bool) (s : State) : State :=
  (s.withNow m.tag).withTracker { s.tracker with disordered := dis, abandoned := ab }

/-- Every closing command closes the cycle, and leaves the Evidence and Agreement Units and the notices as the close has left them. -/
theorem exec_closes_tables {m : Moment} {s : State} {cmd : Instr} {cause : CloseCause} {dis ab : Bool}
    (h : ClosesNow m s cmd cause dis ab) : ∃ t, exec cmd s = .next t ∧
      TablesKept (closeCycle cause (closingState m dis ab s)) t ∧ t.port = (closeCycle cause (closingState m dis ab s)).port := by
  obtain ⟨hS, hw, ho, rfl, hcmd⟩ := h
  have hlive : (s.withNow m.tag).member.station ≠ .frozen := atWork_not_frozen hw
  have hcl : ∀ k a, ClosedFrom k (closingState m s.tracker.disordered a s)
      (closeCycle k (closingState m s.tracker.disordered a s)) := fun k _ => closeCycle_closed k hS.noFlips hlive
  have hself : ∀ k a, TablesKept (closeCycle k (closingState m s.tracker.disordered a s))
      (closeCycle k (closingState m s.tracker.disordered a s)) := fun k a => ⟨(hcl k a).noFlips, rfl, rfl⟩
  rcases hcmd with ⟨d, hs, hd, rfl, rfl, rfl⟩ | ⟨rfl, rfl, rfl⟩ | ⟨d, hs, hd, hp, rfl, rfl, rfl⟩
  · refine ⟨_, exec_settleTimerExpiry_due hS hw ho hs hd, ?_⟩
    change TablesKept _ (idleIfExpired (closeCycle .settle (closingState m s.tracker.disordered s.tracker.abandoned s))) ∧
      (idleIfExpired (closeCycle .settle (closingState m s.tracker.disordered s.tracker.abandoned s))).port = _
    unfold idleIfExpired
    split
    next => exact ⟨goIdle_tablesKept (hself _ _), goIdle_port (hcl _ _).noFlips⟩
    next => exact ⟨hself _ _, rfl⟩
  · refine ⟨_, exec_cycRising_atWork hS hw, ?_⟩
    have hearly : earlyClose (s.withNow m.tag) = closeCycle .cyc
        (closingState m s.tracker.disordered (s.tracker.abandoned || beforeStrip s.tracker.phase) s) := earlyClose_open ho
    rw [hearly]
    obtain ⟨hevid, -⟩ := closeCycle_evidence .cyc (s := closingState m s.tracker.disordered
      (s.tracker.abandoned || beforeStrip s.tracker.phase) s) hS.noFlips hlive rfl
    refine ⟨startCycle_tablesKept (hself _ _) ?_, (startCycle_started (hcl _ _).noFlips ?_).port⟩
    · rw [hevid]
      exact closedEvid_applied _ _ _ _ _
    · rw [(hcl _ _).member]
      exact hlive
  · refine ⟨_, (exec_cycleTimerExpiry_due hS hw hs hd).trans
      (congrArg _ (cycleExpired_closes (s := s.withNow m.tag) hS.noFlips hlive ho hp)), ?_⟩
    exact ⟨goIdle_tablesKept (hself .cycleTimer true), goIdle_port (hcl .cycleTimer true).noFlips⟩

/-! ## Which entries qualify (R117) -/

/-- Attributes that all stand in a mask. -/
theorem and_not_byte_eq_zero_iff (attrs : Byte) (mask : Nat) :
    attrs &&& ~~~(byte mask) = 0 ↔ ∀ i, i < 8 → attrs.getLsbD i = true → mask.testBit i = true := by
  have hbit : ∀ i, i < 8 → (attrs &&& ~~~(byte mask)).getLsbD i = (attrs.getLsbD i && !mask.testBit i) := fun i hi => by
    unfold byte
    rw [BitVec.getLsbD_and, BitVec.getLsbD_not, BitVec.getLsbD_ofNat, decide_eq_true hi, Bool.true_and, Bool.true_and]
  constructor
  · intro h i hi ha
    have hz := hbit i hi
    rw [h, ha] at hz
    simpa using hz.symm
  · intro h
    refine BitVec.eq_of_getLsbD_eq fun i hi => ?_
    rw [hbit i hi, BitVec.ofNat_eq_ofNat, BitVec.getLsbD_zero]
    cases ha : attrs.getLsbD i with
    | false => rfl
    | true => rw [h i hi ha]; rfl

theorem mem_entriesOn_iff {b : List Byte} {list : List AppliedEvent} {n : Nat} {a : AppliedEvent} :
    a ∈ entriesOn b list n ↔ a ∈ list ∧ a.event.segment = n ∧ Block.evidential b (phaseCode a.event.phase) = 1 ∧
      ∀ i, i < 8 → a.event.attrs.getLsbD i = true → (Block.mask b (phaseCode a.event.phase)).testBit i = true := by
  rw [← and_not_byte_eq_zero_iff]
  simp [entriesOn, qualifies]

/-- Settles O10: the close itself, which the rest of its command leaves alone, and what a qualifying entry is. -/
theorem closesFoldTheTable : Obligations.ClosesFoldTheTable := by
  refine ⟨fun m s cmd cause dis ab h => ?_, fun b list n a => ⟨List.filter_sublist, mem_entriesOn_iff⟩⟩
  obtain ⟨t, hex, ⟨-, hevid, -⟩, hport⟩ := exec_closes_tables h
  obtain ⟨hS, hw, -⟩ := h
  obtain ⟨huevid, huport⟩ := closeCycle_evidence cause (s := closingState m dis ab s) hS.noFlips (atWork_not_frozen hw) rfl
  rw [huport, ← hevid] at hport
  rw [huevid] at hevid
  have hport' : t.port = (raiseAll _ s).port := hport.trans (raiseAll_port _ rfl)
  have hblock : t.block = s.block := by unfold State.block; rw [hport', raiseAll_config]
  change t.evid = closedEvid s.block s.agree.standing s.tracker.cycle (closeKind dis ab) s.evid at hevid
  refine ⟨t, hex, by rw [hevid, closedEvid_applied], ?_, hport', fun hd ha => ?_, fun hflag => ?_⟩
  · rw [hevid]
    cases closeKind dis ab <;> rfl
  · rw [(closeKind_normal_iff dis ab).mpr ⟨hd, ha⟩] at hevid
    change _ ∧ _ ∧ _ ∧ (_ → _ = warnLevel t.evid.table ∧ _ = stopLevel (Block.stopCount t.block) t.evid.table) ∧ _
    rw [hblock, hevid]
    refine ⟨rfl, rfl, rfl, fun ho => ⟨if_neg ho, if_neg ho⟩, fun ho => ⟨if_pos ho, if_pos ho⟩⟩
  · have hk : closeKind dis ab ≠ .normal := fun hk => by
      obtain ⟨rfl, rfl⟩ := (closeKind_normal_iff dis ab).mp hk
      simp at hflag
    rw [hevid]
    cases hc : closeKind dis ab with
    | normal => exact absurd hc hk
    | disordered => rfl
    | abandoned => rfl

end Sys2Proof.Machine
end

section
/-! PROOFS. CONTROL frames with sound stores (R122 to R124, R127 to R129, R145, R147): the table, the outputs, the notices and the carry
list. -/

namespace Sys2Proof.Machine

/-! ## One CONTROL (R122 to R124) -/

theorem selectedSegments_nodup (nSeg : Nat) (group mask : Byte) : (selectedSegments nSeg group mask).Nodup :=
  (List.nodup_range.filter _).map fun a b h => by omega

/-- Going through the selected segments changes each of them by its number. -/
theorem controlSegments_table (nSeg : Nat) (c : Control) (table : List SegmentRecord) :
    (selectedSegments nSeg c.group c.mask).foldl (fun t n => t.modify (n - 1) (controlRecord c n)) table =
      controlledTable nSeg c table :=
  foldl_modify_eq_mapIdx (controlRecord c) (selectedSegments_nodup nSeg c.group c.mask)
    (fun n hn => by
      obtain ⟨i, -, -, hi, -⟩ := mem_selectedSegments_iff.mp hn
      omega) table

/-- WARN and STOP derived from the table, unless the standing holds them (R127, R128). -/
def derivedEvid (standing : Standing) (stopCount : Nat) (v : Evidence) : Evidence :=
  if standing = .outOfStep then v else { v with warn := warnLevel v.table, stop := stopLevel stopCount v.table }

theorem deriveUnlessHeld_eq {s : State} (hn : NoFlips s) :
    deriveUnlessHeld s = s.withEvid (derivedEvid s.agree.standing (Block.stopCount s.block) s.evid) := by
  rw [deriveUnlessHeld_sound hn]
  unfold derivedEvid
  split
  next => rfl
  next => rfl

section
variable (standing : Standing) (stopCount : Nat) (v : Evidence)

/-- The derivation writes WARN and STOP alone. -/
theorem derivedEvid_kept : (derivedEvid standing stopCount v).table = v.table ∧ (derivedEvid standing stopCount v).age = v.age ∧
    (derivedEvid standing stopCount v).applied = v.applied ∧ (derivedEvid standing stopCount v).hold = v.hold ∧
    (derivedEvid standing stopCount v).counts = v.counts := by
  unfold derivedEvid
  split
  next => exact ⟨rfl, rfl, rfl, rfl, rfl⟩
  next => exact ⟨rfl, rfl, rfl, rfl, rfl⟩

theorem derivedEvid_held (h : standing = .outOfStep) : derivedEvid standing stopCount v = v := if_pos h

theorem derivedEvid_derived (h : standing ≠ .outOfStep) : (derivedEvid standing stopCount v).warn = warnLevel v.table ∧
    (derivedEvid standing stopCount v).stop = stopLevel stopCount v.table := by
  unfold derivedEvid
  rw [if_neg h]
  exact ⟨rfl, rfl⟩

end

/-- The table and the count after a CONTROL (R122). -/
def countedControl (nSeg : Nat) (c : Control) (v : Evidence) : Evidence :=
  { v with table := controlledTable nSeg c v.table, counts := { v.counts with controls := raised v.counts.controls } }

/-- The Evidence Unit after a CONTROL, with the configuration `b` (R122, R127). -/
def controlledEvid (b : List Byte) (standing : Standing) (c : Control) (v : Evidence) : Evidence :=
  derivedEvid standing (Block.stopCount b) (countedControl (Block.nSeg b) c v)

/-- With sound stores a CONTROL writes the Evidence Unit, and the port by its notices (R122, R129). -/
theorem applyControl_sound (c : Control) {s : State} (hn : NoFlips s) (hs : s.member.station ≠ .frozen) :
    applyControl c s = (s.withEvid (controlledEvid s.block s.agree.standing c s.evid)).withPort
      (raiseAll (segmentNotices s.tracker.cycle (controlCause c) s.evid.table
        (controlledTable (Block.nSeg s.block) c s.evid.table)) s).port := by
  have hsegments : controlSegments c (selectedSegments (Block.nSeg s.block) c.group c.mask)
      (evidCounts (fun k => { k with controls := raised k.controls }) s) =
        s.withEvid (countedControl (Block.nSeg s.block) c s.evid) := by
    rw [controlSegments_sound c _ (by exact hn) (by exact hs), controlSegments_table]
    rfl
  unfold applyControl
  dsimp only
  rw [hsegments, unlessFrozen_live (by exact hs)]
  unfold afterControl
  rw [raiseChanges_eq, raiseAll_eq]
  generalize hp : (raiseAll _ (s.withEvid (countedControl (Block.nSeg s.block) c s.evid))).port = p
  have hport : p = (raiseAll (segmentNotices s.tracker.cycle (controlCause c) s.evid.table
      (controlledTable (Block.nSeg s.block) c s.evid.table)) s).port := hp ▸ raiseAll_port _ rfl
  have hblock : State.block ((s.withEvid (countedControl (Block.nSeg s.block) c s.evid)).withPort p) = s.block := by
    rw [withPort_block, hport, raiseAll_config]
    rfl
  rw [deriveUnlessHeld_eq (by exact hn), hblock, ← hport]
  rfl

/-! ## Carrying it (R145, R147) -/

/-- A transfer in AWAITING is abandoned with its notice (R147). -/
theorem abandonTransfer_awaiting (cause : AbandonCause) {s : State} {d : Station} {k : Option CycleNo} {v : BitVec 32} {n : Nat}
    {r : Option RowFrame} {b : List SegmentRecord} (h : s.agree.transfer = .awaiting d k v n r b) :
    abandonTransfer cause s = (s.withAgree (transferGone s.agree)).withPort
      (raiseAll [⟨s.tracker.cycle, stNo d, .transfer (.abandoned cause)⟩] s).port := by
  unfold abandonTransfer
  rw [h]
  dsimp only
  unfold raiseNow
  rw [raise_eq]
  exact congrArg (State.withPort _) (raise_port _ rfl)

theorem abandonTransfer_other (cause : AbandonCause) {s : State} (h : ∀ d k v n r b, s.agree.transfer ≠ .awaiting d k v n r b) :
    abandonTransfer cause s = s := by
  unfold abandonTransfer
  split
  next d k v n r b htr => exact absurd htr (h d k v n r b)
  next => rfl

/-- The Agreement Unit after a CONTROL has been carried (R145, R147; log entry 29). -/
def carriedAgree (c : Control) (a : Agreement) : Agreement :=
  if a.snapshot = none then a
  else if a.carry.length < 8 then { a with carry := a.carry ++ [c] }
  else
    match a.transfer with
    | .awaiting .. => transferGone a
    | _ => { a with carryOverflow := true }

/-- The notice of a transfer that the ninth carried CONTROL abandons (R145, R147). -/
def carryAbandons (cycle : Option CycleNo) (a : Agreement) : List Notice :=
  if a.snapshot ≠ none ∧ 8 ≤ a.carry.length then
    match a.transfer with
    | .awaiting d _ _ _ _ _ => [⟨cycle, stNo d, .transfer (.abandoned .carry)⟩]
    | _ => []
  else []

section
variable {a : Agreement} (hsnap : a.snapshot ≠ none)
include hsnap

theorem carriedAgree_room (c : Control) (hroom : a.carry.length < 8) : carriedAgree c a = { a with carry := a.carry ++ [c] } := by
  unfold carriedAgree
  rw [if_neg hsnap, if_pos hroom]

theorem carriedAgree_full (c : Control) (hfull : 8 ≤ a.carry.length) :
    (∀ d k v n r b, a.transfer = .awaiting d k v n r b → carriedAgree c a = transferGone a) ∧
      ((∀ d k v n r b, a.transfer ≠ .awaiting d k v n r b) → carriedAgree c a = { a with carryOverflow := true }) := by
  unfold carriedAgree
  rw [if_neg hsnap, if_neg hfull.not_gt]
  refine ⟨fun d k v n r b h => by rw [h], fun h => ?_⟩
  split
  next htr => exact absurd htr (h _ _ _ _ _ _)
  next => rfl

theorem carryAbandons_full (cycle : Option CycleNo) (hfull : 8 ≤ a.carry.length) :
    (∀ d k v n r b, a.transfer = .awaiting d k v n r b →
      carryAbandons cycle a = [⟨cycle, stNo d, .transfer (.abandoned .carry)⟩]) ∧
      ((∀ d k v n r b, a.transfer ≠ .awaiting d k v n r b) → carryAbandons cycle a = []) := by
  unfold carryAbandons
  rw [if_pos ⟨hsnap, hfull⟩]
  refine ⟨fun d k v n r b h => by rw [h], fun h => ?_⟩
  split
  next htr => exact absurd htr (h _ _ _ _ _ _)
  next => rfl

end

theorem carryControl_eq (c : Control) (s : State) : carryControl c s =
    (s.withAgree (carriedAgree c s.agree)).withPort (raiseAll (carryAbandons s.tracker.cycle s.agree) s).port := by
  unfold carryControl
  by_cases hsnap : s.agree.snapshot = none
  · unfold carriedAgree carryAbandons
    rw [if_pos (by rw [hsnap]; rfl), if_pos hsnap, if_neg (fun h => h.1 hsnap)]
    rfl
  · rw [if_neg (by rw [Option.isNone_iff_eq_none]; exact hsnap)]
    by_cases hroom : s.agree.carry.length < 8
    · unfold carryAbandons
      rw [if_pos (by exact hroom), carriedAgree_room hsnap c hroom, if_neg (fun h => absurd hroom h.2.not_gt)]
      rfl
    · obtain ⟨hgone, hover⟩ := carriedAgree_full hsnap c (Nat.not_lt.mp hroom)
      obtain ⟨hnotice, hsilent⟩ := carryAbandons_full hsnap s.tracker.cycle (Nat.not_lt.mp hroom)
      rw [if_neg (by exact hroom)]
      by_cases hawait : ∀ d k v n r b, s.agree.transfer ≠ .awaiting d k v n r b
      · rw [abandonTransfer_other .carry (by exact hawait), hover hawait, hsilent hawait]
        rfl
      · push Not at hawait
        obtain ⟨d, k, v, n, r, b, htr⟩ := hawait
        rw [abandonTransfer_awaiting .carry (by exact htr), hgone d k v n r b htr, hnotice d k v n r b htr]
        exact congrArg (State.withPort _) (raiseAll_port _ rfl)

/-! ## The frame (R122) -/

/-- A CONTROL frame that fails no check: its content is applied, and carried. -/
theorem takeControl_valid {c : Control} {s : State} (hn : NoFlips s) (hs : s.member.station ≠ .frozen)
    (hv : controlValid (Block.nSeg s.block) c = true) : takeControl c s =
      ((s.withEvid (controlledEvid s.block s.agree.standing c s.evid)).withAgree (carriedAgree c s.agree)).withPort
        (raiseAll (segmentNotices s.tracker.cycle (controlCause c) s.evid.table
          (controlledTable (Block.nSeg s.block) c s.evid.table) ++ carryAbandons s.tracker.cycle s.agree) s).port := by
  unfold takeControl
  rw [if_pos hv, applyControl_sound c hn hs, unlessFrozen_live (by exact hs), carryControl_eq, raiseAll_append]
  exact congrArg (State.withPort _) (raiseAll_port _ rfl)

theorem controlFrame_malformed {st : Station} {p : List Byte} {s : State} (hn : NoFlips s)
    (hp : (s.member.peers.get st).state = .present)
    (h : controlOf p = none ∨ ∃ c, controlOf p = some c ∧ controlValid (Block.nSeg s.block) c = false) :
    controlFrame st p s = malformedControl s := by
  unfold controlFrame
  rw [if_neg (fun h => h hp)]
  obtain h | ⟨c, hc, hv⟩ := h
  · rw [h]
  · rw [hc]
    dsimp only
    rw [usingConfig_sound hn]
    unfold takeControl
    rw [hv]
    rfl

theorem controlFrame_valid {st : Station} {p : List Byte} {c : Control} {s : State} (hn : NoFlips s)
    (hp : (s.member.peers.get st).state = .present) (hc : controlOf p = some c) : controlFrame st p s = takeControl c s := by
  unfold controlFrame
  rw [if_neg (fun h => h hp), hc]
  exact usingConfig_sound hn _ _

/-! ## The station that the blocks of a frame's kind find -/

/-- An adoption can empty the Applied Event List, and leaves the rest of the Evidence Unit (R9, R14). -/
theorem frameFinds_evid {m : Moment} {f : RxFrame} {st : Station} {s : State} (hn : NoFlips s) :
    (frameFinds m f st s).evid = { s.evid with applied := (frameFinds m f st s).evid.applied } := by
  unfold frameFinds
  split
  next n _ =>
    split
    next =>
      rw [adoptFirst_sound n (by exact hn)]
      dsimp only
      split
      next => rfl
      next => rfl
    next => rfl
  next => rfl

/-- The blocks take a frame in a station at work. -/
theorem frameFinds_live {m : Moment} {f : RxFrame} {st : Station} {s : State} (hn : NoFlips s) (hw : s.atWork = true) :
    (frameFinds m f st s).member.station ≠ .frozen := by
  unfold frameFinds
  split
  next n _ =>
    split
    next =>
      rw [adoptFirst_sound n (by exact hn)]
      exact nofun
    next => exact atWork_not_frozen hw
  next => exact atWork_not_frozen hw

/-- Settles O40: the frame's content fails a check, or is applied and carried. -/
theorem controlFramesAreApplied : Obligations.ControlFramesAreApplied := by
  intro m s l f st s0 h h0
  subst h0
  obtain ⟨u, hexec, hfound⟩ := handed_take h (by decide) (by decide)
  obtain ⟨hS, hw, -⟩ := h
  have hblock := hfound.block
  obtain ⟨⟨htracker, hcoin, hevid, hstation⟩, ⟨hagree, hcoup, hchannels, hport⟩, -, ⟨-, hpresent⟩, hn, -⟩ := hfound
  have hfinds := frameFinds_evid (m := m) (f := f) (st := st) hS.noFlips
  have hlive : u.member.station ≠ .frozen := by rw [hstation]; exact frameFinds_live hS.noFlips hw
  have happlied : u.evid = { s.evid with applied := (frameFinds m f st s).evid.applied } := hevid.trans hfinds
  change exec (.frameHandlerTake m) s = .next (endHandling (controlFrame st f.payload u)) at hexec
  cases hv : (controlOf f.payload).any fun c => controlValid (Block.nSeg s.block) c with
  | false =>
    have hbad : ∀ c, controlOf f.payload = some c → controlValid (Block.nSeg s.block) c = false := fun c hc => by
      rw [hc] at hv
      exact hv
    rw [controlFrame_malformed hn hpresent] at hexec
    · refine ⟨_, hexec, htracker, hcoin, hcoup, hchannels, fun _ => ⟨hagree, hport, ?_⟩, fun c hc hvalid => ?_⟩
      · rw [← hevid]
        rfl
      · rw [hbad c hc] at hvalid
        cases hvalid
    · rw [hblock]
      cases hc : controlOf f.payload with
      | none => exact Or.inl rfl
      | some c => exact Or.inr ⟨c, rfl, hbad c hc⟩
  | true =>
    obtain ⟨c, hc, hvalid⟩ := (Option.any_eq_true _ _).mp hv
    rw [controlFrame_valid hn hpresent hc, takeControl_valid hn hlive (by rw [hblock]; exact hvalid), hblock, hagree, happlied,
      htracker] at hexec
    generalize ht : endHandling _ = t at hexec
    have htevid : t.evid = controlledEvid s.block s.agree.standing c { s.evid with applied := (frameFinds m f st s).evid.applied } := by
      rw [← ht]; rfl
    have htagree : t.agree = carriedAgree c s.agree := by rw [← ht]; rfl
    have htport : t.port = (raiseAll (presentAgain st s ++ segmentNotices (frameFinds m f st s).tracker.cycle (controlCause c) s.evid.table
        (controlledTable (Block.nSeg s.block) c s.evid.table) ++ carryAbandons (frameFinds m f st s).tracker.cycle s.agree) s).port := by
      rw [← ht, List.append_assoc, raiseAll_append (presentAgain st s)]
      exact raiseAll_port _ hport
    have htblock : t.block = s.block := by unfold State.block; rw [htport, raiseAll_config]
    obtain ⟨htable, hage, hlist, hhold, hcounts⟩ := derivedEvid_kept s.agree.standing (Block.stopCount s.block)
      (countedControl (Block.nSeg s.block) c { s.evid with applied := (frameFinds m f st s).evid.applied })
    refine ⟨t, hexec, by rw [← ht]; exact htracker, by rw [← ht]; exact hcoin, by rw [← ht]; exact hcoup, by rw [← ht]; exact hchannels,
      fun hbad => ?_, fun c' hc' _ => ?_⟩
    · obtain hnone | ⟨c', hc', hbad⟩ := hbad
      · rw [hc] at hnone
        cases hnone
      · rw [hc] at hc'
        cases hc'
        rw [hvalid] at hbad
        cases hbad
    · rw [hc] at hc'
      cases hc'
      change _ ∧ _ ∧ _ ∧ _ ∧ _ ∧
        (_ → _ = warnLevel t.evid.table ∧ _ = stopLevel (Block.stopCount t.block) t.evid.table) ∧ _
      rw [htblock, htagree, htevid]
      refine ⟨htable, hage, hlist, hhold, hcounts, fun ho => ?_, fun ho => ?_, fun hsnap => if_pos hsnap,
        fun hsnap hroom => carriedAgree_room hsnap c hroom, fun hsnap hfull => carriedAgree_full hsnap c hfull, htport⟩
      · rw [show (controlledEvid _ _ _ _).table = _ from htable]
        exact derivedEvid_derived _ _ _ ho
      · unfold controlledEvid
        rw [derivedEvid_held _ _ _ ho]
        exact ⟨rfl, rfl⟩

end Sys2Proof.Machine
end

section
/-! PROOFS. ROW frames with sound stores (R126, R144 to R147): what a ROW is ignored for, what it abandons, and the completed transfer with
the carried CONTROLs. -/

namespace Sys2Proof.Machine

/-! ## The parts of a completed transfer (R126, R145, R146) -/

theorem replaceTable_sound (records : List SegmentRecord) (age : Nat) {s : State} (hn : NoFlips s) : replaceTable records age s =
    (s.withEvid { s.evid with table := records, age := age }).withPort
      (raiseAll (segmentNotices s.tracker.cycle .transfer s.evid.table records) s).port := by
  unfold replaceTable
  rw [raiseChanges_eq, raiseAll_eq, rewrite_sound (by exact hn)]
  exact congrArg (State.withPort _) (raiseAll_port _ rfl)

/-- The Evidence Unit after carried CONTROLs, one after the other (R145, R146). -/
def carriedEvid (b : List Byte) (standing : Standing) (cs : List Control) (v : Evidence) : Evidence :=
  cs.foldl (fun v c => controlledEvid b standing c v) v

theorem carriedEvid_fields (b : List Byte) (standing : Standing) (cs : List Control) (v : Evidence) :
    (carriedEvid b standing cs v).table = carriedTable (Block.nSeg b) cs v.table ∧ (carriedEvid b standing cs v).age = v.age ∧
      (carriedEvid b standing cs v).applied = v.applied ∧ (carriedEvid b standing cs v).counts =
        { v.counts with controls := cs.foldl (fun k _ => min (k + 1) 65535) v.counts.controls } := by
  induction cs generalizing v with
  | nil => exact ⟨rfl, rfl, rfl, rfl⟩
  | cons c cs ih =>
    obtain ⟨htable, hage, happlied, -, hcounts⟩ := derivedEvid_kept standing (Block.stopCount b) (countedControl (Block.nSeg b) c v)
    obtain ⟨ihtable, ihage, ihapplied, ihcounts⟩ := ih (controlledEvid b standing c v)
    refine ⟨ihtable.trans ?_, ihage.trans hage, ihapplied.trans happlied, ihcounts.trans ?_⟩
    · rw [show (controlledEvid b standing c v).table = controlledTable (Block.nSeg b) c v.table from htable]
      rfl
    · rw [show (controlledEvid b standing c v).counts = _ from hcounts]
      rfl

/-- With sound stores the carried CONTROLs write the Evidence Unit, and the port by their notices. -/
theorem reapplyControls_sound (cs : List Control) {s : State} (hn : NoFlips s) (hs : s.member.station ≠ .frozen) :
    reapplyControls cs s = (s.withEvid (carriedEvid s.block s.agree.standing cs s.evid)).withPort
      (raiseAll (carriedNotices (Block.nSeg s.block) s.tracker.cycle cs s.evid.table) s).port := by
  induction cs generalizing s with
  | nil => rfl
  | cons c cs ih =>
    unfold reapplyControls
    rw [applyControl_sound c hn hs, unlessFrozen_live (by exact hs), ih (by exact hn) (by exact hs)]
    generalize hp : (raiseAll (segmentNotices s.tracker.cycle (controlCause c) s.evid.table
      (controlledTable (Block.nSeg s.block) c s.evid.table)) s).port = p
    have hblock : State.block ((s.withEvid (controlledEvid s.block s.agree.standing c s.evid)).withPort p) = s.block := by
      rw [withPort_block, ← hp, raiseAll_config]
      rfl
    obtain ⟨htable, -⟩ := derivedEvid_kept s.agree.standing (Block.stopCount s.block) (countedControl (Block.nSeg s.block) c s.evid)
    have htable' : (controlledEvid s.block s.agree.standing c s.evid).table = controlledTable (Block.nSeg s.block) c s.evid.table :=
      htable
    rw [hblock, withPort_evid, withEvid_evid, htable', carriedNotices, raiseAll_append]
    exact congrArg (State.withPort _) (raiseAll_port _ hp.symm)

/-- The Evidence Unit once the station is IN-STEP: released from the hold, if the standing has changed (R128, R139). -/
def inStepEvid (standing : Standing) (stopCount : Nat) (v : Evidence) : Evidence :=
  if standing = .inStep then v
  else { v with hold := none, warn := warnLevel v.table, stop := stopLevel stopCount v.table }

theorem inStepEvid_kept (standing : Standing) (stopCount : Nat) (v : Evidence) :
    (inStepEvid standing stopCount v).table = v.table ∧ (inStepEvid standing stopCount v).age = v.age ∧
      (inStepEvid standing stopCount v).applied = v.applied ∧ (inStepEvid standing stopCount v).counts = v.counts := by
  unfold inStepEvid
  split
  next => exact ⟨rfl, rfl, rfl, rfl⟩
  next => exact ⟨rfl, rfl, rfl, rfl⟩

/-- The notice of a standing that becomes IN-STEP (R139). -/
def inStepNotices (cycle : Option CycleNo) (own : Nat) (standing : Standing) : List Notice :=
  if standing = .inStep then [] else [⟨cycle, own, .standing .inStep⟩]

theorem setStanding_inStep {s : State} (hn : NoFlips s) : setStanding .inStep s =
    ((s.withAgree { s.agree with standing := .inStep }).withEvid
      (inStepEvid s.agree.standing (Block.stopCount s.block) s.evid)).withPort
      (raiseAll (inStepNotices s.tracker.cycle s.ownNo s.agree.standing) s).port := by
  unfold setStanding inStepEvid inStepNotices
  by_cases h : s.agree.standing = .inStep
  · have hself : { s.agree with standing := .inStep } = s.agree := by rw [← h]
    rw [if_pos h.symm, if_pos h, if_pos h, hself]
    rfl
  · rw [if_neg (Ne.symm h), if_neg h, if_neg h]
    unfold raiseNow
    rw [raise_eq]
    generalize hp : (raise _ (s.withAgree { s.agree with standing := .inStep })).port = p
    have hport : p = (raise ⟨s.tracker.cycle, s.ownNo, .standing .inStep⟩ s).port := hp ▸ raise_port _ rfl
    have hblock : p.config.getD [] = s.block := by rw [hport, raise_config]; rfl
    unfold standingChanged
    rw [if_neg (by exact nofun)]
    unfold deriveOutputs
    rw [usingWords_sound (by exact hn), usingConfig_sound (by exact hn), raiseAll_cons, raiseAll_nil, ← hport, ← hblock]
    rfl

theorem endTransfer_eq (donor : Station) (s : State) : endTransfer donor s = (s.withAgree { s.agree with
      transfer := .idle, carry := [], carryOverflow := false
      counts := { s.agree.counts with completed := raised s.agree.counts.completed } }).withPort
    (raiseAll [⟨s.tracker.cycle, stNo donor, .transfer .completed⟩] s).port := by
  unfold endTransfer raiseNow
  rw [raise_eq]
  rfl

/-! ## The completed transfer (R146) -/

/-- The Agreement Unit after a completed transfer (R146). -/
def completedAgree (a : Agreement) : Agreement :=
  { a with
    standing := .inStep, transfer := .idle, carry := [], carryOverflow := false
    counts := { a.counts with completed := raised a.counts.completed } }

/-- The Evidence Unit after a completed transfer: the donor's table and age, the carried CONTROLs on it, and the outputs (R126, R146). -/
def completedEvid (b : List Byte) (a : Agreement) (records : List SegmentRecord) (age : Nat) (v : Evidence) : Evidence :=
  inStepEvid a.standing (Block.stopCount b) (carriedEvid b a.standing a.carry { v with table := records, age := age })

/-- The notices of a completed transfer from `donor`, in order (R129, R139, R146; log entry 11). -/
def completedNotices (donor : Station) (records : List SegmentRecord) (s : State) : List Notice :=
  segmentNotices s.tracker.cycle .transfer s.evid.table records ++
    carriedNotices (Block.nSeg s.block) s.tracker.cycle s.agree.carry records ++
    inStepNotices s.tracker.cycle s.ownNo s.agree.standing ++ [⟨s.tracker.cycle, stNo donor, .transfer .completed⟩]

/-- The last steps of a completed transfer (R146). -/
theorem endTransfer_inStep (donor : Station) {s : State} (hn : NoFlips s) : endTransfer donor (setStanding .inStep s) =
    ((s.withEvid (inStepEvid s.agree.standing (Block.stopCount s.block) s.evid)).withAgree (completedAgree s.agree)).withPort
      (raiseAll (inStepNotices s.tracker.cycle s.ownNo s.agree.standing ++ [⟨s.tracker.cycle, stNo donor, .transfer .completed⟩]) s).port := by
  rw [setStanding_inStep hn, endTransfer_eq, raiseAll_append]
  exact congrArg (State.withPort _) (raiseAll_port _ rfl)

/-- The donor's table with the carried CONTROLs on it (R126, R146). -/
theorem reapplyControls_replaceTable (cs : List Control) (records : List SegmentRecord) (age : Nat) {s : State} (hn : NoFlips s)
    (hs : s.member.station ≠ .frozen) : reapplyControls cs (replaceTable records age s) =
      (s.withEvid (carriedEvid s.block s.agree.standing cs { s.evid with table := records, age := age })).withPort
        (raiseAll (segmentNotices s.tracker.cycle .transfer s.evid.table records ++
          carriedNotices (Block.nSeg s.block) s.tracker.cycle cs records) s).port := by
  rw [replaceTable_sound records age hn]
  generalize hp : (raiseAll (segmentNotices s.tracker.cycle .transfer s.evid.table records) s).port = p
  have hpb : p.config.getD [] = s.block := by rw [← hp, raiseAll_config]; rfl
  rw [reapplyControls_sound cs (by exact hn) (by exact hs), withPort_block, hpb, raiseAll_append]
  exact congrArg (State.withPort _) (raiseAll_port _ hp.symm)

theorem completeTransfer_matching {donor : Station} {row : RowFrame} {buffer : List SegmentRecord} {s : State} (hn : NoFlips s)
    (hs : s.member.station ≠ .frozen) (h : digestOf (Block.histLen s.block) row.cycle row.age buffer = row.digest) :
    completeTransfer donor row buffer s =
      ((s.withEvid (completedEvid s.block s.agree buffer row.age s.evid)).withAgree (completedAgree s.agree)).withPort
        (raiseAll (completedNotices donor buffer s) s).port := by
  unfold completeTransfer completedEvid completedNotices
  rw [if_neg (not_not.mpr h), reapplyControls_replaceTable _ _ _ hn hs, List.append_assoc]
  generalize carriedEvid s.block s.agree.standing s.agree.carry { s.evid with table := buffer, age := row.age } = v
  generalize segmentNotices s.tracker.cycle .transfer s.evid.table buffer ++
    carriedNotices (Block.nSeg s.block) s.tracker.cycle s.agree.carry buffer = ns
  rw [raiseAll_append ns]
  have hb := raiseAll_config ns s
  generalize raiseAll ns s = y at hb
  have hlive : (setStanding .inStep ((s.withEvid v).withPort y.port)).member.station ≠ .frozen := by
    have hkept : MemberKept s.member ((s.withEvid v).withPort y.port) := ⟨hn, rfl⟩
    rw [(setStanding_memberKept .inStep hkept).2]
    exact hs
  have hblock : y.port.config.getD [] = s.block := by rw [hb]; rfl
  rw [unlessFrozen_live (by exact hs), unlessFrozen_live hlive, endTransfer_inStep donor (by exact hn), withPort_block, hblock]
  exact congrArg (State.withPort _) (raiseAll_port _ rfl)

/-! ## A ROW in its order, or not (R144) -/

section
variable {donor st : Station} {cycle : Option CycleNo} {digest : BitVec 32} {n : Nat} {r : Option RowFrame}
  {b : List SegmentRecord} {row : RowFrame} {s : State}

theorem nextInOrder_iff (nSeg : Nat) : nextInOrder nSeg n row = true ↔ row.first = n ∧ 1 ≤ row.count ∧ row.count ≤ 4 ∧
    row.first + row.count ≤ nSeg + 1 ∧ (row.last = true ↔ row.first + row.count = nSeg + 1) := by
  have hlast : row.last = (row.first + row.count == nSeg + 1) ↔ (row.last = true ↔ row.first + row.count = nSeg + 1) := by
    rw [Bool.eq_iff_iff, beq_iff_eq]
  rw [← hlast]
  unfold nextInOrder rowCapacity
  simp only [Bool.and_eq_true, beq_iff_eq, decide_eq_true_eq, and_assoc]

theorem repeatsRow_iff : repeatsRow row r = true ↔ ∃ p, r = some p ∧ row.first = p.first ∧ row.count = p.count ∧
    row.records = p.records ∧ row.last = p.last := by
  cases r with
  | none => simp [repeatsRow]
  | some p => simp [repeatsRow, and_assoc]

theorem takeRow_order (ht : s.agree.transfer = .awaiting donor cycle digest n r b)
    (ho : nextInOrder (Block.nSeg s.block) n row = false) : takeRow donor cycle digest n b row s =
      (s.withAgree (transferGone s.agree)).withPort (raiseAll [⟨s.tracker.cycle, stNo donor, .transfer (.abandoned .order)⟩] s).port := by
  unfold takeRow
  rw [ho]
  exact abandonTransfer_awaiting .order ht

theorem takeRow_more (ho : nextInOrder (Block.nSeg s.block) n row = true) (hl : row.last = false) :
    takeRow donor cycle digest n b row s = s.withAgree { s.agree with
      transfer := .awaiting donor cycle digest (n + row.count) (some row) (b ++ row.records) } := by
  unfold takeRow
  rw [if_pos ho, hl]
  rfl

theorem takeRow_mismatch (ho : nextInOrder (Block.nSeg s.block) n row = true) (hl : row.last = true)
    (hd : digestOf (Block.histLen s.block) row.cycle row.age (b ++ row.records) ≠ row.digest) :
    takeRow donor cycle digest n b row s = (s.withAgree (transferGone s.agree)).withPort
      (raiseAll [⟨s.tracker.cycle, stNo donor, .transfer (.abandoned .mismatch)⟩] s).port := by
  unfold takeRow
  rw [if_pos ho, hl]
  dsimp only
  unfold completeTransfer
  rw [if_pos rfl, if_pos (by exact hd), abandonTransfer_awaiting .mismatch (by rfl)]
  exact congrArg (State.withPort _) (raiseAll_port _ rfl)

theorem takeRow_completes (hn : NoFlips s) (hs : s.member.station ≠ .frozen) (ho : nextInOrder (Block.nSeg s.block) n row = true)
    (hl : row.last = true) (hd : digestOf (Block.histLen s.block) row.cycle row.age (b ++ row.records) = row.digest) :
    takeRow donor cycle digest n b row s =
      ((s.withEvid (completedEvid s.block s.agree (b ++ row.records) row.age s.evid)).withAgree (completedAgree s.agree)).withPort
        (raiseAll (completedNotices donor (b ++ row.records) s) s).port := by
  unfold takeRow
  rw [if_pos ho, hl]
  dsimp only
  rw [if_pos rfl, completeTransfer_matching (by exact hn) (by exact hs) (by exact hd)]
  exact congrArg (State.withPort _) (raiseAll_port _ rfl)

/-! ## The frame (R144, R149) -/

theorem rowFrame_ignored {p : List Byte} (hrow : row = rowOf (Block.histLen s.block) p)
    (h : (∀ d c v n r b, s.agree.transfer ≠ .awaiting d c v n r b) ∨
      ∃ d c v n r b, s.agree.transfer = .awaiting d c v n r b ∧
        (st ≠ d ∨ row.cycle ≠ c ∨ row.digest ≠ v ∨ repeatsRow row r = true)) :
    rowFrame st false p s = ignoreRow s := by
  unfold rowFrame
  rw [if_neg Bool.false_ne_true]
  obtain h | ⟨d, c, v, n, r, b, ht, h⟩ := h
  · split
    next ht => exact absurd ht (h _ _ _ _ _ _)
    next => rfl
  · rw [ht]
    dsimp only
    rw [← hrow]
    by_cases hst : st ≠ d
    · rw [if_pos hst]
    · by_cases hid : row.cycle ≠ c ∨ row.digest ≠ v
      · rw [if_neg hst, if_pos hid]
      · rw [if_neg hst, if_neg hid, if_pos]
        tauto

theorem rowFrame_taken {p : List Byte} (hn : NoFlips s) (hrow : row = rowOf (Block.histLen s.block) p)
    (ht : s.agree.transfer = .awaiting st row.cycle row.digest n r b) (hr : repeatsRow row r = false) :
    rowFrame st false p s = takeRow st row.cycle row.digest n b row s := by
  unfold rowFrame
  rw [if_neg Bool.false_ne_true, ht]
  dsimp only
  rw [← hrow, if_neg (fun h => h rfl), if_neg (by simp), hr, usingConfig_sound hn]
  rfl

/-- A ROW has no effect as own echo, and outside RUNNING (R149). -/
theorem handToBlocks_row_none {f : RxFrame} (h : s.member.station ≠ .running ∨ f.own = true) : handToBlocks .row st f s = s := by
  unfold handToBlocks rowFrame
  dsimp only
  split
  next hrun =>
    rw [if_pos (h.resolve_left (not_not.mpr hrun))]
  next => rfl

theorem handToBlocks_row_running {f : RxFrame} (h : s.member.station = .running) (ho : f.own = false) :
    handToBlocks .row st f s = rowFrame st false f.payload s := by
  unfold handToBlocks
  dsimp only
  rw [if_pos h, ho]

/-- A ROW writes the Evidence and Agreement Units and the Board Port alone. -/
def WritesTables (s t : State) : Prop := ∃ v a p, t = ((s.withEvid v).withAgree a).withPort p

theorem takeRow_writesTables (hn : NoFlips s) (hs : s.member.station ≠ .frozen)
    (ht : s.agree.transfer = .awaiting donor cycle digest n r b) : WritesTables s (takeRow donor cycle digest n b row s) := by
  cases ho : nextInOrder (Block.nSeg s.block) n row with
  | false =>
    rw [takeRow_order ht ho]
    exact ⟨s.evid, _, _, rfl⟩
  | true =>
    cases hl : row.last with
    | false =>
      rw [takeRow_more ho hl]
      exact ⟨s.evid, { s.agree with transfer := .awaiting donor cycle digest (n + row.count) (some row) (b ++ row.records) },
        s.port, rfl⟩
    | true =>
      by_cases hd : digestOf (Block.histLen s.block) row.cycle row.age (b ++ row.records) = row.digest
      · rw [takeRow_completes hn hs ho hl hd]
        exact ⟨_, _, _, rfl⟩
      · rw [takeRow_mismatch ho hl hd]
        exact ⟨s.evid, _, _, rfl⟩

theorem rowFrame_writesTables (p : List Byte) (hn : NoFlips s) (hs : s.member.station ≠ .frozen) :
    WritesTables s (rowFrame st false p s) := by
  have hignored : WritesTables s (ignoreRow s) := ⟨s.evid, (ignoreRow s).agree, s.port, rfl⟩
  unfold rowFrame
  rw [if_neg Bool.false_ne_true]
  split
  next htr =>
    dsimp only
    split
    next => exact hignored
    next =>
      split
      next => exact hignored
      next =>
        split
        next => exact hignored
        next =>
          rw [usingConfig_sound hn]
          exact takeRow_writesTables hn hs htr
  next => exact hignored

end

section
variable {st : Station} {own : Nat} {v : Evidence} {b : List Byte} {a : Agreement} {records : List SegmentRecord} {age : Nat}

theorem completedEvid_kept : (completedEvid b a records age v).table = carriedTable (Block.nSeg b) a.carry records ∧
    (completedEvid b a records age v).age = age ∧ (completedEvid b a records age v).applied = v.applied ∧
    (completedEvid b a records age v).counts =
      { v.counts with controls := a.carry.foldl (fun k _ => min (k + 1) 65535) v.counts.controls } := by
  obtain ⟨htable, hage, happlied, hcounts⟩ := inStepEvid_kept a.standing (Block.stopCount b)
    (carriedEvid b a.standing a.carry { v with table := records, age := age })
  obtain ⟨ctable, cage, capplied, ccounts⟩ := carriedEvid_fields b a.standing a.carry { v with table := records, age := age }
  exact ⟨htable.trans ctable, hage.trans cage, happlied.trans capplied, hcounts.trans ccounts⟩

/-- A station whose standing has become IN-STEP has its outputs released and derived (R128). -/
theorem completedEvid_released (h : a.standing ≠ .inStep) : (completedEvid b a records age v).hold = none ∧
    (completedEvid b a records age v).warn = warnLevel (completedEvid b a records age v).table ∧
    (completedEvid b a records age v).stop = stopLevel (Block.stopCount b) (completedEvid b a records age v).table := by
  unfold completedEvid inStepEvid
  rw [if_neg h]
  exact ⟨rfl, rfl, rfl⟩

end

/-- Settles O44: what the ROW is ignored for, and what it makes of the transfer. -/
theorem rowFramesAreTaken : Obligations.RowFramesAreTaken := by
  refine ⟨fun m s l f st s0 row h h0 hrow => ?_, fun nSeg n row => nextInOrder_iff nSeg, fun row r => repeatsRow_iff⟩
  subst h0
  obtain ⟨u, hexec, hfound⟩ := handed_take h (by decide) (by decide)
  obtain ⟨hS, hw, -⟩ := h
  have hblock := hfound.block
  obtain ⟨⟨htracker, hcoin, hevid, hstation⟩, ⟨hagree, hcoup, hchannels, hport⟩, -, ⟨hnumber, -⟩, hn, -⟩ := hfound
  have hlive : u.member.station ≠ .frozen := by rw [hstation]; exact frameFinds_live hS.noFlips hw
  have happlied := hevid.trans (frameFinds_evid (m := m) (f := f) (st := st) hS.noFlips)
  have hown : u.ownNo = s.ownNo := by unfold State.ownNo; rw [hnumber]
  have hraise : ∀ ns, (raiseAll ns u).port = (raiseAll (presentAgain st s ++ ns) s).port := fun ns => by
    rw [raiseAll_append]
    exact raiseAll_port ns hport
  have hcounts : u.evid.counts = s.evid.counts := by rw [happlied]
  have htable : u.evid.table = s.evid.table := by rw [happlied]
  rw [← hblock] at hrow ⊢
  rw [← hagree, ← htracker, ← hcoin, ← hevid, ← hstation, ← hcoup, ← hchannels, ← hcounts, ← htable, ← hown]
  by_cases hnone : u.member.station ≠ .running ∨ f.own = true
  · rw [handToBlocks_row_none hnone] at hexec
    refine ⟨_, hexec, rfl, rfl, rfl, rfl, fun _ => ⟨rfl, rfl, hport⟩, fun hrun hpeer => ?_⟩
    rw [hrun, hpeer] at hnone
    simp at hnone
  · rw [not_or, not_not, Bool.not_eq_true] at hnone
    obtain ⟨hrun, hpeer⟩ := hnone
    rw [handToBlocks_row_running hrun hpeer] at hexec
    obtain ⟨v, a, p, hwrites⟩ := rowFrame_writesTables (st := st) f.payload hn hlive
    refine ⟨_, hexec, ?_, ?_, ?_, ?_, fun hother => ?_, fun _ _ => ⟨fun hign => ?_, fun n r b ht hr => ⟨fun ho => ?_, fun ho hl => ?_,
      fun ho hl hd => ?_, fun ho hl hd => ?_⟩⟩⟩
    · rw [hwrites]; rfl
    · rw [hwrites]; rfl
    · rw [hwrites]; rfl
    · rw [hwrites]; rfl
    · rw [hrun, hpeer] at hother
      simp at hother
    · rw [rowFrame_ignored hrow hign]
      exact ⟨rfl, hport, rfl⟩
    · rw [rowFrame_taken hn hrow ht hr, takeRow_order ht ho]
      exact ⟨rfl, rfl, hraise _⟩
    · rw [rowFrame_taken hn hrow ht hr, takeRow_more ho hl]
      exact ⟨rfl, hport, rfl⟩
    · rw [rowFrame_taken hn hrow ht hr, takeRow_mismatch ho hl hd]
      exact ⟨rfl, rfl, hraise _⟩
    · rw [rowFrame_taken hn hrow ht hr, takeRow_completes hn hlive ho hl hd]
      have hnotices := hraise (completedNotices st (b ++ row.records) u)
      have hconfig := raiseAll_config (completedNotices st (b ++ row.records) u) u
      generalize (raiseAll (completedNotices st (b ++ row.records) u) u).port = p at hnotices hconfig
      obtain ⟨ktable, kage, kapplied, kcounts⟩ := completedEvid_kept (v := u.evid) (b := u.block) (a := u.agree)
        (records := b ++ row.records) (age := row.age)
      refine ⟨ktable, kage, kapplied, kcounts, rfl, fun hstanding => ?_, ?_⟩
      · obtain ⟨khold, kwarn, kstop⟩ := completedEvid_released (v := u.evid) (b := u.block) (records := b ++ row.records)
          (age := row.age) hstanding
        refine ⟨khold, kwarn, kstop.trans ?_⟩
        change _ = stopLevel (Block.stopCount (p.config.getD [])) _
        rw [hconfig]
        rfl
      · refine hnotices.trans ?_
        unfold completedNotices inStepNotices
        simp only [List.append_assoc]

end Sys2Proof.Machine
end

section
/-! PROOFS. The transfer lead's expiry with sound stores (R140 to R142): the next ROW asked for, or the transfer aborted. -/

namespace Sys2Proof.Machine

section
variable {m : Moment} {s : State} {n : Nat} {snap : Snapshot}

/-- The lead has run out: the next ROW is sent (R141). -/
theorem exec_transferLeadExpiry_due {d : Tag} (hS : Sound m s) (hw : s.atWork = true)
    (ht : s.agree.transfer = .sending n (.lead d)) (hd : reached m.tag d = true) :
    exec (.transferLeadExpiry m) s = .next (sendRow n (s.withNow m.tag)) := by
  have hdue : leadDue (s.withNow m.tag) = some n := by
    have hcond : ((s.withNow m.tag).atWork && reached (s.withNow m.tag).now d) = true := by
      rw [withNow_now, hd, Bool.and_true]
      exact hw
    unfold leadDue
    rw [withNow_agree, ht]
    exact if_pos hcond
  rw [exec_transferLeadExpiry_quiet m s hS.noFaultToFind, hdue]

/-- No ROW is taken while the queue is full or holds one (R46). -/
theorem canRequest_row_refused (h : 12 ≤ s.link.queue.length ∨ ∃ x ∈ s.link.queue, x.kind = .row) : canRequest .row s = false := by
  unfold canRequest queueCapacity
  rw [Bool.and_eq_false_iff]
  obtain hfull | ⟨x, hx, hrow⟩ := h
  · exact Or.inl (decide_eq_false hfull.not_gt)
  · have hany : (s.link.queue.any fun d => d.kind == .row) = true := List.any_eq_true.mpr ⟨x, hx, by rw [hrow]; rfl⟩
    rw [hany]
    exact Or.inr rfl

/-- A ROW that is refused ends the transfer (R142). -/
theorem sendRow_refused (hn : NoBadWord s) (hsnap : s.agree.snapshot = some snap) (hfull : canRequest .row s = false) :
    sendRow n s = abortTransfer s := by
  have hmake : sendRow n s = usingConfig [0x1A] (makeRow (rowOfSnapshot (s.agree.ownDigest.getD 0) snap n)) s := by
    unfold sendRow
    rw [hsnap]
  rw [hmake, usingConfig_quiet hn, makeRow, usingWords_quiet hn, usingConfig_quiet hn, requestRow, request, hfull]
  rfl

end

/-- Settles O43: the ROW is taken where the queue has room and no ROW in it, refused otherwise. -/
theorem transferLeadSendsRow : Obligations.TransferLeadSendsRow := by
  intro m s n d snap row hS hw ht hd hsnap hrow
  have hn : NoBadWord (s.withNow m.tag) := hS.noFaultToFind.noBadWord
  rw [exec_transferLeadExpiry_due hS hw ht hd]
  refine ⟨fun hroom hnone => ?_, fun hfull => ?_⟩
  · obtain ⟨hagree, hqueue⟩ := sendRow_quiet hn (by exact hsnap) (canRequest_row hroom hnone) row hrow
    rw [withNow_now] at hqueue
    have htold := sendRow_told n (r := s) (s := s.withNow m.tag) ⟨hS.noFaultToFind.2.2, rfl⟩
    exact ⟨_, rfl, hagree, hqueue, htold.evid, htold.tracker, htold.member⟩
  · rw [sendRow_refused hn (by exact hsnap) (canRequest_row_refused hfull)]
    rfl

end Sys2Proof.Machine
end

section
/-! PROOFS. The DIGEST of a close with sound stores (R132 to R135): the descriptors that the close withdraws, the snapshot and its digest, the
DIGEST descriptor, and what the rest of a closing command leaves of them. -/

namespace Sys2Proof.Machine

/-! ## The snapshot and its DIGEST (R132 to R135) -/

theorem canRequest_digest (s : State) : canRequest .digest s = decide (s.link.queue.length < 12) := by
  unfold canRequest queueCapacity
  rw [show ((FrameKind.digest == .row || FrameKind.digest == .control) = false) from rfl, Bool.false_and, Bool.not_false, Bool.and_true]

/-- The Agreement Unit once the digest `v` of the snapshot `snap` has been taken at `tag`, with `waiting` descriptors in the transmit queue
and a digest window of this length (R132 to R135). -/
def digestedAgree (snap : Snapshot) (v : BitVec 32) (waiting : Nat) (tag length : Tag) (a : Agreement) : Agreement :=
  { a with
    snapshot := some snap, ownDigest := some v, window := some ⟨tag + length, tag⟩
    counts := { a.counts with
      digestsNotSent := if waiting < 12 then a.counts.digestsNotSent else raised a.counts.digestsNotSent } }

/-- The Link Unit once a DIGEST with this payload has been asked for at `tag` (R46, R134). -/
def digestedLink (tag : Tag) (payload : List Byte) (l : Link) : Link :=
  if l.queue.length < 12 then { l with queue := l.queue ++ [⟨l.nextRef, .digest, payload, tag⟩], nextRef := l.nextRef + 1 } else l

theorem digestedLink_queue (tag : Tag) (payload : List Byte) (l : Link) : (digestedLink tag payload l).queue =
    l.queue ++ if l.queue.length < 12 then [⟨l.nextRef, .digest, payload, tag⟩] else [] := by
  unfold digestedLink
  split
  next => rfl
  next => exact (List.append_nil _).symm

/-- The DIGEST apart, the Link Unit is as before. -/
theorem digestedLink_counts (tag : Tag) (payload : List Byte) (l : Link) :
    (digestedLink tag payload l).dropped = l.dropped ∧ (digestedLink tag payload l).lanes = l.lanes := by
  unfold digestedLink
  split
  next => exact ⟨rfl, rfl⟩
  next => exact ⟨rfl, rfl⟩

/-- The snapshot of the table that `s` holds (R132). -/
def tableSnapshot (closed : Option CycleNo) (s : State) : Snapshot := ⟨closed, s.evid.age, s.evid.table⟩

/-- The digest of that snapshot (R133). -/
def tableDigest (closed : Option CycleNo) (s : State) : BitVec 32 := digestOf (Block.histLen s.block) closed s.evid.age s.evid.table

/-- The station `s` with the snapshot taken, the DIGEST asked for and the digest window running; the selection has yet to follow. -/
def digestAsked (closed : Option CycleNo) (s : State) : State :=
  (s.withAgree (digestedAgree (tableSnapshot closed s) (tableDigest closed s) s.link.queue.length s.now (digestWindowLength s) s.agree)).withLink
    (digestedLink s.now (digestPayload (tableSnapshot closed s) (tableDigest closed s) s) s.link)

theorem SelectedFrom.refl (x : State) : SelectedFrom x x := ⟨x.link.current, x.channels.queue, x.freeCount, rfl⟩

theorem SelectedFrom.trans {x y z : State} (h : SelectedFrom x y) (k : SelectedFrom y z) : SelectedFrom x z := by
  obtain ⟨_, _, _, rfl⟩ := h
  obtain ⟨current, queue, count, rfl⟩ := k
  exact ⟨current, queue, count, rfl⟩

theorem SelectedFrom.link {x y : State} (h : SelectedFrom x y) : y.link = { x.link with current := y.link.current } := by
  obtain ⟨_, _, _, rfl⟩ := h
  rfl

theorem SelectedFrom.lost {x y : State} (h : SelectedFrom x y) : y.channels.lost = x.channels.lost := by
  obtain ⟨_, _, _, rfl⟩ := h
  rfl

/-- A DIGEST is taken into the queue, or counted not sent (R134). -/
theorem requestDigest_selects (snap : Snapshot) (v : BitVec 32) {s : State} (hn : NoFlips s) : SelectedFrom
    ((s.withAgree { s.agree with counts := { s.agree.counts with
      digestsNotSent := if s.link.queue.length < 12 then s.agree.counts.digestsNotSent else raised s.agree.counts.digestsNotSent } }).withLink
        (digestedLink s.now (digestPayload snap v s) s.link))
    (requestDigest snap v s) := by
  unfold requestDigest digestedLink
  rw [request_sound _ _ _ _ (by exact hn), canRequest_digest]
  by_cases hroom : s.link.queue.length < 12
  · rw [decide_eq_true hroom, if_pos hroom, if_pos hroom]
    exact selectFrame_from _
  · rw [decide_eq_false hroom, if_neg hroom, if_neg hroom]
    exact SelectedFrom.refl _

/-- The snapshot of the table and its digest are stored (R132, R133). -/
def snapshotTaken (closed : Option CycleNo) (s : State) : State :=
  s.withAgree { s.agree with snapshot := some (tableSnapshot closed s), ownDigest := some (tableDigest closed s) }

theorem takeSnapshot_eq (closed : Option CycleNo) {s : State} (hn : NoFlips s) : takeSnapshot closed s =
    (requestDigest (tableSnapshot closed s) (tableDigest closed s) (snapshotTaken closed s)).unlessFrozen
      (usingConfig [0x22] startDigestWindow) := by
  have hstore : storeSnapshot closed s = s.withAgree { s.agree with snapshot := some (tableSnapshot closed s) } :=
    rewrite_sound (by exact hn) _
  unfold takeSnapshot
  rw [hstore, usingConfig_sound (by exact hn)]
  rfl

/-- The snapshot is taken and digested, the DIGEST asked for, and the digest window started (R132 to R135). -/
theorem takeSnapshot_selects (closed : Option CycleNo) {s : State} (hn : NoFlips s) (hs : s.member.station ≠ .frozen) :
    SelectedFrom (digestAsked closed s) (takeSnapshot closed s) := by
  have hreq := requestDigest_selects (tableSnapshot closed s) (tableDigest closed s) (s := snapshotTaken closed s) hn
  rw [takeSnapshot_eq closed hn, unlessFrozen_live (by rw [hreq.member]; exact hs),
    usingConfig_sound (by unfold NoFlips; rw [hreq.fault]; exact hn)]
  generalize requestDigest _ _ _ = y at hreq
  obtain ⟨current, queue, count, rfl⟩ := hreq
  exact ⟨current, queue, count, rfl⟩

/-! ## The descriptors that a close withdraws (R47, R95, R132) -/

/-- Whether a close leaves this descriptor in the queue: it has been selected, and not for a HIT frame that the close drops, or it is
neither an EVENT of the closed cycle nor the ROW of the transfer. -/
def closeKeeps (s : State) (d : Descriptor) : Bool :=
  isSelected d.ref (s.withLink (cutLink s.link)) ||
    !(s.coin.ownerRefs.contains d.ref || (pendingRefs s.coin.pendingGroups).contains d.ref || isRowOf s.agree d.ref)

/-- The station `u` in which the close of the cycle of `s` takes its snapshot. -/
structure DigestsFrom (s u : State) : Prop where
  agree : u.agree = cutAgreement s.agree
  link : u.link = { cutLink s.link with queue := s.link.queue.filter (closeKeeps s) }
  late : u.coin.counts.late = s.coin.counts.late
  lost : u.channels.lost = s.channels.lost
  clock : u.clock = s.clock
  config : u.port.config = s.port.config

theorem agreementClose_selects (closed : Option CycleNo) {s : State} (hn : NoFlips s) (hs : s.member.station ≠ .frozen) :
    ∃ u, SameElsewhere s u ∧ u.agree = cutAgreement s.agree ∧
      u.link = { s.link with queue := s.link.queue.filter fun d => isSelected d.ref s || !isRowOf s.agree d.ref } ∧
      SelectedFrom (digestAsked closed u) (agreementClose closed s) := by
  unfold agreementClose
  dsimp only
  generalize hu : State.withAgree _ _ = u
  obtain ⟨hsame, -, hagree, -, hlink⟩ := cutTransfer_fields hn hu
  obtain ⟨⟨-, -, hmem, -⟩, -, hflips, -⟩ := id hsame
  rw [usingConfig_sound hflips]
  unfold copyTable
  rw [usingWords_sound hflips]
  exact ⟨u, hsame, hagree, hlink, takeSnapshot_selects closed hflips (by rw [hmem]; exact hs)⟩

theorem closeTables_selects (closed : Option CycleNo) (kind : CloseKind) {s : State} (hn : NoFlips s) (hs : s.member.station ≠ .frozen) :
    ∃ u, SameElsewhere s u ∧ u.agree = cutAgreement s.agree ∧
      u.link = { s.link with queue := s.link.queue.filter fun d => isSelected d.ref s || !isRowOf s.agree d.ref } ∧
      SelectedFrom (digestAsked closed u) (closeTables closed kind s) := by
  obtain ⟨hsame, hlink⟩ := evidenceClose_same closed kind hn hs
  obtain ⟨-, hagree, -⟩ := evidenceClose_fields closed kind hn hs
  unfold closeTables
  generalize evidenceClose closed kind s = c at hsame hlink hagree
  obtain ⟨⟨-, -, hmem, -⟩, -, hflips, -⟩ := id hsame
  have hlive : c.member.station ≠ .frozen := by rw [hmem]; exact hs
  rw [unlessFrozen_live hlive]
  obtain ⟨u, husame, huagree, hulink, hsel⟩ := agreementClose_selects closed hflips hlive
  refine ⟨u, hsame.trans husame, huagree.trans (congrArg _ hagree), hulink.trans ?_, hsel⟩
  unfold isSelected
  rw [hlink, hagree]

/-- The two withdrawals of a close, one after the other. -/
theorem filter_closeKeeps (s : State) : (s.link.queue.filter fun d => isSelected d.ref (s.withLink (cutLink s.link)) ||
      !((pendingRefs s.coin.pendingGroups).contains d.ref || s.coin.ownerRefs.contains d.ref)).filter
        (fun d => isSelected d.ref (s.withLink (cutLink s.link)) || !isRowOf s.agree d.ref) = s.link.queue.filter (closeKeeps s) := by
  rw [List.filter_filter]
  refine List.filter_congr fun d _ => ?_
  unfold closeKeeps
  rw [Bool.or_comm (List.contains s.coin.ownerRefs d.ref), Bool.not_or (_ || _) (isRowOf _ _), Bool.or_and_distrib_left, Bool.and_comm]

theorem cutLink_queue (l : Link) : (cutLink l).queue = l.queue ∧ (cutLink l).nextRef = l.nextRef := by
  unfold cutLink
  split
  next =>
    split
    next =>
      split
      next => exact ⟨rfl, rfl⟩
      next => exact ⟨rfl, rfl⟩
    next => exact ⟨rfl, rfl⟩
  next => exact ⟨rfl, rfl⟩

theorem closeCycle_digests (cause : CloseCause) {s : State} (hn : NoFlips s) (hs : s.member.station ≠ .frozen) :
    ∃ u, DigestsFrom s u ∧ SelectedFrom (digestAsked s.tracker.cycle u) (closeCycle cause s) := by
  unfold closeCycle
  dsimp only
  obtain ⟨hport, hconf⟩ := cycleFlagNotice_eq s.tracker cause (s.withTracker (closedTracker s.tracker))
  generalize cycleFlagNotice s.tracker cause (s.withTracker (closedTracker s.tracker)) = a at hport hconf
  have hb := closeHits_eq a
  have hbn : NoFlips (closeHits a) := (closeHits_calm _ (Calm.refl (by rw [hport]; exact hn))).noFlips
  generalize closeHits a = b at hb hbn
  have hbs : b.member.station ≠ .frozen := by rw [hb, hport]; exact hs
  obtain ⟨u, ⟨⟨-, hch, -, hcoin, -⟩, -, hun, hclock, hcfg, -⟩, hagree, hlink, hsel⟩ :=
    closeTables_selects s.tracker.cycle (closeKind s.tracker.disordered s.tracker.abandoned) hbn hbs
  refine ⟨u, ⟨?_, ?_, ?_, ?_, ?_, ?_⟩, ?_⟩
  · rw [hagree, hb, hport]; rfl
  · rw [← filter_closeKeeps, ← (cutLink_queue s.link).1, hlink, hb, hport]; rfl
  · rw [hcoin, hb, hport]; rfl
  · rw [hch, hb, hport]; rfl
  · rw [hclock, hb, hport]; rfl
  · rw [hcfg, hb]; exact hconf
  · rw [selectNext_sound (by unfold NoFlips; rw [hsel.fault]; exact hun)]
    exact hsel.trans (selectFrame_from _)

/-! ## The rest of a closing command -/

/-- What each closing command does after the close itself (R3, R10, R12). -/
theorem exec_closes_cases {m : Moment} {s : State} {cmd : Instr} {cause : CloseCause} {dis ab : Bool}
    (h : ClosesNow m s cmd cause dis ab) :
    (cause = .settle ∧ exec cmd s = .next (idleIfExpired (closeCycle cause (closingState m dis ab s)))) ∨
    (cause = .cyc ∧ exec cmd s = .next (startCycle (closeCycle cause (closingState m dis ab s)))) ∨
    (cause = .cycleTimer ∧ exec cmd s = .next (goIdle (closeCycle cause (closingState m dis ab s)))) := by
  obtain ⟨hS, hw, ho, rfl, hcmd⟩ := h
  rcases hcmd with ⟨d, hs, hd, rfl, rfl, rfl⟩ | ⟨rfl, rfl, rfl⟩ | ⟨d, hs, hd, hp, rfl, rfl, rfl⟩
  · exact Or.inl ⟨rfl, exec_settleTimerExpiry_due hS hw ho hs hd⟩
  · exact Or.inr (Or.inl ⟨rfl, (exec_cycRising_atWork hS hw).trans
      (congrArg (fun u => Host.Outcome.next (startCycle u)) (earlyClose_open (s := s.withNow m.tag) ho))⟩)
  · exact Or.inr (Or.inr ⟨rfl, (exec_cycleTimerExpiry_due hS hw hs hd).trans
      (congrArg _ (cycleExpired_closes (s := s.withNow m.tag) hS.noFlips (atWork_not_frozen hw) ho hp))⟩)

/-- The end of the slot takes its QUEUED descriptor out of the transmit queue, unless that has been selected (R47, R153). -/
theorem endSlotAtCyc_link {s : State} (hn : NoFlips s) : (endSlotAtCyc s).link = { s.link with
    queue := s.link.queue.filter fun d => !(s.coup.slot == .queued d.ref && !isSelected d.ref s) } := by
  have hrelease : ∀ x : State, NoFlips x → (releasePulse x).link = x.link := fun x hx => by
    obtain ⟨-, heq⟩ | ⟨c, -, heq⟩ := releasePulse_cases hx
    · rw [heq]
    · rw [heq]; exact (releaseChannel_touches c hx).link
  have hkept : ∀ {slot : Slot}, s.coup.slot = slot → (∀ r, slot ≠ .queued r) →
      s.link = { s.link with queue := s.link.queue.filter fun d => !(s.coup.slot == .queued d.ref && !isSelected d.ref s) } := by
    intro slot h hq
    have hself : (s.link.queue.filter fun d => !(s.coup.slot == .queued d.ref && !isSelected d.ref s)) = s.link.queue :=
      List.filter_eq_self.mpr fun d _ => by rw [h, beq_eq_false_iff_ne.mpr (hq d.ref)]; rfl
    rw [hself]
  unfold endSlotAtCyc
  split
  next h => exact hkept h nofun
  next h => exact hkept h nofun
  next h => exact hkept h nofun
  next ref h =>
    rw [hrelease _ (by rw [withdraw_eq]; exact hn), withdraw_eq]
    have hf : (s.link.queue.filter fun d => isSelected d.ref s || d.ref != ref) =
        s.link.queue.filter fun d => !(s.coup.slot == .queued d.ref && !isSelected d.ref s) := by
      refine List.filter_congr fun d _ => ?_
      rw [h, Bool.not_and, Bool.not_not, Bool.or_comm]
      by_cases hd : d.ref = ref
      · subst hd; simp
      · have hq : (Slot.queued ref == .queued d.ref) = false := by simpa using Ne.symm hd
        rw [hq, bne_iff_ne.mpr hd]
        rfl
    rw [← hf]
    rfl
  next fire h => rw [hrelease _ (by exact hn)]; exact hkept h nofun
  next h => exact hkept h nofun

/-- The new cycle of a CYC edge changes the transmit queue by the end of the slot alone (R153). -/
theorem startCycle_link {u : State} (hn : NoFlips u) (hs : u.member.station ≠ .frozen) : (startCycle u).link = { u.link with
    queue := u.link.queue.filter fun d => !(u.coup.slot == .queued d.ref && !isSelected d.ref u) } := by
  have hv := enterFeed_entered hn
  unfold startCycle
  generalize enterPhase .feed (countCycle u) = v at hv
  have he := endSlotAtCyc_ended hv.noFlips
  have hlink := endSlotAtCyc_link hv.noFlips
  unfold isSelected at hlink ⊢
  rw [hv.link, hv.coup] at hlink
  rw [unlessFrozen_live (by rw [hv.member]; exact hs)]
  unfold couplingCyc
  rw [unlessFrozen_live (by rw [he.member, hv.member]; exact hs),
    abandonWindow_sound (by unfold NoFlips; rw [he.fault]; exact hv.noFlips)]
  exact hlink

/-- The rest of a closing command leaves the Link Unit alone, but for the end of the slot at a CYC edge. -/
theorem exec_closes_rest {m : Moment} {s c : State} {cmd : Instr} {cause : CloseCause} {dis ab : Bool}
    (h : ClosesNow m s cmd cause dis ab) (hc : c = closeCycle cause (closingState m dis ab s)) : ∃ t, exec cmd s = .next t ∧
      KeepsClose c t ∧ TablesKept c t ∧ t.link = { c.link with
        queue := c.link.queue.filter fun d => !(cause == .cyc && s.coup.slot == .queued d.ref && !isSelected d.ref c) } := by
  obtain ⟨hS, hw, -⟩ := id h
  have hlive : (closingState m dis ab s).member.station ≠ .frozen := atWork_not_frozen hw
  have hcl := closeCycle_closed cause (s := closingState m dis ab s) hS.noFlips hlive
  obtain ⟨hevid, -⟩ := closeCycle_evidence cause (s := closingState m dis ab s) hS.noFlips hlive rfl
  have hcases := exec_closes_cases h
  rw [← hc] at hcl hevid hcases
  have hself : TablesKept c c := ⟨hcl.noFlips, rfl, rfl⟩
  have hnotCyc : cause ≠ .cyc → c.link = { c.link with
      queue := c.link.queue.filter fun d => !(cause == .cyc && s.coup.slot == .queued d.ref && !isSelected d.ref c) } := fun hne => by
    have hall : (c.link.queue.filter fun d => !(cause == .cyc && s.coup.slot == .queued d.ref && !isSelected d.ref c)) = c.link.queue :=
      List.filter_eq_self.mpr fun d _ => by rw [beq_eq_false_iff_ne.mpr hne]; rfl
    rw [hall]
  have hidle : (goIdle c).link = c.link := by rw [goIdle_sound hcl.noFlips]; rfl
  obtain ⟨rfl, hex⟩ | ⟨rfl, hex⟩ | ⟨rfl, hex⟩ := hcases
  · refine ⟨_, hex, idleIfExpired_keepsClose hcl.noFlips, ?_⟩
    unfold idleIfExpired
    split
    next => exact ⟨goIdle_tablesKept hself, hidle.trans (hnotCyc nofun)⟩
    next => exact ⟨hself, hnotCyc nofun⟩
  · have hclive : c.member.station ≠ .frozen := by rw [hcl.member]; exact hlive
    refine ⟨_, hex, startCycle_keepsClose hcl.noFlips hclive, startCycle_tablesKept hself ?_, ?_⟩
    · rw [hevid, closedEvid_applied]
    · rw [startCycle_link hcl.noFlips hclive, hcl.coup]
      rfl
  · exact ⟨_, hex, goIdle_keepsClose hcl.noFlips, goIdle_tablesKept hself, hidle.trans (hnotCyc nofun)⟩

/-! ## The obligation -/

/-- A current frame goes on through a close, unless it is a HIT frame waiting for its gap (R53). -/
theorem isSelected_cutLink (r : Nat) (s : State) : isSelected r (s.withLink (cutLink s.link)) =
    match s.link.current with
    | some c => c.ref == some r && !(c.kind == .hit && (match c.attempt with | .waiting _ => true | _ => false))
    | none => false := by
  unfold isSelected
  rw [withLink_link]
  cases hc : s.link.current with
  | none =>
    have hcut : cutLink s.link = s.link := by unfold cutLink; rw [hc]
    rw [hcut, hc]
  | some c =>
    by_cases hk : c.kind = .hit
    · cases ha : c.attempt with
      | waiting due =>
        rw [cutLink_waiting hc hk ha]
        simp [hk, ha]
      | transmitting stamp =>
        rw [cutLink_transmitting hc hk ha]
        simp [ha]
    · rw [cutLink_other hc hk, hc]
      simp [hk]

/-- The window that a close cuts is counted where one was running (R132, R148). -/
theorem cutAgreement_eq (a : Agreement) : cutAgreement a = { a with
    window := none, transfer := .idle, carry := [], carryOverflow := false
    counts := { a.counts with
      cut := if a.window = none then a.counts.cut else min (a.counts.cut + 1) 65535
      abandoned := match a.transfer with
        | .awaiting .. => min (a.counts.abandoned + 1) 65535
        | _ => a.counts.abandoned } } := by
  unfold cutAgreement
  cases a.window <;> rfl

/-- Settles O11: the station in which the close asks for its DIGEST, and the rest of the closing command. -/
theorem closesTakeSnapshotAndDigest : Obligations.ClosesTakeSnapshotAndDigest := by
  intro m s cmd cause dis ab kept digest h hkept
  obtain ⟨t, hex, hrest, ⟨-, hevid, hagree⟩, hlink⟩ := exec_closes_rest h rfl
  obtain ⟨hS, hw, -⟩ := h
  obtain ⟨u, hu, hsel⟩ := closeCycle_digests cause (s := closingState m dis ab s) hS.noFlips (atWork_not_frozen hw)
  have hcl := closeCycle_closed cause (s := closingState m dis ab s) hS.noFlips (atWork_not_frozen hw)
  generalize closeCycle cause (closingState m dis ab s) = c at hrest hevid hagree hlink hsel hcl
  have hqueue : u.link.queue = kept := by
    rw [hu.link, hkept]
    refine List.filter_congr fun d _ => ?_
    unfold closeKeeps
    rw [isSelected_cutLink, pendingRefs_contains]
    rfl
  have hnow : u.now = m.tag := (congrArg (BitVec.ofNat 32) hu.clock).trans (withNow_now s m.tag)
  have hblock : u.block = s.block := by unfold State.block; rw [hu.config]; rfl
  have huevid : u.evid = t.evid := (hevid.trans hsel.evid).symm
  have hnext : u.link.nextRef = s.link.nextRef := by rw [hu.link]; exact (cutLink_queue s.link).2
  refine ⟨t, hex, fun hdigest => ?_⟩
  have hv : tableDigest s.tracker.cycle u = digest := by unfold tableDigest; rw [hdigest, hblock, huevid]
  have hpayload : digestPayload (tableSnapshot s.tracker.cycle u) digest u =
      be16 (cycleValue s.tracker.cycle) ++ be32 digest ++ be16 t.evid.age ++ [byte (standingCode s.agree.decided)] ++
        be16 t.evid.counts.applied ++ be16 t.evid.counts.stale ++ be16 t.evid.counts.duplicate ++
        be16 t.coin.counts.late ++ be16 t.channels.lost ++ be16 t.link.dropped ++ be16 t.overrunSum := by
    have hdecided : u.agree.decided = s.agree.decided := by rw [hu.agree]; rfl
    have hlate : t.coin.counts.late = u.coin.counts.late := by
      rw [hu.late, hrest.coin (by rw [hcl.coin]; rfl) (by rw [hcl.coin]; rfl), hcl.coin]
      rfl
    have hlost : t.channels.lost = u.channels.lost := by rw [hrest.channels]; exact hsel.lost
    obtain ⟨hdropped, hlanes⟩ := digestedLink_counts u.now
      (digestPayload (tableSnapshot s.tracker.cycle u) (tableDigest s.tracker.cycle u) u) u.link
    have htdropped : t.link.dropped = u.link.dropped := by rw [hlink, hsel.link]; exact hdropped
    have htlanes : t.link.lanes = u.link.lanes := by rw [hlink, hsel.link]; exact hlanes
    unfold digestPayload State.overrunSum tableSnapshot
    rw [hdecided, huevid, hlate, hlost, htdropped, htlanes]
  refine ⟨?_, ?_⟩
  · rw [hagree, hsel.agree]
    change digestedAgree (tableSnapshot s.tracker.cycle u) (tableDigest s.tracker.cycle u) u.link.queue.length u.now
      (span (Block.digestWindow10Ms u.block * 10000)) u.agree = _
    rw [hv, hqueue, hnow, hblock, hu.agree, cutAgreement_eq, tableSnapshot, huevid]
    rfl
  · have hcqueue : c.link.queue = kept ++ if kept.length < 12 then
        [⟨s.link.nextRef, .digest, digestPayload (tableSnapshot s.tracker.cycle u) digest u, m.tag⟩] else [] := by
      rw [hsel.queue, ← hnow, ← hnext, ← hqueue, ← hv]
      exact digestedLink_queue _ _ _
    have hcurrent : ∀ r, isSelected r c = isSelected r t := fun r => by unfold isSelected; rw [hrest.current]
    rw [← hpayload, ← hcqueue, show t.link.queue = _ from congrArg Link.queue hlink]
    refine List.filter_congr fun d _ => ?_
    rw [hcurrent]
    rfl

end Sys2Proof.Machine
end

section
/-! PROOFS. The rules of a decision on plain data (R15, R135 to R138): the senders, the number that more than half of them carry, the seasoned,
V and its donor, the standing, and the tracker's adoption. -/

namespace Sys2Proof.Machine

/-! ## More than half (R136, R137) -/

section
variable {α : Type} [DecidableEq α] {vs : List α} {a b : α}

/-- Two values cannot each be carried by more than half. -/
theorem moreThanHalf_unique (ha : vs.length < 2 * vs.count a) (hb : vs.length < 2 * vs.count b) : a = b := by
  by_contra hne
  have hsplit := List.length_eq_countP_add_countP (· == a) (l := vs)
  have hother : vs.count b ≤ vs.countP fun x => decide ¬(x == a) = true := by
    rw [List.count_eq_countP]
    refine List.countP_mono_left fun x _ hx => decide_eq_true fun hxa => hne ?_
    exact (eq_of_beq hxa).symm.trans (eq_of_beq hx)
  rw [← List.count_eq_countP] at hsplit
  omega

theorem majority_iff : majority vs = some a ↔ vs.length < 2 * vs.count a := by
  have hfound : ∀ x, majority vs = some x → vs.length < 2 * vs.count x := fun x hx => by
    simpa using List.find?_some hx
  refine ⟨hfound a, fun h => ?_⟩
  have hmem : a ∈ vs := List.count_pos_iff.mp (by omega)
  have hsome : (majority vs).isSome = true := List.find?_isSome.mpr ⟨a, hmem, by simpa using h⟩
  obtain ⟨x, hx⟩ := Option.isSome_iff_exists.mp hsome
  rw [hx, moreThanHalf_unique (hfound x hx) h]

end

/-- How many senders carry a value in one of their fields. -/
theorem carried_length {α : Type} [DecidableEq α] [BEq α] [LawfulBEq α] (f : DigestSender → α) (ds : List DigestSender) (a : α) :
    (ds.filter fun d => f d == a).length = ds.countP fun d => decide (f d = a) := by
  rw [← List.countP_eq_length_filter]
  exact List.countP_congr fun d _ => by simp

theorem majority_map_iff {α : Type} [DecidableEq α] (f : DigestSender → α) (ds : List DigestSender) (a : α) :
    majority (ds.map f) = some a ↔ ds.length < 2 * ds.countP fun d => decide (f d = a) := by
  rw [majority_iff, List.length_map, List.count_eq_countP, List.countP_map]
  rfl

theorem adoptedCycle_iff (own : Option CycleNo) (ds : List DigestSender) (k : CycleNo) : adoptedCycle own ds = some k ↔
    own ≠ some k ∧ ds.length < 2 * (ds.filter fun d => d.cycle == some k).length := by
  rw [carried_length, ← majority_map_iff]
  unfold adoptedCycle
  split
  next n hn =>
    rw [hn]
    split
    next hown =>
      refine iff_of_false nofun fun ⟨hne, hk⟩ => hne ?_
      rw [← hown]
      exact Option.some.inj hk
    next hown =>
      refine ⟨fun hk => ?_, fun ⟨_, hk⟩ => Option.some.inj hk⟩
      rw [← hk]
      exact ⟨Ne.symm hown, rfl⟩
  next hno => exact iff_of_false nofun fun ⟨_, hk⟩ => hno k hk

/-! ## V, its donor and the standing (R137, R138) -/

section
variable {minAge : Nat} {cs : List DigestSender}

theorem seasonedOf_eq (minAge : Nat) (cs : List DigestSender) : seasonedOf minAge cs =
    if (∃ c ∈ cs, minAge ≤ c.age) then cs.filter fun c => minAge ≤ c.age else cs := by
  unfold seasonedOf
  simp only [List.any_eq_true, decide_eq_true_eq]

theorem mem_of_mem_seasonedOf {x : DigestSender} (h : x ∈ seasonedOf minAge cs) : x ∈ cs := by
  rw [seasonedOf_eq] at h
  split at h
  next => exact List.mem_of_mem_filter h
  next => exact h

theorem majorityDigest_iff (minAge : Nat) (cs : List DigestSender) (v : BitVec 32) : majorityDigest minAge cs = some v ↔
    (seasonedOf minAge cs).length < 2 * ((seasonedOf minAge cs).filter fun d => d.digest == v).length := by
  rw [carried_length]
  exact majority_map_iff _ _ _

theorem donorOf_iff (minAge : Nat) (cs : List DigestSender) (v : BitVec 32) (d : Station) : donorOf minAge cs v = some d ↔
    ∃ pre x post, seasonedOf minAge cs = pre ++ x :: post ∧ x.digest = v ∧ x.station = d ∧ ∀ y ∈ pre, y.digest ≠ v := by
  unfold donorOf
  simp only [Option.map_eq_some_iff, List.find?_eq_some_iff_append, beq_iff_eq, Bool.not_eq_true', beq_eq_false_iff_ne]
  constructor
  · rintro ⟨x, ⟨hv, pre, post, hsplit, hpre⟩, hd⟩
    exact ⟨pre, x, post, hsplit, hv, hd, hpre⟩
  · rintro ⟨pre, x, post, hsplit, hv, hd, hpre⟩
    exact ⟨x, ⟨hv, pre, post, hsplit, hpre⟩, hd⟩

/-- The donor is a sender that holds V. -/
theorem donorOf_holds {v : BitVec 32} {d : Station} (h : donorOf minAge cs v = some d) : ∃ x ∈ cs, x.digest = v ∧ x.station = d := by
  obtain ⟨pre, x, post, hsplit, hv, hd, -⟩ := (donorOf_iff minAge cs v d).mp h
  exact ⟨x, mem_of_mem_seasonedOf (by rw [hsplit]; exact List.mem_append_right _ List.mem_cons_self), hv, hd⟩

section
variable {age : Nat} {d : BitVec 32}

theorem standingOf_few (h : cs.length ≤ 1) : standingOf minAge age d cs = if minAge ≤ age then .alone else .novice := if_pos h

theorem standingOf_split (h : 2 ≤ cs.length) (hv : majorityDigest minAge cs = none) : standingOf minAge age d cs = .split := by
  unfold standingOf
  rw [if_neg (by omega), hv]

theorem standingOf_verdict {v : BitVec 32} (h : 2 ≤ cs.length) (hv : majorityDigest minAge cs = some v) :
    standingOf minAge age d cs = if d = v then .inStep else .outOfStep := by
  unfold standingOf
  rw [if_neg (by omega), hv]

/-- A standing by V says how V stands to the own digest. -/
theorem standingOf_inStep (h : standingOf minAge age d cs = .inStep) : majorityDigest minAge cs = some d := by
  unfold standingOf at h
  split at h
  next => split at h <;> cases h
  next =>
    split at h
    next v hv =>
      split at h
      next hd => rw [hv, hd]
      next => cases h
    next => cases h

theorem standingOf_outOfStep (h : standingOf minAge age d cs = .outOfStep) : majorityDigest minAge cs ≠ some d := by
  unfold standingOf at h
  split at h
  next => split at h <;> cases h
  next =>
    split at h
    next v hv =>
      split at h
      next => cases h
      next hd => rw [hv]; exact fun hsome => hd (Option.some.inj hsome).symm
    next => cases h

end
end

/-! ## The senders (R135, R136) -/

theorem digestCounts_iff {s : State} {w : DigestWindow} {r : PeerRecord} {d : DigestContent} : digestCounts s w r = some d ↔
    r.state = .present ∧ r.digest = some d ∧ reached d.arrival (w.closeMoment - digestWindowLength s) = true ∧
      reached s.now d.arrival = true := by
  unfold digestCounts
  split
  next c hc =>
    rw [hc]
    split
    next h =>
      obtain ⟨hstate, hopen, hnow⟩ := h
      constructor
      · rintro ⟨⟩
        exact ⟨hstate, rfl, hopen, hnow⟩
      · rintro ⟨-, ⟨⟩, -⟩
        rfl
    next h =>
      refine iff_of_false nofun ?_
      rintro ⟨hstate, ⟨⟩, hopen, hnow⟩
      exact h ⟨hstate, hopen, hnow⟩
  next hc => exact iff_of_false nofun fun ⟨_, hd, _⟩ => by rw [hc] at hd; cases hd

theorem mem_stationList (st : Station) : st ∈ stationList := by cases st <;> decide

theorem mem_digestSenders_iff {s : State} {w : DigestWindow} {own : Station} {snap : Snapshot} {digest : BitVec 32} {x : DigestSender} :
    x ∈ digestSenders s w own snap digest ↔ x = ⟨own, snap.cycle, digest, snap.age⟩ ∨ ∃ d, x.station ≠ own ∧
      (s.member.peers.get x.station).state = .present ∧ (s.member.peers.get x.station).digest = some d ∧
      reached d.arrival (w.closeMoment - span (Block.digestWindow10Ms s.block * 10000)) = true ∧
      reached s.now d.arrival = true ∧ x = ⟨x.station, d.cycle, d.digest, d.age⟩ := by
  unfold digestSenders
  rw [List.mem_filterMap]
  constructor
  · rintro ⟨st, -, hx⟩
    split at hx
    next hown =>
      cases hx
      rw [hown]
      exact Or.inl rfl
    next hown =>
      obtain ⟨d, hd, rfl⟩ := Option.map_eq_some_iff.mp hx
      obtain ⟨hstate, hdigest, hopen, hnow⟩ := digestCounts_iff.mp hd
      exact Or.inr ⟨d, hown, hstate, hdigest, hopen, hnow, rfl⟩
  · rintro (rfl | ⟨d, hown, hstate, hdigest, hopen, hnow, hx⟩)
    · exact ⟨own, mem_stationList own, if_pos rfl⟩
    · refine ⟨x.station, mem_stationList _, ?_⟩
      rw [if_neg hown, digestCounts_iff.mpr ⟨hstate, hdigest, hopen, hnow⟩]
      exact congrArg some hx.symm

theorem digestSenders_inOrder (s : State) (w : DigestWindow) (own : Station) (snap : Snapshot) (digest : BitVec 32) :
    (digestSenders s w own snap digest).Pairwise fun a b => stNo a.station < stNo b.station := by
  have hstation : ∀ (st : Station) (x : DigestSender),
      (if st = own then some ⟨st, snap.cycle, digest, snap.age⟩
        else (digestCounts s w (s.member.peers.get st)).map fun d => ⟨st, d.cycle, d.digest, d.age⟩) = some x → x.station = st := by
    intro st x hx
    split at hx
    next => cases hx; rfl
    next =>
      obtain ⟨d, -, rfl⟩ := Option.map_eq_some_iff.mp hx
      rfl
  have hlist : stationList.Pairwise fun a b => stNo a < stNo b := by decide
  refine hlist.filterMap _ fun a b hab x hx y hy => ?_
  rw [hstation a x hx, hstation b y hy]
  exact hab

/-! ## Adoption (R15) -/

theorem adoptCycle_some {k c l : CycleNo} {t : Tracker} (hc : t.cycle = some c) (hl : t.lastClosed = some l) :
    adoptCycle k t = { t with cycle := some (c + (k - l)), lastClosed := some k } := by
  unfold adoptCycle
  rw [hc, hl]

end Sys2Proof.Machine
end

section
/-! PROOFS. The digest window's expiry with sound stores (R128, R135 to R140, R143, R145): what the decision writes, and what the standing
makes of the transfer. -/

namespace Sys2Proof.Machine

/-! ## The standing recorded (R128, R139) -/

/-- The Evidence Unit once it has been told the standing `new` after `old`, with this STOP count (R127, R128). -/
def standingEvid (old new : Standing) (stopCount : Nat) (v : Evidence) : Evidence :=
  if new = old then v
  else if new = .outOfStep then { v with hold := some (v.warn, v.stop) }
  else { v with hold := none, warn := warnLevel v.table, stop := stopLevel stopCount v.table }

theorem standingEvid_table (old new : Standing) (stopCount : Nat) (v : Evidence) : (standingEvid old new stopCount v).table = v.table := by
  unfold standingEvid
  split
  next => rfl
  next =>
    split
    next => rfl
    next => rfl

/-- The notice of a changed standing (R139). -/
def standingNotices (cycle : Option CycleNo) (own : Nat) (old new : Standing) : List Notice :=
  if new = old then [] else [⟨cycle, own, .standing new⟩]

/-- The Agreement Unit once a decision has made this standing (R134, R139). -/
def decidedAgree (new : Standing) (a : Agreement) : Agreement := { a with standing := new, decided := new }

theorem decideAs_sound (new : Standing) {s : State} (hn : NoFlips s) : decideAs new s =
    ((s.withAgree (decidedAgree new s.agree)).withEvid
      (standingEvid s.agree.standing new (Block.stopCount s.block) s.evid)).withPort
        (raiseAll (standingNotices s.tracker.cycle s.ownNo s.agree.standing new) s).port := by
  unfold decideAs setStanding standingEvid standingNotices
  by_cases h : new = s.agree.standing
  · rw [if_pos (by exact h), if_pos h, if_pos h, decidedAgree, h]
    rfl
  · rw [if_neg (by exact h), if_neg h, if_neg h]
    unfold raiseNow
    rw [raise_eq]
    generalize hp : (raise _ (State.withAgree _ _)).port = p
    have hport : p = (raise ⟨s.tracker.cycle, s.ownNo, .standing new⟩ s).port := hp ▸ raise_port _ rfl
    have hblock : p.config.getD [] = s.block := by rw [hport, raise_config]; rfl
    rw [raiseAll_cons, raiseAll_nil, ← hport]
    unfold standingChanged
    by_cases ho : new = .outOfStep
    · rw [if_pos (by exact ho), if_pos ho]
      rfl
    · rw [if_neg (by exact ho), if_neg ho]
      unfold deriveOutputs
      rw [usingWords_sound (by exact hn), usingConfig_sound (by exact hn), ← hblock]
      rfl

/-! ## What the standing makes of the transfer (R139, R140, R143, R145) -/

/-- The Agreement Unit once the standing has been acted on at `tag`. -/
def actedAgree (own : Station) (standing : Standing) (cycle : Option CycleNo) (verdict : Option (BitVec 32 × Station))
    (senders : List DigestSender) (tag : Tag) (a : Agreement) : Agreement :=
  match verdict with
  | some (v, donor) =>
    if standing = .outOfStep then
      if a.carryOverflow then transferGone a else { a with transfer := .awaiting donor cycle v 1 none [] }
    else if standing = .inStep ∧ donor = own ∧ someoneDiffers cycle v senders then
      { a with transfer := .sending 1 (.lead (tag + transferLead)) }
    else a
  | none => a

/-- The notice of an awaited transfer that a full carry list abandons at once (R143, R145). -/
def actedNotices (standing : Standing) (cycle : Option CycleNo) (verdict : Option (BitVec 32 × Station)) (a : Agreement) : List Notice :=
  match verdict with
  | some (_, donor) =>
    if standing = .outOfStep ∧ a.carryOverflow = true then [⟨cycle, stNo donor, .transfer (.abandoned .carry)⟩] else []
  | none => []

/-- A transfer is awaited, or abandoned at once (R143, R145). -/
theorem enterAwaiting_present {donor : Station} {s : State} (cycle : Option CycleNo) (v : BitVec 32)
    (hp : (s.member.peers.get donor).state = .present) : enterAwaiting donor cycle v s =
      if s.agree.carryOverflow then (s.withAgree (transferGone s.agree)).withPort
        (raiseAll [⟨s.tracker.cycle, stNo donor, .transfer (.abandoned .carry)⟩] s).port
      else s.withAgree { s.agree with transfer := .awaiting donor cycle v 1 none [] } := by
  unfold enterAwaiting
  dsimp only
  split
  next hover =>
    rw [abandonTransfer_awaiting .carry (s := setTransfer (.awaiting donor cycle v 1 none []) s) rfl,
      if_pos (show s.agree.carryOverflow = true from hover)]
    exact congrArg (State.withPort _) (raiseAll_port _ rfl)
  next hover =>
    rw [if_neg (fun h => h hp), if_neg (show ¬ s.agree.carryOverflow = true from hover)]
    rfl

section
variable {own : Station} {standing : Standing} {cycle : Option CycleNo} {verdict : Option (BitVec 32 × Station)}
  {senders : List DigestSender} {tag : Tag} {a : Agreement}

/-- The transfer, the carry list and the count of abandoned transfers apart, the Agreement Unit is as before. -/
theorem actedAgree_kept : actedAgree own standing cycle verdict senders tag a = { a with
    transfer := (actedAgree own standing cycle verdict senders tag a).transfer
    carry := (actedAgree own standing cycle verdict senders tag a).carry
    carryOverflow := (actedAgree own standing cycle verdict senders tag a).carryOverflow
    counts := { a.counts with abandoned := (actedAgree own standing cycle verdict senders tag a).counts.abandoned } } := by
  unfold actedAgree
  split
  next =>
    split
    next =>
      split
      next => rfl
      next => rfl
    next =>
      split
      next => rfl
      next => rfl
  next => rfl

theorem actedAgree_awaits {v : BitVec 32} {donor : Station} (hs : standing = .outOfStep) (ho : a.carryOverflow = false) :
    actedAgree own standing cycle (some (v, donor)) senders tag a = { a with transfer := .awaiting donor cycle v 1 none [] } := by
  unfold actedAgree
  dsimp only
  rw [if_pos hs, if_neg (by rw [ho]; exact nofun)]

theorem actedAgree_abandons {v : BitVec 32} {donor : Station} (hs : standing = .outOfStep) (ho : a.carryOverflow = true) :
    actedAgree own standing cycle (some (v, donor)) senders tag a = transferGone a := by
  unfold actedAgree
  dsimp only
  rw [if_pos hs, if_pos ho]

theorem actedAgree_sends {v : BitVec 32} (hs : standing = .inStep) (hd : someoneDiffers cycle v senders = true) :
    actedAgree own standing cycle (some (v, own)) senders tag a = { a with transfer := .sending 1 (.lead (tag + transferLead)) } := by
  unfold actedAgree
  dsimp only
  rw [if_neg (by rw [hs]; exact nofun), if_pos ⟨hs, rfl, hd⟩]

/-- The transfer stays where neither V calls for one nor the station has anyone to send to. -/
theorem actedAgree_stays (h : ∀ v donor, verdict = some (v, donor) →
      standing ≠ .outOfStep ∧ ¬ (standing = .inStep ∧ donor = own ∧ someoneDiffers cycle v senders = true)) :
    actedAgree own standing cycle verdict senders tag a = a := by
  unfold actedAgree
  split
  next v donor =>
    obtain ⟨hout, hin⟩ := h v donor rfl
    rw [if_neg hout, if_neg hin]
  next => rfl

theorem actedNotices_silent {number : Option CycleNo} (h : standing ≠ .outOfStep ∨ verdict = none ∨ a.carryOverflow = false) :
    actedNotices standing number verdict a = [] := by
  unfold actedNotices
  split
  next v donor =>
    refine if_neg fun ⟨hout, hover⟩ => ?_
    obtain h | h | h := h
    · exact h hout
    · cases h
    · rw [h] at hover
      cases hover
  next => rfl

end

theorem actOnStanding_eq (own : Station) (standing : Standing) (cycle : Option CycleNo) (verdict : Option (BitVec 32 × Station))
    (senders : List DigestSender) (s : State)
    (hdonor : ∀ v donor, standing = .outOfStep → verdict = some (v, donor) → (s.member.peers.get donor).state = .present) :
    actOnStanding own standing cycle verdict senders s =
      (s.withAgree (actedAgree own standing cycle verdict senders s.now s.agree)).withPort
        (raiseAll (actedNotices standing s.tracker.cycle verdict s.agree) s).port := by
  unfold actOnStanding
  cases verdict with
  | none => rfl
  | some vd =>
    obtain ⟨v, donor⟩ := vd
    dsimp only
    by_cases ho : standing = .outOfStep
    · rw [if_pos ho, enterAwaiting_present cycle v (hdonor v donor ho rfl)]
      by_cases hover : s.agree.carryOverflow = true
      · have hnotice : actedNotices standing s.tracker.cycle (some (v, donor)) s.agree =
            [⟨s.tracker.cycle, stNo donor, .transfer (.abandoned .carry)⟩] := if_pos ⟨ho, hover⟩
        rw [if_pos hover, actedAgree_abandons ho hover, hnotice]
      · rw [if_neg hover, actedAgree_awaits ho (Bool.not_eq_true _ ▸ hover), actedNotices_silent (Or.inr (Or.inr (Bool.not_eq_true _ ▸ hover)))]
        rfl
    · rw [if_neg ho, actedNotices_silent (Or.inl ho)]
      unfold actedAgree
      dsimp only
      rw [if_neg ho]
      split
      next => rfl
      next => rfl

theorem someoneDiffers_iff (own : Option CycleNo) (v : BitVec 32) (senders : List DigestSender) :
    someoneDiffers own v senders = true ↔ ∃ d ∈ senders, d.cycle ≠ own ∨ d.digest ≠ v := by
  simp [someoneDiffers]

theorem verdictOf_none {minAge : Nat} {cs : List DigestSender} (h : majorityDigest minAge cs = none) : verdictOf minAge cs = none := by
  unfold verdictOf
  rw [h]

theorem verdictOf_some_iff {minAge : Nat} {cs : List DigestSender} {v : BitVec 32} {d : Station} :
    verdictOf minAge cs = some (v, d) ↔ majorityDigest minAge cs = some v ∧ donorOf minAge cs v = some d := by
  unfold verdictOf
  cases hm : majorityDigest minAge cs with
  | none => simp
  | some w =>
    dsimp only
    constructor
    · intro h
      obtain ⟨e, he, hpair⟩ := Option.map_eq_some_iff.mp h
      cases hpair
      exact ⟨rfl, he⟩
    · rintro ⟨⟨⟩, hd⟩
      rw [hd]
      rfl

/-! ## The decision (R135 to R139) -/

/-- The station once the decision has ended the digest window, and adopted a number if there is one (R135, R136, R15). -/
def windowDecided (adopted : Option CycleNo) (s : State) : State :=
  (s.withAgree { s.agree with
    window := none
    counts := { s.agree.counts with
      decisions := raised s.agree.counts.decisions
      adoptions := if adopted = none then s.agree.counts.adoptions else raised s.agree.counts.adoptions } }).withTracker
    (match adopted with | some k => adoptCycle k s.tracker | none => s.tracker)

section
variable {s : State} {w : DigestWindow} {snap : Snapshot} {digest : BitVec 32} {own : Station} {senders group : List DigestSender}
  {adopted : Option CycleNo} {standing : Standing}

/-- With a number adopted or not, the decision records its standing and acts on it. -/
theorem decision_eq (hn : NoFlips s) (hs : s.member.station ≠ .frozen) (hw : s.agree.window = some w) (hsnap : s.agree.snapshot = some snap)
    (hdig : s.agree.ownDigest = some digest) (hown : s.member.number = some own) (hsenders : senders = digestSenders s w own snap digest)
    (hadopted : adopted = adoptedCycle snap.cycle senders)
    (hgroup : group = senders.filter fun d => d.cycle == (if adopted = none then snap.cycle else adopted))
    (hstanding : standing = if adopted = none then standingOf (Block.minAge s.block) snap.age digest group else .outOfStep) :
    decide_ s = actOnStanding own standing (if adopted = none then snap.cycle else adopted)
      (verdictOf (Block.minAge s.block) group) senders (decideAs standing (windowDecided adopted s)) := by
  unfold decide_
  rw [hw, hsnap, hdig, hown]
  dsimp only
  rw [← hsenders, ← hadopted]
  cases adopted with
  | none =>
    rw [if_pos rfl] at hgroup hstanding ⊢
    have hlive : (decideAs standing (windowDecided none s)).member.station ≠ .frozen := by
      rw [decideAs_sound _ (s := windowDecided none s) hn]
      exact hs
    dsimp only
    unfold decideStanding
    dsimp only
    change (decideAs (standingOf (Block.minAge s.block) snap.age digest (senders.filter fun d => d.cycle == snap.cycle))
      (windowDecided none s)).unlessFrozen _ = _
    rw [← hgroup, ← hstanding, unlessFrozen_live hlive, hstanding]
    rfl
  | some k =>
    rw [if_neg nofun] at hgroup hstanding ⊢
    rw [hstanding, hgroup]
    dsimp only
    unfold decideAdoption actOnStanding
    rfl

/-- A donor from whom a table is awaited is a PRESENT peer: the station itself holds another digest, or closed another cycle (R136 to R138). -/
theorem donor_present (hsenders : senders = digestSenders s w own snap digest) (hadopted : adopted = adoptedCycle snap.cycle senders)
    (hgroup : group = senders.filter fun d => d.cycle == (if adopted = none then snap.cycle else adopted))
    (hstanding : standing = if adopted = none then standingOf (Block.minAge s.block) snap.age digest group else .outOfStep)
    {v : BitVec 32} {donor : Station} (ho : standing = .outOfStep) (hv : verdictOf (Block.minAge s.block) group = some (v, donor)) :
    (s.member.peers.get donor).state = .present := by
  obtain ⟨hmajority, hdonor⟩ := verdictOf_some_iff.mp hv
  obtain ⟨x, hx, hxv, rfl⟩ := donorOf_holds hdonor
  rw [hgroup] at hx
  obtain ⟨hxs, hxc⟩ := List.mem_filter.mp hx
  rw [hsenders] at hxs
  obtain rfl | ⟨d, -, hpresent, -⟩ := mem_digestSenders_iff.mp hxs
  · exfalso
    cases adopted with
    | none =>
      rw [if_pos rfl, ho] at hstanding
      dsimp only at hxv
      rw [← hxv] at hmajority
      exact standingOf_outOfStep hstanding.symm hmajority
    | some k =>
      rw [if_neg nofun] at hxc
      exact ((adoptedCycle_iff _ _ _).mp hadopted.symm).1 (eq_of_beq hxc)
  · exact hpresent

end

theorem exec_digestWindowExpiry_due {m : Moment} {s : State} {w : DigestWindow} (hS : Sound m s) (hw : s.atWork = true)
    (hwin : s.agree.window = some w) (hd : reached m.tag w.due = true) :
    exec (.digestWindowExpiry m) s = .next (decide_ (s.withNow m.tag)) := by
  have hdue : digestDue (s.withNow m.tag) = true := by
    unfold digestDue
    rw [withNow_agree, hwin, withNow_now, Bool.and_eq_true]
    exact ⟨hw, hd⟩
  rw [exec_digestWindowExpiry_quiet m s hS.noFaultToFind, if_pos hdue, usingConfig_sound (by exact hS.noFlips)]

/-- What the decision writes at the expiry of the window. -/
structure Decided (m : Moment) (s : State) (own : Station) (senders : List DigestSender) (adopted cycle : Option CycleNo)
    (standing : Standing) (verdict : Option (BitVec 32 × Station)) (t : State) : Prop where
  agree : t.agree = actedAgree own standing cycle verdict senders m.tag (decidedAgree standing (windowDecided adopted s).agree)
  tracker : t.tracker = (windowDecided adopted s).tracker
  evid : t.evid = standingEvid s.agree.standing standing (Block.stopCount s.block) s.evid
  port : t.port = (raiseAll (standingNotices t.tracker.cycle s.ownNo s.agree.standing standing ++
    actedNotices standing t.tracker.cycle verdict s.agree) s).port
  others : t.link = s.link ∧ t.channels = s.channels ∧ t.coin = s.coin ∧ t.coup = s.coup ∧ t.member = s.member

theorem actOnStanding_decided {m : Moment} {s : State} {own : Station} {senders : List DigestSender} {adopted cycle : Option CycleNo}
    {standing : Standing} {verdict : Option (BitVec 32 × Station)} (hn : NoFlips s)
    (hdonor : ∀ v donor, standing = .outOfStep → verdict = some (v, donor) → (s.member.peers.get donor).state = .present) :
    Decided m s own senders adopted cycle standing verdict
      (actOnStanding own standing cycle verdict senders (decideAs standing (windowDecided adopted (s.withNow m.tag)))) := by
  have hacted := actOnStanding_eq own standing cycle verdict senders (decideAs standing (windowDecided adopted (s.withNow m.tag)))
  rw [decideAs_sound _ (s := windowDecided adopted (s.withNow m.tag)) hn] at hacted ⊢
  rw [hacted hdonor]
  refine ⟨?_, rfl, rfl, ?_, rfl, rfl, rfl, rfl, rfl⟩
  · rw [withPort_agree, withAgree_agree]
    congr 1
    exact withNow_now s m.tag
  · rw [withPort_port, raiseAll_append]
    exact raiseAll_port _ (raiseAll_port _ rfl)

/-- An IN-STEP decision has adopted nothing, and V is the own digest (R138, R139). -/
theorem inStep_verdict {minAge age : Nat} {digest : BitVec 32} {group : List DigestSender} {adopted : Option CycleNo} {standing : Standing}
    (hstanding : standing = if adopted = none then standingOf minAge age digest group else .outOfStep) (hin : standing = .inStep) :
    adopted = none ∧ majorityDigest minAge group = some digest := by
  rw [hin] at hstanding
  cases adopted with
  | none => exact ⟨rfl, standingOf_inStep (hstanding.trans (if_pos rfl)).symm⟩
  | some k => cases hstanding

/-- At its expiry the window's decision is made (R135 to R140). -/
theorem exec_digestWindowExpiry_decides {m : Moment} {s : State} {w : DigestWindow} {snap : Snapshot} {digest : BitVec 32} {own : Station}
    {senders group : List DigestSender} {adopted : Option CycleNo} {standing : Standing} (hS : Sound m s) (hw : s.atWork = true)
    (hwin : s.agree.window = some w) (hdue : reached m.tag w.due = true) (hsnap : s.agree.snapshot = some snap)
    (hdig : s.agree.ownDigest = some digest) (hown : s.member.number = some own)
    (hsenders : senders = digestSenders (s.withNow m.tag) w own snap digest) (hadopted : adopted = adoptedCycle snap.cycle senders)
    (hgroup : group = senders.filter fun d => d.cycle == (if adopted = none then snap.cycle else adopted))
    (hstanding : standing = if adopted = none then standingOf (Block.minAge s.block) snap.age digest group else .outOfStep) :
    ∃ t, exec (.digestWindowExpiry m) s = .next t ∧ Decided m s own senders adopted (if adopted = none then snap.cycle else adopted) standing
      (verdictOf (Block.minAge s.block) group) t := by
  refine ⟨_, (exec_digestWindowExpiry_due hS hw hwin hdue).trans (congrArg _
    (decision_eq (s := s.withNow m.tag) hS.noFlips (atWork_not_frozen hw) hwin hsnap hdig hown hsenders hadopted hgroup hstanding)), ?_⟩
  exact actOnStanding_decided hS.noFlips fun v donor => donor_present (s := s.withNow m.tag) hsenders hadopted hgroup hstanding

section
variable {own : Station} {snap : Snapshot} {digest : BitVec 32} {senders group : List DigestSender} {adopted : Option CycleNo}
  {standing : Standing} {minAge : Nat} {tag : Tag} {a : Agreement}

/-- The transfer stays without V, without a standing that calls for one, or with nobody to send to or another donor (R139, R140). -/
theorem actedAgree_unmoved
    (hin : standing = .inStep → adopted = none ∧ majorityDigest minAge group = some digest)
    (h : (standing ≠ .outOfStep ∧ standing ≠ .inStep) ∨ majorityDigest minAge group = none ∨
      (standing = .inStep ∧ (donorOf minAge group digest ≠ some own ∨ ∀ d ∈ senders, d.cycle = snap.cycle ∧ d.digest = digest))) :
    actedAgree own standing (if adopted = none then snap.cycle else adopted) (verdictOf minAge group) senders tag a = a := by
  refine actedAgree_stays fun v donor hverdict => ?_
  obtain ⟨hmajority, hdonor⟩ := verdictOf_some_iff.mp hverdict
  obtain ⟨hout, hnotIn⟩ | hnone | ⟨hstep, hnobody⟩ := h
  · exact ⟨hout, fun h => hnotIn h.1⟩
  · rw [hnone] at hmajority
    cases hmajority
  · obtain ⟨hadopted, hown⟩ := hin hstep
    cases hown.symm.trans hmajority
    refine ⟨by rw [hstep]; exact nofun, fun ⟨_, hself, hdiffers⟩ => ?_⟩
    rw [if_pos hadopted, someoneDiffers_iff] at hdiffers
    obtain ⟨x, hx, hne⟩ := hdiffers
    obtain hother | hall := hnobody
    · exact hother (hdonor.trans (congrArg some hself))
    · obtain ⟨hcycle, hdigest⟩ := hall x hx
      exact hne.elim (fun h => h hcycle) (fun h => h hdigest)

end

/-- Settles O42: what the decision writes, and the rules it goes by. -/
theorem digestWindowDecides : Obligations.DigestWindowDecides := by
  refine ⟨?_, fun s w own snap digest x => ⟨mem_digestSenders_iff, digestSenders_inOrder s w own snap digest⟩, adoptedCycle_iff, seasonedOf_eq,
    majorityDigest_iff, donorOf_iff, fun minAge age d cs => ⟨standingOf_few, standingOf_split, fun h hv => ?_, fun v h hv hne => ?_⟩,
    fun k c l t hc hl => adoptCycle_some hc hl⟩
  · intro m s w snap digest own senders group adopted standing hS hw hwin hdue hsnap hdig hown hsenders hadopted hgroup hstanding
    obtain ⟨t, hexec, hagree, htracker, hevid, hport, hothers⟩ :=
      exec_digestWindowExpiry_decides hS hw hwin hdue hsnap hdig hown hsenders hadopted hgroup hstanding
    have hin := inStep_verdict hstanding
    have hkept := hagree.trans actedAgree_kept
    refine ⟨t, hexec, ?_, ?_, ?_, ?_, ?_, ?_, ?_, fun hnone => ?_, fun k hk => ?_, fun hsame => ?_, fun hne hout => ?_, fun hne hout => ?_,
      fun hquiet => ?_, fun v donor hout hv hdonor => ?_, fun hstep hv hdonor hdiffers => ?_, fun hstays => ?_, ?_, hothers⟩
    · rw [hkept]; rfl
    · rw [hkept]; exact hsnap
    · rw [hkept]; exact hdig
    · rw [hkept]; rfl
    · rw [hkept]; rfl
    · rw [hkept]; rfl
    · rw [hkept]; rfl
    · rw [htracker, hnone]; rfl
    · rw [htracker, hk]; rfl
    · rw [hevid, standingEvid, if_pos hsame]
    · rw [hevid, standingEvid, if_neg hne, if_pos hout]
    · rw [hevid, standingEvid, if_neg hne, if_neg hout]; rfl
    · have hverdict : standing ≠ .outOfStep ∨ verdictOf (Block.minAge s.block) group = none ∨ s.agree.carryOverflow = false :=
        hquiet.imp_right (Or.imp_left verdictOf_none)
      rw [hport, actedNotices_silent hverdict, List.append_nil, standingNotices]
      split
      next => rfl
      next => rfl
    · rw [verdictOf_some_iff.mpr ⟨hv, hdonor⟩] at hagree hport
      refine ⟨fun hover => ?_, fun hover => ?_⟩
      · rw [hagree, actedAgree_awaits hout (by exact hover)]
        exact ⟨rfl, hover, rfl⟩
      · rw [show actedNotices standing t.tracker.cycle (some (v, donor)) s.agree =
          [⟨t.tracker.cycle, stNo donor, .transfer (.abandoned .carry)⟩] from if_pos ⟨hout, hover⟩] at hport
        rw [hagree, actedAgree_abandons hout (by exact hover)]
        exact ⟨rfl, rfl, rfl, rfl, hport⟩
    · obtain ⟨hnone, -⟩ := hin hstep
      rw [verdictOf_some_iff.mpr ⟨hv, hdonor⟩, if_pos hnone] at hagree
      rw [hagree, actedAgree_sends hstep ((someoneDiffers_iff _ _ _).mpr hdiffers)]
      exact ⟨rfl, rfl⟩
    · rw [hagree, actedAgree_unmoved hin hstays]
      exact ⟨rfl, rfl⟩
    · rw [hevid, standingEvid_table]
  · rw [standingOf_verdict h hv, if_pos rfl]
  · rw [standingOf_verdict h hv, if_neg (Ne.symm hne)]

end Sys2Proof.Machine
end

section
/-! PROOFS. The station's slot with sound stores (R36, R37, R151, R152): its tag, the end of its wait and its fire tag. -/

namespace Sys2Proof.Machine

/-! ## The slot tag (R151) -/

/-- A slot whose tag has been reached is taken, in a station at work. -/
theorem exec_slotTagReached_due {m : Moment} {s : State} {tag : Tag} (hS : Sound m s) (hw : s.atWork = true)
    (hslot : s.coup.slot = .placed tag) (hr : reached m.tag tag = true) :
    exec (.slotTagReached m) s = .next (takeSlot tag (s.withNow m.tag)) := by
  have hdue : slotDue (s.withNow m.tag) = some tag := by
    have hwork : (s.withNow m.tag).atWork = true := hw
    simp [slotDue, hslot, hwork, hr]
  rw [exec_slotTagReached_quiet m s hS.noFaultToFind, hdue]
  exact congrArg _ (usingConfig_sound (by exact hS.noFlips) _ _)

theorem takeSlot_dead {s : State} {c : Channel} (hc : pulseChannel s = some c) (hd : (s.coup.records.get c).state = .dead)
    (tag : Tag) : takeSlot tag s = judgeIfReady (skipSlot s) := by
  unfold takeSlot
  rw [hc]
  exact if_pos hd

/-- A slot in its wait is offered to its channel at once. -/
theorem takeSlot_offers {s : State} {c : Channel} (hc : pulseChannel s = some c) (hd : (s.coup.records.get c).state ≠ .dead)
    (tag : Tag) : takeSlot tag s = judgeIfReady (reofferPulse (setSlot (.waiting tag) s)) := by
  unfold takeSlot
  rw [hc]
  exact (if_neg hd).trans (reofferThenJudge_waiting rfl)

/-- An offer that the channel cannot take changes nothing (R36). -/
theorem reofferPulse_untaken {s : State} {c : Channel} (hn : NoFlips s) (hc : pulseChannel s = some c)
    (ha : armable (s.channels.units.get c) = false) : reofferPulse s = s := by
  unfold reofferPulse
  split
  next =>
    rw [usingConfig_sound hn]
    unfold offerInTime
    split
    next => rfl
    next =>
      rw [usingConfig_sound hn]
      unfold offerPulse
      rw [hc]
      exact if_neg (by rw [ha]; exact Bool.false_ne_true)
  next => rfl

/-- An offer that the channel takes, the transmit queue having room: the selection apart, the slot is QUEUED with its descriptor and the
channel armed (R36, R46, R151). -/
theorem reofferPulse_queued {s : State} {tag : Tag} {c : Channel} (hn : NoFlips s) (hs : s.coup.slot = .waiting tag)
    (hl : later s.now (tag + halfSpacing s) = false) (hc : pulseChannel s = some c) (ha : armable (s.channels.units.get c) = true)
    (hq : s.link.queue.length < 12) :
    SelectedFrom (setSlot (.queued s.link.nextRef) (enqueue .pulse (pulseBytes (chNo c))
      (s.setUnit c { s.channels.units.get c with role := .pulse, state := .hush }))) (reofferPulse s) := by
  rw [reofferPulse_arms hn hs hl hc ha, armChannel_taken hn hq]
  exact selectFrame_from _

theorem armable_iff (u : ChannelUnit) : armable u = true ↔ u.role = .listen ∧ (u.state = .quiet ∨ u.state = .hush) := by
  unfold armable
  rw [Bool.and_eq_true, Bool.or_eq_true, beq_iff_eq, beq_iff_eq, beq_iff_eq]

/-! ## The end of the wait (R151) -/

theorem exec_slotWaitEnd_due {m : Moment} {s : State} {tag : Tag} (hS : Sound m s) (hw : s.atWork = true)
    (hslot : s.coup.slot = .waiting tag) (hr : reached m.tag (tag + span (Block.pulseSpacingMs s.block * 500)) = true) :
    exec (.slotWaitEnd m) s = .next (judgeIfReady (skipSlot (s.withNow m.tag))) := by
  have hover : waitOver (s.withNow m.tag) = true := by
    have hwork : (s.withNow m.tag).atWork = true := hw
    have hhalf : halfSpacing (s.withNow m.tag) = span (Block.pulseSpacingMs s.block * 500) := rfl
    simp [waitOver, hslot, hwork, hhalf, hr]
  rw [exec_slotWaitEnd_quiet m s hS.noFaultToFind, if_pos hover]
  exact congrArg _ (usingConfig_sound (by exact hS.noFlips) _ _)

/-! ## The fire tag (R37, R152) -/

theorem exec_fireTagReached_due {m : Moment} {s : State} {fire : Tag} (hS : Sound m s) (hw : s.atWork = true)
    (hslot : s.coup.slot = .announced fire) (hr : reached m.tag fire = true) :
    exec (.fireTagReached m) s = .next (takeFire (s.withNow m.tag)) := by
  have hdue : fireDue (s.withNow m.tag) = true := by
    have hwork : (s.withNow m.tag).atWork = true := hw
    simp [fireDue, hslot, hwork, hr]
  rw [exec_fireTagReached_quiet m s hS.noFaultToFind, if_pos hdue]
  exact congrArg _ (usingConfig_sound (by exact hS.noFlips) _ _)

theorem takeFire_armed {s : State} {c : Channel} (hc : pulseChannel s = some c) (ha : isArmed (s.channels.units.get c) = true) :
    takeFire s = fireChannel c s := by
  unfold takeFire
  rw [hc]
  exact if_pos ha

theorem takeFire_unarmed {s : State} {c : Channel} (hc : pulseChannel s = some c) (ha : ¬ isArmed (s.channels.units.get c) = true) :
    takeFire s = notFired s := by
  unfold takeFire
  rw [hc]
  exact if_neg ha

/-- The count that a fire command raises and lowers again stays, short of its end (log entry 34). -/
theorem raised_lowered {n : Nat} (h : n < 65535) : raised n - 1 = n := by
  unfold raised
  omega

theorem notFired_skips {s : State} (hj : NoJudging s) (hf : s.coup.counts.fired < 65535) : notFired s = skipSlot s := by
  unfold notFired
  rw [raised_lowered hf, judgeIfReady_waits (by exact hj)]
  rfl

/-- Settles O45: the slot tag is `takeSlot`, whose offer the channel takes or not and the transmit queue takes or not; the fire tag is
`takeFire`. -/
theorem slotWaitsArmsAndFires : Obligations.SlotWaitsArmsAndFires := by
  refine ⟨fun m s tag c hS hw hslot hr hl hc hj => ?_, fun m s hS hw hj => ⟨fun tag hslot hr => ?_,
    fun fire c hslot hr hc hrole hstate => ?_, fun fire c hslot hr hc hunarmed hfired => ?_⟩⟩
  · rw [exec_slotTagReached_due hS hw hslot hr]
    have hn : NoFlips (setSlot (.waiting tag) (s.withNow m.tag)) := hS.noFlips
    have hin : later (setSlot (.waiting tag) (s.withNow m.tag)).now (tag + halfSpacing (setSlot (.waiting tag) (s.withNow m.tag))) = false := by
      rw [show (setSlot (.waiting tag) (s.withNow m.tag)).now = m.tag from withNow_now s m.tag]
      exact hl
    refine ⟨fun hd => ?_, fun hd ha => ?_, fun hd ha hq => ?_, fun hd ha hq => ?_, armable_iff _⟩
    · rw [takeSlot_dead (by exact hc) (by exact hd), judgeIfReady_waits (by exact hj)]
      rfl
    · rw [takeSlot_offers (by exact hc) (by exact hd), reofferPulse_untaken hn (by exact hc) (by exact ha), judgeIfReady_waits (by exact hj)]
      rfl
    · have hsel := reofferPulse_queued hn rfl hin (by exact hc) (by exact ha) (by exact hq)
      rw [takeSlot_offers (by exact hc) (by exact hd), judgeIfReady_waits (by unfold NoJudging; rw [hsel.coup]; exact hj)]
      refine ⟨_, rfl, hsel.coup, hsel.queue.trans ?_, hsel.units⟩
      show s.link.queue ++ [⟨s.link.nextRef, .pulse, pulseBytes (chNo c), (s.withNow m.tag).now⟩] = _
      rw [withNow_now]
    · rw [takeSlot_offers (by exact hc) (by exact hd),
        reofferPulse_refused hn rfl hin (by exact hc) (by exact ha) (by exact hq) (by exact hd), judgeIfReady_waits (by exact hj)]
      exact ⟨_, rfl, rfl, congrArg ChannelUnit.role (Four.get_set s.channels.units c _)⟩
  · rw [exec_slotWaitEnd_due hS hw hslot hr, judgeIfReady_waits (by exact hj)]
    rfl
  · rw [exec_fireTagReached_due hS hw hslot hr, takeFire_armed (s := s.withNow m.tag) hc ((isArmed_iff _).mpr ⟨hrole, hstate⟩)]
    unfold fireChannel
    rw [withNow_now]
    rfl
  · rw [exec_fireTagReached_due hS hw hslot hr, takeFire_unarmed (s := s.withNow m.tag) hc ?_, notFired_skips (by exact hj) (by exact hfired)]
    · rfl
    · rw [withNow_channels, isArmed_iff, not_and_or]
      exact hunarmed

end Sys2Proof.Machine
end

section
/-! PROOFS. The pulse window with sound stores (R154, R156 to R158): it opens at its fire tag and closes at its end tag, and what its judgment
makes of the coupling records and leaves alone. -/

namespace Sys2Proof.Machine

/-! ## The fire tag and the end tag (R39, R154, R156) -/

/-- Where no slot waits, nothing is offered (R151). -/
theorem reofferPulse_idle {s : State} (h : NoWaiting s) : reofferPulse s = s := by
  unfold reofferPulse
  split
  next tag hs => exact absurd hs (h tag)
  next => rfl

theorem openWindow_opens {s : State} {w : PulseWindow} (hw : s.coup.window = some w) : openWindow s =
    { s with
      channels := { s.channels with units := s.channels.units.map fun _ u => openWindowUnit u }
      coup := { s.coup with window := some { w with stage := .isOpen } } } := by
  unfold openWindow
  rw [hw]
  rfl

theorem exec_windowFireTag_due {m : Moment} {s : State} {w : PulseWindow} (hS : Sound m s) (hw : s.atWork = true)
    (hwin : s.coup.window = some w) (hstage : w.stage = .pending) (hr : reached m.tag w.fire = true) :
    exec (.windowFireTag m) s = .next (reofferPulse (openWindow (s.withNow m.tag))) := by
  have hdue : windowFireDue (s.withNow m.tag) = true := by
    have hwork : (s.withNow m.tag).atWork = true := hw
    simp [windowFireDue, hwin, hstage, hwork, hr]
  rw [exec_windowFireTag_quiet m s hS.noFaultToFind, if_pos hdue]

/-- The station whose window `w` has closed and is JUDGING (R39, R156). -/
def windowClosed (w : PulseWindow) (s : State) : State :=
  { s with
    channels := { s.channels with units := s.channels.units.map fun _ u => closeWindowUnit s.listening u }
    coup := { s.coup with window := some { w with stage := .judging } } }

theorem takeEndTag_closes {s : State} {w : PulseWindow} (hn : NoFlips s) (hs : s.member.station ≠ .frozen)
    (hw : s.coup.window = some w) (hwait : NoWaiting s) : takeEndTag s = judgeIfReady (windowClosed w s) := by
  have hclosed : channelsWindowClosed (beginJudging s) = windowClosed w s := by
    unfold beginJudging channelsWindowClosed
    rw [hw]
    exact usingConfig_sound (by exact hn) _ _
  unfold takeEndTag
  rw [hclosed, unlessFrozen_live (by exact hs), reofferPulse_idle (by exact hwait)]

theorem exec_endTagReached_due {m : Moment} {s : State} {w : PulseWindow} (hS : Sound m s) (hw : s.atWork = true)
    (hwin : s.coup.window = some w) (hstage : w.stage = .isOpen) (hr : reached m.tag w.finish = true) (hwait : NoWaiting s) :
    exec (.endTagReached m) s = .next (if judgeable s { w with stage := .judging } = true
      then windowJudged w (windowClosed w (s.withNow m.tag)) else windowClosed w (s.withNow m.tag)) := by
  have hdue : endTagDue (s.withNow m.tag) = true := by
    have hwork : (s.withNow m.tag).atWork = true := hw
    simp [endTagDue, hwin, hstage, hwork, hr]
  rw [exec_endTagReached_quiet m s hS.noFaultToFind, if_pos hdue,
    takeEndTag_closes (s := s.withNow m.tag) hS.noFlips (atWork_not_frozen hw) hwin hwait,
    judgeIfReady_sound { w with stage := .judging } rfl (by exact hS.noFlips) (by exact hw) (by exact hwait)]
  rfl

/-! ## When a window may be judged (R156) -/

theorem isOpen_eq_false_iff (cap : Capture) : cap.isOpen = false ↔ ∀ tag, cap ≠ .started tag := by
  cases cap <;> simp [Capture.isOpen]

theorem forall_channel {p : Channel → Prop} : (∀ c, p c) ↔ p .c1 ∧ p .c2 ∧ p .c3 ∧ p .c4 :=
  ⟨fun h => ⟨h _, h _, h _, h _⟩, fun ⟨h1, h2, h3, h4⟩ c => by cases c <;> assumption⟩

theorem judgeable_iff (s : State) (w : PulseWindow) : judgeable s w = true ↔ w.stage = .judging ∧
    (∀ c tag, w.captures.get c ≠ .started tag) ∧ (stNo w.pulser = s.ownNo → s.coup.slot = .none) := by
  have hcaptures : (∀ c tag, w.captures.get c ≠ .started tag) ↔ w.captures.c1.isOpen = false ∧ w.captures.c2.isOpen = false ∧
      w.captures.c3.isOpen = false ∧ w.captures.c4.isOpen = false := by
    simp only [isOpen_eq_false_iff]
    exact forall_channel
  have hslot : (stNo w.pulser != s.ownNo || s.coup.slot == .none) = true ↔ (stNo w.pulser = s.ownNo → s.coup.slot = .none) := by
    rw [Bool.or_eq_true, bne_iff_ne, beq_iff_eq, ← imp_iff_not_or]
  unfold judgeable
  rw [hcaptures, Bool.and_eq_true, hslot]
  simp only [Bool.and_eq_true, beq_iff_eq, Bool.not_eq_true', and_assoc]

/-- A judgment asks of the station only its number and its slot. -/
theorem judgeable_congr {s t : State} (hm : t.member = s.member) (hs : t.coup.slot = s.coup.slot) (w : PulseWindow) :
    judgeable t w = judgeable s w := by
  unfold judgeable State.ownNo
  rw [hm, hs]

/-! ## What a judgment changes (R157) -/

/-- What an own sensor's turn makes of its record `r`. -/
def judgedRecord (w : PulseWindow) (s : State) (c : Channel) (r : CouplingRecord) : CouplingRecord :=
  if Block.refPulser s.block (4 * (s.ownNo - 1) + chNo c) = stNo w.pulser
  then (judgeRecord (passLevel s (4 * (s.ownNo - 1) + chNo c)) (w.captures.get c) r).1 else r

/-- The own sensors' turns leave these as they are. -/
structure JudgingKeeps (s t : State) : Prop where
  tracker : t.tracker = s.tracker
  member : t.member = s.member
  evid : t.evid = s.evid
  agree : t.agree = s.agree
  block : t.block = s.block
  window : t.coup.window = s.coup.window
  counts : t.coup.counts = s.coup.counts

theorem sensorJudged_judgingKeeps (w : PulseWindow) (s : State) (c : Channel) : JudgingKeeps s (sensorJudged w s c) := by
  unfold sensorJudged
  split
  next =>
    refine ⟨rfl, rfl, rfl, rfl, ?_, rfl, rfl⟩
    dsimp only
    split
    next => rfl
    next => exact raise_block _ s
  next => exact ⟨rfl, rfl, rfl, rfl, rfl, rfl, rfl⟩

theorem JudgingKeeps.judgedRecord {s t : State} (h : JudgingKeeps s t) (w : PulseWindow) (c : Channel) (r : CouplingRecord) :
    judgedRecord w t c r = judgedRecord w s c r := by
  unfold Machine.judgedRecord passLevel State.ownNo
  rw [h.block, h.member]

theorem sensorJudged_record (w : PulseWindow) (s : State) (c : Channel) :
    (sensorJudged w s c).coup.records.get c = judgedRecord w s c (s.coup.records.get c) := by
  unfold sensorJudged judgedRecord
  split
  next => exact Four.get_set _ _ _
  next => rfl

theorem sensorJudged_otherRecord (w : PulseWindow) (s : State) {c d : Channel} (hd : d ≠ c) :
    (sensorJudged w s c).coup.records.get d = s.coup.records.get d := by
  unfold sensorJudged
  split
  next => exact Four.get_set_ne _ _ hd
  next => rfl

/-- The own sensors' turns, each once: every sensor's record is judged as the station stood before them. -/
theorem sensorsJudged_records (w : PulseWindow) {ds : List Channel} (hds : ds.Nodup) (s : State) :
    JudgingKeeps s (ds.foldl (sensorJudged w) s) ∧ ∀ c, (ds.foldl (sensorJudged w) s).coup.records.get c =
      if c ∈ ds then judgedRecord w s c (s.coup.records.get c) else s.coup.records.get c := by
  induction ds generalizing s with
  | nil => exact ⟨⟨rfl, rfl, rfl, rfl, rfl, rfl, rfl⟩, fun _ => rfl⟩
  | cons d ds ih =>
    obtain ⟨hd, hds⟩ := List.nodup_cons.mp hds
    have hone := sensorJudged_judgingKeeps w s d
    obtain ⟨hrest, hrecords⟩ := ih hds (sensorJudged w s d)
    refine ⟨⟨hrest.tracker.trans hone.tracker, hrest.member.trans hone.member, hrest.evid.trans hone.evid,
      hrest.agree.trans hone.agree, hrest.block.trans hone.block, hrest.window.trans hone.window, hrest.counts.trans hone.counts⟩,
      fun c => (hrecords c).trans ?_⟩
    by_cases hc : c = d
    · subst hc
      rw [if_neg hd, if_pos List.mem_cons_self, sensorJudged_record]
    · simp only [hone.judgedRecord, sensorJudged_otherRecord w s hc, List.mem_cons, hc, false_or]

/-- The judgment of a window: the window gone and counted, the records judged, the tables alone (R156, R157). -/
theorem windowJudged_outcome (w : PulseWindow) (s : State) :
    (windowJudged w s).coup.window = none ∧
      (windowJudged w s).coup.counts.judged = min (s.coup.counts.judged + 1) 65535 ∧
      (∀ c, (windowJudged w s).coup.records.get c = judgedRecord w s c (s.coup.records.get c)) ∧
      (windowJudged w s).tracker = s.tracker ∧ (windowJudged w s).evid = s.evid ∧ (windowJudged w s).agree = s.agree := by
  obtain ⟨hkeeps, hrecords⟩ := sensorsJudged_records w (ds := [.c1, .c2, .c3, .c4]) (by decide)
    { s with coup := { s.coup with
      window := none, counts := { s.coup.counts with judged := min (s.coup.counts.judged + 1) 65535 } } }
  refine ⟨hkeeps.window, congrArg (·.judged) hkeeps.counts, fun c => (hrecords c).trans (if_pos ?_), hkeeps.tracker, hkeeps.evid,
    hkeeps.agree⟩
  cases c <;> decide

/-! ## What follows a change that may end the wait of a window in JUDGING (R156) -/

/-- A window that has been judged, or may not be judged, is not judged again. -/
theorem judgeIfReady_twice {s : State} {w : PulseWindow} (hw : s.coup.window = some w) (hn : NoFlips s) (ha : s.atWork = true)
    (hwait : NoWaiting s) : judgeIfReady (judgeIfReady s) = if judgeable s w = true then windowJudged w s else s := by
  rw [judgeIfReady_sound w hw hn ha hwait]
  split
  next => exact judgeIfReady_none (windowJudged_outcome w s).1
  next hno => rw [judgeIfReady_sound w hw hn ha hwait, if_neg hno]

/-- The pulse is reported over: the slot FIRING is NONE, and the window is judged once it may be (R152, R156). -/
theorem pulseReported_judges {s : State} {w : PulseWindow} (hs : s.coup.slot = .firing) (hw : s.coup.window = some w) (hn : NoFlips s)
    (ha : s.atWork = true) : judgeIfReady (pulseReported s) =
      if judgeable (setSlot .none s) w = true then windowJudged w (setSlot .none s) else setSlot .none s := by
  unfold pulseReported
  rw [hs]
  exact judgeIfReady_twice (by exact hw) (by exact hn) (by exact ha) nofun

/-- The pulse of a waiting slot, offered in time, would meet a full transmit queue, its sensor not being DEAD (R46, R151). -/
structure RefusesPulse (s : State) (c : Channel) (tag : Tag) : Prop where
  slot : s.coup.slot = .waiting tag
  inTime : later s.now (tag + halfSpacing s) = false
  channel : pulseChannel s = some c
  full : 12 ≤ s.link.queue.length
  live : (s.coup.records.get c).state ≠ .dead

theorem RefusesPulse.setUnit {s : State} {c : Channel} {tag : Tag} (h : RefusesPulse s c tag) (u : ChannelUnit) :
    RefusesPulse (s.setUnit c u) c tag := ⟨h.slot, h.inTime, h.channel, h.full, h.live⟩

/-- An offer that the channel takes and the transmit queue refuses ends the slot, and the window is judged once it may be (R151, R156). -/
theorem RefusesPulse.judges {s : State} {w : PulseWindow} {tag : Tag} {c : Channel} (h : RefusesPulse s c tag) (hn : NoFlips s)
    (ha : s.atWork = true) (hw : s.coup.window = some w) (hu : armable (s.channels.units.get c) = true) : reofferThenJudge s =
      if judgeable (slotRefused c s) w = true then windowJudged w (slotRefused c s) else slotRefused c s := by
  rw [reofferThenJudge_waiting h.slot, reofferPulse_refused hn h.slot h.inTime h.channel hu h.full h.live]
  exact judgeIfReady_sound w (by exact hw) (by exact hn) (by exact ha) nofun

end Sys2Proof.Machine
end

section
/-! PROOFS. The commands that a window in JUDGING may have waited for, with sound stores (R151, R152, R156): a sample that ends its last
capture, a sample loss, the end of the recovery time, and an offer of the pulse that is refused. -/

namespace Sys2Proof.Machine

/-! ## A notice and the blocks (R174) -/

section
variable (n : Notice) (s : State)

theorem raise_coup : (raise n s).coup = s.coup := by rw [raise_eq, withPort_coup]
theorem raise_member : (raise n s).member = s.member := by rw [raise_eq, withPort_member]
theorem raise_channels : (raise n s).channels = s.channels := by rw [raise_eq, withPort_channels]
theorem raise_link : (raise n s).link = s.link := by rw [raise_eq, withPort_link]
theorem raise_now : (raise n s).now = s.now := by rw [raise_eq, withPort_now]
theorem raise_atWork : (raise n s).atWork = s.atWork := by
  unfold State.atWork
  rw [raise_member]

theorem halfSpacing_raise : halfSpacing (raise n s) = halfSpacing s := by
  unfold halfSpacing
  rw [raise_block]

theorem pulseChannel_raise : pulseChannel (raise n s) = pulseChannel s := by
  unfold pulseChannel State.ownNo
  rw [raise_block, raise_member]

theorem listenState_raise : listenState (raise n s) = listenState s := by
  unfold listenState State.listening State.windowOpen
  rw [raise_block, raise_coup, raise_eq]
  rfl

/-- A notice is the same before and after a change that leaves the Board Port alone. -/
theorem raise_samePort {t : State} (h : t.port = s.port) : raise n t = t.withPort (raise n s).port := by
  rw [raise_eq, raise_port n h]

theorem setSlot_raise (v : Slot) : setSlot v (raise n s) = raise n (setSlot v s) := by
  rw [raise_samePort n s (t := setSlot v s) rfl]
  unfold setSlot
  rw [raise_eq]
  rfl

theorem slotRefused_raise (c : Channel) : slotRefused c (raise n s) = raise n (slotRefused c s) := by
  rw [raise_samePort n s (t := slotRefused c s) rfl]
  unfold slotRefused
  rw [listenState_raise, raise_eq]
  rfl

theorem RefusesPulse.raise {c : Channel} {tag : Tag} (h : RefusesPulse s c tag) : RefusesPulse (raise n s) c tag where
  slot := by rw [raise_coup]; exact h.slot
  inTime := by rw [raise_now, halfSpacing_raise]; exact h.inTime
  channel := by rw [pulseChannel_raise]; exact h.channel
  full := by rw [raise_link]; exact h.full
  live := by rw [raise_coup]; exact h.live

end

/-! ## The loss of a channel's samples (R33, R152) -/

/-- A kept capture that was open on the lost channel is withdrawn (R33, R155). -/
theorem loseChannel_capture {s : State} {w : PulseWindow} {c : Channel} {h : OpenHit} (ho : (s.channels.units.get c).openHit = some h)
    (hk : h.kind = .capture) (hw : s.coup.window = some w) (hc : w.captures.get c = .started h.arrival) : loseChannel c s =
      (s.setUnit c (lostUnit (s.channels.units.get c))).withCoup
        { s.coup with window := some { w with captures := w.captures.set c .withdrawn } } := by
  rw [loseChannel_eq, ho]
  unfold discardHit
  dsimp only
  rw [hk]
  exact settleCapture_kept (s := s.setUnit c (lostUnit (s.channels.units.get c))) hw hc _

theorem loseChannel_noHit {s : State} {c : Channel} (ho : (s.channels.units.get c).openHit = none) :
    loseChannel c s = s.setUnit c (lostUnit (s.channels.units.get c)) := by
  rw [loseChannel_eq, ho]
  rfl

/-- The Coupling Unit is told of a lost channel that was armed or pulsed alone (R33). -/
theorem tellLoss_inHit {u : ChannelUnit} (h : u.state = .inHit) (s : State) : tellLoss u s = s := by
  simp [tellLoss, h]

theorem tellLoss_pulsing {u : ChannelUnit} (h : u.state = .pulsing ∨ u.state = .recover) (s : State) :
    tellLoss u s = pulseReported s := by
  unfold tellLoss
  rw [if_neg (by rintro ⟨hh, -⟩; rw [hh] at h; simp at h), if_pos h]

/-! ## The return to LISTEN after a pulse (R37, R158) -/

theorem setUnit_get (s : State) (c : Channel) : s.setUnit c (s.channels.units.get c) = s := by
  unfold State.setUnit
  rw [show s.channels.units.set c (s.channels.units.get c) = s.channels.units by cases c <;> rfl]
  rfl

/-- A mute request to a channel without an open hit changes that channel alone (R38). -/
theorem muteChannel_noHit {s : State} {c : Channel} (ho : (s.channels.units.get c).openHit = none) (listen : Bool) :
    muteChannel c s = s.setUnit c (askedUnit listen .mute (s.channels.units.get c)) := by
  unfold muteChannel askedUnit
  dsimp only
  split
  next => exact (setUnit_get s c).symm
  next =>
    unfold disableChannel disableInto
    rw [ho]
    rfl

theorem listenState_shut {s : State} {w : PulseWindow} (hw : s.coup.window = some w) (hstage : w.stage = .judging) :
    listenState s = if s.listening then .quiet else .hush := by
  unfold listenState
  rw [windowOpen_some hw, hstage]
  exact congrArg (fun b : Bool => if b then ChannelState.quiet else .hush) (Bool.or_false _)

theorem returnToListen_noHit {s : State} {c : Channel} (hn : NoFlips s) (ho : (s.channels.units.get c).openHit = none)
    (listen : Bool) : returnToListen c s = s.setUnit c (if (s.coup.records.get c).state = .dead
      then askedUnit listen .mute (listeningUnit s (s.channels.units.get c)) else listeningUnit s (s.channels.units.get c)) := by
  rw [returnToListen_sound hn]
  split
  next hd =>
    rw [remute_dead (by exact hd), muteChannel_noHit (by rw [setUnit_channels, Four.get_set]; exact ho) listen, setUnit_setUnit,
      setUnit_channels, Four.get_set]
  next hd => rw [remute_live (by exact hd)]

/-! ## A refused offer (R34, R30, R151) -/

/-- A channel that has just been written is refused its pulse. -/
theorem slotRefused_setUnit (s : State) (c : Channel) (u : ChannelUnit) : slotRefused c (s.setUnit c u) =
    skipSlot (s.setUnit c { u with role := .listen, state := listenState s, pulseTimer := none }) := by
  unfold slotRefused
  rw [setUnit_setUnit, setUnit_channels, Four.get_set]
  rfl

/-- A LISTEN channel in the state of its listen setting can take a pulse (R24, R36). -/
theorem armable_listening {u : ChannelUnit} {s : State} (hr : u.role = .listen) (hs : u.state = listenState s) (c : Channel) :
    armable ((s.setUnit c u).channels.units.get c) = true := by
  rw [setUnit_channels, Four.get_set]
  refine (armable_iff u).mpr ⟨hr, ?_⟩
  rw [hs]
  unfold listenState
  split
  next => exact Or.inl rfl
  next => exact Or.inr rfl

/-- A recovery that is due, in a station at work (R34). -/
theorem exec_sampleRecovery_returns {m : Moment} {s : State} {ch : Channel} {start last : Tag} (hS : Sound m s) (hw : s.atWork = true)
    (hwatch : (s.channels.units.get ch).watch = .lost (some (start, last))) (hspan : 1000 ≤ elapsed m.tag start)
    (hgap : elapsed m.tag last < 8) (ho : (s.channels.units.get ch).openHit = none) : exec (.sampleRecovery m ch) s =
      .next (afterRecovery ch ((s.withNow m.tag).setUnit ch (returnedUnit ch last (s.withNow m.tag)))) := by
  have hdue : recoveredAt ch (s.withNow m.tag) = some last := by
    have hwork : (s.withNow m.tag).atWork = true := hw
    simp [recoveredAt, hwatch, hwork, recoverySpan, lossGap, hspan, hgap]
  rw [exec_sampleRecovery_quiet m ch s hS.noFaultToFind, hdue]
  dsimp only
  rw [usingConfig_sound (by exact hS.noFlips)]
  unfold sampleRecovered
  rw [recoverChannel_returns (by exact ho), unlessFrozen_live (by exact atWork_not_frozen hw)]

end Sys2Proof.Machine
end

section
/-! PROOFS. The judgment of a pulse window, each way to it and what it makes of a coupling record (R151 to R158). -/

namespace Sys2Proof.Machine

/-! ## The record of one sensor (R157) -/

theorem judgeRecord_missed {cap : Capture} (hcap : ∀ p, cap ≠ .peaked p) (pass : Nat) (r : CouplingRecord) : judgeRecord pass cap r =
    if r.state = .dead then (r, .none)
    else if 2 ≤ r.misses + 1 then ({ r with state := .dead, misses := 2 }, .mute)
    else ({ r with misses := r.misses + 1 }, .none) := by
  unfold judgeRecord
  split
  next p => exact absurd rfl (hcap p)
  next => rfl

/-! ## The ways out of JUDGING -/

section
variable {m : Moment} {s : State} {w : PulseWindow} {ch : Channel}

/-- A sample that ends the hit of a kept capture settles it, and the window is judged once it may be (R28, R155, R156). -/
theorem exec_sample_settles {v : Half} {h : OpenHit} (hS : Sound m s) (hw : s.atWork = true) (hwin : s.coup.window = some w)
    (hwait : NoWaiting s) (hi : (s.channels.units.get ch).state = .inHit) (ho : (s.channels.units.get ch).openHit = some h)
    (hk : h.kind = .capture) (hc : w.captures.get ch = .started h.arrival)
    (hend : Block.hitCapMs s.block * 1000 ≤ elapsed m.tag h.arrival ∨
      (amplitude (envelope v) < h.threshold ∧ Block.hdt s.block ≤ elapsed m.tag h.lastCrossing))
    {w' : PulseWindow} (hw' : w' = { w with captures := w.captures.set ch (.peaked h.peak) }) {u : ChannelUnit}
    (hu : u = { s.channels.units.get ch with
      watch := watchSample m.tag (s.channels.units.get ch).watch, state := .lockout, openHit := none
      lockout := some (m.tag + span (Block.hlt s.block)) })
    {found : State} (hfound : found = { s.withNow m.tag with
      channels := { s.channels with units := s.channels.units.set ch u }, coup := { s.coup with window := some w' } }) :
    exec (.sample m ch v) s = .next (if judgeable s w' = true then windowJudged w' found else found) := by
  have hsettled : settleCapture ch h.arrival (.peaked h.peak) ((s.withNow m.tag).setUnit ch u) = found := by
    rw [settleCapture_kept (s := (s.withNow m.tag).setUnit ch u) hwin hc, ← hw', hfound]
    rfl
  have hcoup : found.coup = { s.coup with window := some w' } := by rw [hfound]
  rw [exec_sample_ends hS hw hi ho hend, ← hu, completeHit_capture hk, show (hitFeatures _ h).peak = h.peak from rfl, hsettled,
    judgeIfReady_sound w' (congrArg (·.window) hcoup) (by rw [hfound]; exact hS.noFlips) (by rw [hfound]; exact hw)
      (by rw [hfound]; exact hwait), judgeable_congr (s := s) (by rw [hfound]; rfl) (congrArg (·.slot) hcoup)]

/-- The loss of a channel with a kept capture open withdraws it, and the window is judged once it may be (R33, R155, R156). -/
theorem exec_sampleLoss_withdraws {last : Tag} {h : OpenHit} (hS : Sound m s) (hw : s.atWork = true) (hwin : s.coup.window = some w)
    (hwait : NoWaiting s) (hi : (s.channels.units.get ch).state = .inHit) (ho : (s.channels.units.get ch).openHit = some h)
    (hk : h.kind = .capture) (hc : w.captures.get ch = .started h.arrival) (hwatch : (s.channels.units.get ch).watch = .watching last)
    (hgap : 8 ≤ elapsed m.tag last) {w' : PulseWindow} (hw' : w' = { w with captures := w.captures.set ch .withdrawn })
    {found : State} (hfound : found = raise ⟨s.tracker.cycle, packSensor s.ownNo (chNo ch), .sampleLoss true⟩ { s.withNow m.tag with
      channels := { s.channels with units := s.channels.units.set ch (lostUnit (s.channels.units.get ch)) }
      coup := { s.coup with window := some w' } }) :
    exec (.sampleLoss m ch) s = .next (if judgeable s w' = true then windowJudged w' found else found) := by
  have hcoup : found.coup = { s.coup with window := some w' } := by rw [hfound, raise_coup]
  have hmember : found.member = s.member := by rw [hfound, raise_member]; rfl
  have hraised : afterLoss ch (s.channels.units.get ch) (loseChannel ch (s.withNow m.tag)) =
      judgeIfReady (tellLoss (s.channels.units.get ch) found) := by
    rw [loseChannel_capture (s := s.withNow m.tag) ho hk hwin hc, hfound, hw']
    rfl
  rw [exec_sampleLoss_due hS hw (by rw [hi]; exact nofun) hwatch hgap, hraised, tellLoss_inHit hi,
    judgeIfReady_sound w' (congrArg (·.window) hcoup) (by rw [hfound]; exact raise_noFlips _ hS.noFlips)
      (by unfold State.atWork; rw [hmember]; exact hw) (fun t => by rw [hcoup]; exact hwait t),
    judgeable_congr hmember (congrArg (·.slot) hcoup)]

/-- The loss of a channel that pulses ends the slot, and the window is judged once it may be (R33, R152, R156). -/
theorem exec_sampleLoss_cutsPulse {last : Tag} (hS : Sound m s) (hw : s.atWork = true) (hwin : s.coup.window = some w)
    (hst : (s.channels.units.get ch).state = .pulsing ∨ (s.channels.units.get ch).state = .recover)
    (ho : (s.channels.units.get ch).openHit = none) (hslot : s.coup.slot = .firing)
    (hwatch : (s.channels.units.get ch).watch = .watching last) (hgap : 8 ≤ elapsed m.tag last)
    {found : State} (hfound : found = raise ⟨s.tracker.cycle, packSensor s.ownNo (chNo ch), .sampleLoss true⟩ { s.withNow m.tag with
      channels := { s.channels with units := s.channels.units.set ch (lostUnit (s.channels.units.get ch)) }
      coup := { s.coup with slot := .none } }) :
    exec (.sampleLoss m ch) s = .next (if judgeable found w = true then windowJudged w found else found) := by
  have hoff : (s.channels.units.get ch).state ≠ .off := by rintro h; rw [h] at hst; simp at hst
  rw [exec_sampleLoss_due hS hw hoff hwatch hgap, loseChannel_noHit (s := s.withNow m.tag) ho]
  unfold afterLoss raiseNow
  rw [tellLoss_pulsing hst, pulseReported_judges (s := raise _ _) (by rw [raise_coup]; exact hslot) (w := w)
    (by rw [raise_coup]; exact hwin) (raise_noFlips _ (by exact hS.noFlips)) (by rw [raise_atWork]; exact hw), setSlot_raise, hfound]
  rfl

/-- The end of the recovery time ends the slot, and the window is judged once it may be (R37, R152, R156, R158). -/
theorem exec_recoveryEnd_judges {d : Tag} {back : ChannelUnit} (hS : Sound m s) (hw : s.atWork = true) (hwin : s.coup.window = some w)
    (hjudging : w.stage = .judging) (hst : (s.channels.units.get ch).state = .recover)
    (ho : (s.channels.units.get ch).openHit = none) (hslot : s.coup.slot = .firing)
    (hd : (s.channels.units.get ch).pulseTimer = some d) (hr : reached m.tag d = true)
    (hback : back = { s.channels.units.get ch with
      role := .listen, state := if s.listening then .quiet else .hush, pulseTimer := none })
    {u : ChannelUnit} (hu : u = if (s.coup.records.get ch).state = .dead then askedUnit s.listening .mute back else back)
    {found : State} (hfound : found = { s.withNow m.tag with
      channels := { s.channels with units := s.channels.units.set ch u }, coup := { s.coup with slot := .none } }) :
    exec (.recoveryEnd m ch) s = .next (if judgeable found w = true then windowJudged w found else found) := by
  have hlistens : listeningUnit (s.withNow m.tag) (s.channels.units.get ch) = back := by
    unfold listeningUnit
    rw [hback, listenState_shut (s := s.withNow m.tag) hwin hjudging]
    rfl
  have hreturned : returnToListen ch (s.withNow m.tag) = (s.withNow m.tag).setUnit ch u := by
    rw [returnToListen_noHit (by exact hS.noFlips) (by exact ho) s.listening, hu, ← hlistens]
    rfl
  rw [exec_recoveryEnd_due hS hw hst hd hr]
  unfold endRecovery
  rw [hreturned, unlessFrozen_live (by exact atWork_not_frozen hw), pulseReported_judges (by exact hslot) (w := w) (by exact hwin)
    (by exact hS.noFlips) (by exact hw), hfound]
  rfl

/-- The lockout of the pulse channel ends, the pulse is refused, and the window is judged once it may be (R30, R151, R156). -/
theorem exec_lockoutTimerExpiry_refused {d tag : Tag} {u : ChannelUnit} (hS : Sound m s) (hw : s.atWork = true)
    (hwin : s.coup.window = some w) (hjudging : w.stage = .judging) (hrefuses : RefusesPulse (s.withNow m.tag) ch tag)
    (hst : (s.channels.units.get ch).state = .lockout) (hrole : (s.channels.units.get ch).role = .listen)
    (hd : (s.channels.units.get ch).lockout = some d) (hr : reached m.tag d = true)
    (hu : u = { s.channels.units.get ch with
      state := if s.listening then .quiet else .hush, lockout := none, pulseTimer := none })
    {found : State} (hfound : found = skipSlot ((s.withNow m.tag).setUnit ch u)) :
    exec (.lockoutTimerExpiry m ch) s = .next (if judgeable found w = true then windowJudged w found else found) := by
  have hlistens : afterLockout (s.channels.units.get ch) (s.withNow m.tag) = listenState (s.withNow m.tag) :=
    afterLockout_listens (by rw [hrole]; exact nofun) _
  have hrefused : slotRefused ch ((s.withNow m.tag).setUnit ch { s.channels.units.get ch with
      state := afterLockout (s.channels.units.get ch) (s.withNow m.tag), lockout := none }) = found := by
    rw [slotRefused_setUnit, hfound, hu, listenState_shut (s := s.withNow m.tag) hwin hjudging, ← hrole]
    rfl
  rw [exec_lockoutTimerExpiry_due hS hw hst hd hr, ← hrefused]
  exact congrArg Host.Outcome.next ((hrefuses.setUnit _).judges (by exact hS.noFlips) (by exact hw) (by exact hwin)
    (armable_listening (by exact hrole) (by exact hlistens) ch))

/-- The pulse channel returns from a sample loss, the pulse is refused, and the window is judged once it may be (R34, R151, R156). -/
theorem exec_sampleRecovery_refused {start last tag : Tag} {u : ChannelUnit} (hS : Sound m s) (hw : s.atWork = true)
    (hwin : s.coup.window = some w) (hjudging : w.stage = .judging) (hrefuses : RefusesPulse (s.withNow m.tag) ch tag)
    (hwatch : (s.channels.units.get ch).watch = .lost (some (start, last))) (hspan : 1000 ≤ elapsed m.tag start)
    (hgap : elapsed m.tag last < 8) (ho : (s.channels.units.get ch).openHit = none)
    (hu : u = { s.channels.units.get ch with
      state := if s.listening then .quiet else .hush, role := .listen, floorWindow := [], openHit := none
      lockout := none, pulseTimer := none, watch := .watching last })
    {back : State} (hback : back = raise ⟨s.tracker.cycle, packSensor s.ownNo (chNo ch), .sampleLoss false⟩
      (skipSlot ((s.withNow m.tag).setUnit ch u))) :
    exec (.sampleRecovery m ch) s = .next (if judgeable back w = true then windowJudged w back else back) := by
  have hlive : ¬ ((s.withNow m.tag).coup.records.get ch).state = .dead := hrefuses.live
  have hrefused (n : Notice) : slotRefused ch (raise n ((s.withNow m.tag).setUnit ch (returnedUnit ch last (s.withNow m.tag)))) =
      raise n (skipSlot ((s.withNow m.tag).setUnit ch u)) := by
    rw [slotRefused_raise, slotRefused_setUnit, hu, listenState_shut (s := s.withNow m.tag) hwin hjudging]
    rfl
  rw [exec_sampleRecovery_returns hS hw hwatch hspan hgap ho]
  unfold afterRecovery raiseNow
  rw [((hrefuses.setUnit _).raise _ _).judges (w := w) (raise_noFlips _ (by exact hS.noFlips)) (by rw [raise_atWork]; exact hw)
    (by rw [raise_coup]; exact hwin)
    (by rw [raise_channels]; exact armable_listening (if_neg hlive) (if_neg hlive) ch), hrefused, hback]
  rfl

end

/-- Settles O47: the fire tag, the end tag, each way out of JUDGING, and the judgment of one record. -/
theorem pulseWindowJudged : Obligations.PulseWindowJudged := by
  refine ⟨fun m s w hS hw hwin hwait => ⟨fun hstage hr => ?_, fun hstage hr hno => ?_, fun hstage hr hyes => ?_, ?_⟩,
    fun m s found w w' ch u hS hw hwin hjudging hwait => ⟨fun v h hi ho hk hc hend hw' hu hfound => ?_,
      fun last h hi ho hk hc hwatch hgap hw' hu hfound => ?_, fun last hst ho hslot hwatch hgap hu hfound => ?_,
      fun d back hst ho hslot hd hr hback hu hfound => ?_⟩,
    fun m s found w ch tag u hS hw hwin hjudging hslot hl hc hq hd hfound => ⟨fun d hst hrole hlock hr hu => ?_,
      fun start last back hwatch hspan hgap ho hu hback => ?_⟩,
    fun pass r cap => ⟨fun p hp => ?_, fun p hp => ?_, fun p => rfl, fun hcap hd => ?_, fun hcap hd hm => ?_, fun hcap hd hm => ?_⟩⟩
  · rw [exec_windowFireTag_due hS hw hwin hstage hr, openWindow_opens (s := s.withNow m.tag) hwin, reofferPulse_idle (by exact hwait)]
    rfl
  · rw [exec_endTagReached_due hS hw hwin hstage hr hwait, if_neg (by rw [hno]; exact Bool.false_ne_true)]
    rfl
  · obtain ⟨hnone, hjudged, hrecords, htracker, hevid, hagree⟩ := windowJudged_outcome w (windowClosed w (s.withNow m.tag))
    rw [exec_endTagReached_due hS hw hwin hstage hr hwait, if_pos hyes]
    exact ⟨_, rfl, hnone, hjudged, fun c hc => (hrecords c).trans (if_pos hc), fun c hc => (hrecords c).trans (if_neg hc), htracker, hevid,
      hagree, rfl⟩
  · rw [judgeable_iff]
    exact and_iff_right rfl
  · exact exec_sample_settles hS hw hwin hwait hi ho hk hc hend hw' hu hfound
  · exact exec_sampleLoss_withdraws hS hw hwin hwait hi ho hk hc hwatch hgap hw' (by rw [hfound, hu]; rfl)
  · exact exec_sampleLoss_cutsPulse hS hw hwin hst ho hslot hwatch hgap (by rw [hfound, hu]; rfl)
  · exact exec_recoveryEnd_judges hS hw hwin hjudging hst ho hslot hd hr hback hu hfound
  · exact exec_lockoutTimerExpiry_refused hS hw hwin hjudging ⟨hslot, by rw [withNow_now]; exact hl, hc, hq, hd⟩ hst hrole hlock hr hu hfound
  · exact exec_sampleRecovery_refused hS hw hwin hjudging ⟨hslot, by rw [withNow_now]; exact hl, hc, hq, hd⟩ hwatch hspan hgap ho hu
      (by rw [hback, hfound]; rfl)
  · simp [judgeRecord, hp]
  · simp [judgeRecord, not_le.mpr hp]
  · rw [judgeRecord_missed hcap, if_pos hd]
  · rw [judgeRecord_missed hcap, if_neg hd, hm]
    rfl
  · rw [judgeRecord_missed hcap, if_neg hd, if_pos (by omega)]

end Sys2Proof.Machine
end

section
/-! PROOFS. Where a PULSE frame's placing fails: a slot that waits is offered again (R151), and the offer can reach the Hit Window (R35, R36,
R80, R158), which the statement of R154 and R159 has unchanged. -/

namespace Sys2Proof.Machine

/-! ## A station whose Hit Window a PULSE frame changes -/

/-- An own hit of station 1's channel 1 that arrived at 0. -/
def keptOwnHit : OpenHit :=
  { kind := .own, arrival := 0, phase := .idle, threshold := 0, level := 0, peak := 0, peakTag := 0, crossings := 1, lastCrossing := 0
    below := false, energySum := 0, saturated := false, cycleGone := false }

/-- A QUIET channel that still keeps that hit open. -/
def quietWithHit : ChannelUnit := { ChannelUnit.reset with state := .quiet, role := .listen, openHit := some keptOwnHit }

/-- Station 2's PULSE frame, cycle number unset, received at 0. -/
def pulseOfStation2 : RxFrame := ⟨frameBytes .pulse 2 0 none (pulseBytes 1), 0, false⟩

/-- Station 1 RUNNING with that frame held: its slot waits for channel 1, whose sensor is DEAD and whose open hit is in the Hit Window, and
its transmit queue is full. -/
def waitingWithHit : State :=
  { State.reset with
    channels := { Channels.reset with units := .all quietWithHit }
    link := { Link.reset with
      queue := List.replicate 12 ⟨0, .presence, [], 0⟩
      lanes := Link.reset.lanes.set .x { LaneUnit.reset with hold := some pulseOfStation2 } }
    member := { Membership.reset with
      station := .running, number := some .s1
      peers := Membership.reset.peers.set .s2 { PeerRecord.reset with state := .present, fingerprint := some 0 } }
    coin := { Coincidence.reset with window := [⟨⟨1, 1, 0⟩, 0, .idle, none, true⟩] }
    coup := { CouplingUnit.reset with records := .all ⟨.dead, none, 2⟩, slot := .waiting 0 }
    port := { BoardPort.reset with config := some (List.replicate 0x68 0 ++ [1]) } }

/-- The Hit Window that a step leaves. -/
def windowLeft : Host.Outcome State Fault Refusal → List HitEntry
  | .next t => t.coin.window
  | _ => []

set_option maxRecDepth 4000 in
theorem waitingWithHit_handed : Handed ⟨0, []⟩ waitingWithHit .x pulseOfStation2 .pulse .s2 := by
  unfold Handed Sound
  decide

/-- As the frame finds the station, the hit is in the Hit Window. -/
theorem frameFinds_waitingWithHit :
    (frameFinds ⟨0, []⟩ pulseOfStation2 .s2 waitingWithHit).coin.window = [⟨⟨1, 1, 0⟩, 0, .idle, none, true⟩] := by
  decide

set_option maxRecDepth 4000 in
/-- The window is placed, the refused offer mutes the channel, and its hit leaves the Hit Window. -/
theorem exec_waitingWithHit : windowLeft (exec (.frameHandlerTake ⟨0, []⟩) waitingWithHit) = [] := by
  decide

/-- Refutes O46: a placed window offers a waiting pulse again (R151); the channel takes the offer, the full transmit queue refuses it, and the
release mutes a channel whose sensor is DEAD (R36, R158), which discards the own hit that it keeps open (R35): the Coincidence Unit is not
as the frame found it. The statement's premises allow an open hit outside IN-HIT and ask for NoWaiting of the last clauses alone. -/
theorem not_pulseFramesPlaceWindow : ¬ Obligations.PulseFramesPlaceWindow := by
  intro h
  obtain ⟨t, hexec, -, hcoin, -⟩ := h ⟨0, []⟩ waitingWithHit .x pulseOfStation2 .s2 _ _ _ _ waitingWithHit_handed rfl rfl rfl rfl
  have hleft : t.coin.window = [] := (congrArg windowLeft hexec).symm.trans exec_waitingWithHit
  rw [hcoin, frameFinds_waitingWithHit] at hleft
  cases hleft

end Sys2Proof.Machine
end

section
/-! PROOFS. Where the stores' words are read (R161, R163, R166): what makes a word faulty, and the reads of the scrub and of READ SEGMENT,
whatever bits have flipped. -/

namespace Sys2Proof.Machine

section
variable {m : Moment} {s : State}

theorem frozen_linkUp (hf : s.member.station = .frozen) : s.linkUp = true := by
  unfold State.linkUp
  rw [hf]
  exact Bool.or_true _

theorem frozen_not_atWork (hf : s.member.station = .frozen) : s.atWork = false := by
  unfold State.atWork
  rw [hf]
  rfl

/-- A listed flip makes its word faulty, unless the word is set aside (R161, R163). -/
theorem badParity_of_flip {w : StoreWord} (h : ∃ u ∈ s.fault.flipped, u.word = w) (ha : s.fault.faultedWord ≠ some w) :
    badParity s w = true := by
  obtain ⟨u, hu, rfl⟩ := h
  unfold badParity
  rw [Bool.and_eq_true, bne_iff_ne]
  exact ⟨List.any_eq_true.mpr ⟨u, hu, beq_self_eq_true _⟩, ha⟩

/-- A word without a listed flip, and the word set aside, are read as sound (R161, R163). -/
theorem badParity_of_sound {w : StoreWord} (h : (∀ u ∈ s.fault.flipped, u.word ≠ w) ∨ s.fault.faultedWord = some w) :
    badParity s w = false := by
  unfold badParity
  rcases h with h | h
  · rw [List.any_eq_false.mpr fun u hu => by simpa using h u hu]
    rfl
  · rw [h, bne_self_eq_false, Bool.and_false]

/-- A command that brings no upset has its effect at its moment, and the access timeout of a freezing step is looked at after it. -/
theorem atMoment_noUpsets (hups : m.upsets = []) (hheld : s.resetHeld = false) (f : State → State) :
    atMoment m s f = .next (lookAgain (s.withNow m.tag) (f (s.withNow m.tag))) := by
  unfold atMoment
  rw [arrive_noUpsets hups, hheld]
  rfl

/-! ## The scrub -/

/-- The station as the scrub has moved on from its word (R161). -/
def scrubbed (m : Moment) (s : State) : State :=
  (s.withNow m.tag).withFault { s.fault with scrub := scrubAfter s s.fault.scrub }

theorem exec_scrubRead_eq (hups : m.upsets = []) (hheld : s.resetHeld = false) (hl : s.linkUp = true) :
    exec (.scrubRead m) s = .next (lookAgain (s.withNow m.tag)
      (if badParity s s.fault.scrub then readFault .scrub s.fault.scrub (scrubbed m s) else scrubbed m s)) := by
  change execScrubRead m s = _
  unfold execScrubRead
  rw [atMoment_noUpsets hups hheld, if_pos (by exact hl)]
  rfl

/-! ## READ SEGMENT -/

/-- The Board Port acts on the first faulty word of its read (R161; log entry 48). -/
theorem boardReads_found {words : List StoreWord} {w : StoreWord} (h : (words.find? fun w => badParity s w) = some w)
    (f : State → State) : boardReads words f s = readFault .read w (f s) := by
  unfold boardReads
  rw [h]

/-- The station with a READ SEGMENT judged DONE, its reply the record as read (R168; log entry 35). -/
def segmentRead (m : Moment) (n : Byte) (s : State) : State :=
  (s.withNow m.tag).withPort { s.port with slot := some ⟨.readSegment, .done, segmentReply n.toNat s⟩ }

theorem exec_readSegment_eq {n : Byte} (hups : m.upsets = []) (hheld : s.resetHeld = false) (hl : s.linkUp = true)
    (hslot : s.port.slot = none) (hcheck : s.port.checking = false) (h1 : 1 ≤ n.toNat) (h2 : n.toNat ≤ Block.nSeg s.block) :
    exec (.readSegment m n) s = .next (lookAgain (s.withNow m.tag)
      (boardReads [.config 0x1A, .config 0x1B, .segment n.toNat] (fun _ => segmentRead m n s) (s.withNow m.tag))) := by
  have hrange : within 1 (Block.nSeg s.block) n.toNat = true := by simp [within, h1, h2]
  have hdone : statusOf .readSegment true (s.withNow m.tag) = .done := by
    have htaken : takenIn .readSegment (s.withNow m.tag).member.station = true := by
      simpa [takenIn] using linkUp_not_unconfigured hl
    unfold statusOf
    rw [htaken, withNow_port, hcheck]
    rfl
  have hjudged : judgeReadSegment n.toNat (s.withNow m.tag) = segmentRead m n s := by
    unfold judgeReadSegment judgeCommand
    rw [show within 1 (Block.nSeg (s.withNow m.tag).block) n.toNat = true from hrange, withNow_port, hslot]
    dsimp only
    rw [hdone]
    rfl
  change execReadSegment m n s = _
  unfold execReadSegment
  rw [atMoment_noUpsets hups hheld]
  unfold readSegmentStep boardReads readSegmentWords
  rw [if_neg (by rw [withNow_port, hslot]; simpa using (by exact hl : (s.withNow m.tag).linkUp = true)), hjudged,
    show within 1 (Block.nSeg (s.withNow m.tag).block) n.toNat = true from hrange, if_pos hdone]

end

end Sys2Proof.Machine
end

section
/-! PROOFS. How a freeze ends (R63 to R66, R161, R163 to R166): the outcome of a LOGOUT part asks for the next part, and that of the last
part, the logout timer's expiry and a second fault restart the station, whatever notices and link state it had. -/

namespace Sys2Proof.Machine

/-! ## The selection of a LOGOUT part -/

/-- Of two candidates the one of the lower class is selected (R48). -/
theorem bestCandidates_lower {c d : Candidate} (h : c.cls < d.cls) : bestCandidates [c, d] = [c] := by
  unfold bestCandidates
  cases hl : later c.tag c.tag <;> simp [h.le, not_le.mpr h, hl]

/-- A LOGOUT descriptor that waits alone is selected even where hits wait in the Own Hit Queue: no class is lower than its own (R48). -/
theorem selectFrame_logout {s : State} (d : Descriptor) (hc : s.link.current = none) (hq : s.link.queue = [d])
    (hk : d.kind = .logout) : selectFrame s = beginFrame (some d.ref) d.kind d.payload s := by
  cases hh : s.channels.queue with
  | nil => exact selectFrame_single d hc hq hh
  | cons q qs =>
    have hs : candidates s = [⟨some d.ref, frameClass d.kind, d.tag⟩, ⟨none, frameClass .hit, q.appended⟩] := by
      unfold candidates
      rw [hq, hh]
      rfl
    unfold selectFrame
    rw [hs, bestCandidates_lower (by rw [hk]; exact Nat.zero_lt_two), hc]
    simp [selectEntry, hq]

/-- The descriptor of a LOGOUT part joins an empty queue and its frame is selected at once (R46, R48, R164). -/
theorem requestLogout_alone {s : State} (p : LogoutPart) (hn : NoBadWord (s.withFault { s.fault with logout := some p }))
    (hc : s.link.current = none) (hq : s.link.queue = []) :
    requestLogout p s = beginFrame (some s.link.nextRef) .logout (logoutPayload p s)
      (enqueue .logout (logoutPayload p s) (s.withFault { s.fault with logout := some p })) := by
  have hcan : canRequest .logout (s.withFault { s.fault with logout := some p }) = true := by
    simp [canRequest, hq, queueCapacity]
  unfold requestLogout
  rw [request_quiet (s := s.withFault { s.fault with logout := some p }) _ _ _ _ (by exact hn), if_pos hcan]
  exact selectFrame_logout ⟨s.link.nextRef, .logout, logoutPayload p s, s.now⟩ hc
    (by change s.link.queue ++ [_] = _; rw [hq]; rfl) rfl

/-! ## The outcome of a LOGOUT part (R164, R165) -/

/-- The fault record with a SENT part counted (R164, R167). -/
def countedRecord (wasSent : Bool) (r : FaultRecord) : FaultRecord :=
  { r with partsSent := if wasSent then min (r.partsSent + 1) 3 else r.partsSent }

/-- The station that hears of a LOGOUT part's outcome, the part counted. -/
def partCounted (wasSent : Bool) (s : State) : State := s.withFault { s.fault with record := countedRecord wasSent s.fault.record }

theorem logoutOutcome_eq (wasSent : Bool) (s : State) : logoutOutcome wasSent s =
    match s.fault.logout with
    | some .part1 => requestLogout .part2 (partCounted wasSent s)
    | some .part2 => requestLogout .part3 (partCounted wasSent s)
    | some .part3 => selfRestart .fault (partCounted wasSent s)
    | none => partCounted wasSent s := by
  cases wasSent <;> rfl

/-- The Fault Unit is told of a LOGOUT part's outcome unless a freeze has cut that (R52, R63). -/
theorem tellOutcome_logout {c : CurrentFrame} {ref : Nat} (hk : c.kind = .logout) (hr : c.ref = some ref) (hu : c.unreported = false)
    (wasSent : Bool) (stamp : Tag) (s : State) : tellOutcome c wasSent stamp s = selectNext (logoutOutcome wasSent s) := by
  unfold tellOutcome reportOutcome
  rw [hu, hr, hk]
  rfl

/-- A current frame keeps the next from being selected (R48). -/
theorem selectNext_busy {s : State} {c : CurrentFrame} (h : s.link.current = some c) : selectNext s = s := by
  unfold selectNext
  rw [h]
  rfl

/-- The last attempt on a lane leaves the overrun counts (R62). -/
theorem frameOver_overrunSum (m : Moment) (c : CurrentFrame) (failure : Option FailCause) (s : State) :
    (frameOver m c failure s).overrunSum = s.overrunSum := by
  have hlanes : ∀ l, ((endedLink c.lane failure s.link).lanes.get l).overruns = (s.link.lanes.get l).overruns := fun l => by
    cases failure <;> cases c.lane <;> cases l <;> rfl
  unfold State.overrunSum
  exact congrArg₂ (fun x y => min (x + y) 65535) (hlanes .x) (hlanes .y)

/-- Of a FROZEN station the outcome leaves the Membership Unit, the name of the next descriptor and the last accepted frames. -/
theorem frameOver_frozen (m : Moment) (c : CurrentFrame) (failure : Option FailCause) {s : State} (hf : s.member.station = .frozen) :
    (frameOver m c failure s).member = s.member ∧ (frameOver m c failure s).link.nextRef = s.link.nextRef ∧
      (frameOver m c failure s).link.lastAccepted = s.link.lastAccepted := by
  refine ⟨?_, ?_, ?_⟩
  · unfold frameOver endMember
    rw [frozen_not_atWork hf]
    cases failure <;> rfl
  · cases failure <;> rfl
  · cases failure <;> rfl

/-! ## What a restart goes by (R64, R165) -/

/-- Where two stations agree in what a restart keeps, the restart leaves them the same. -/
theorem afterRestart_congr {s t : State} (why : RestartCause) (record : FaultRecord) (tag : Tag) (hclock : t.clock = s.clock)
    (hheld : t.resetHeld = s.resetHeld) (hnumber : t.member.number = s.member.number)
    (hprint : t.member.fingerprint = s.member.fingerprint) (hflips : t.fault.flipped = s.fault.flipped)
    (hport : ∃ notices stacked, t.port = { s.port with notices := notices, stacked := stacked }) (hfree : t.freeCount = s.freeCount)
    (hpending : t.pending = s.pending) : afterRestart why record tag t = afterRestart why record tag s := by
  obtain ⟨notices, stacked, hport⟩ := hport
  have hblock : t.block = s.block := congrArg (·.config.getD []) hport
  have hown : t.ownNo = s.ownNo := congrArg (fun n => (n.map stNo).getD 0) hnumber
  have hrestarted : restarted why record tag t = restarted why record tag s := by
    unfold restarted firstPresence peersAtStart keptFlips State.withNow State.withClock State.now
    rw [hblock, hown, hclock, hheld, hnumber, hprint, hflips, hfree, hpending, hport]
  unfold afterRestart joinFault refrozen keptFlips
  rw [hrestarted, hflips, hblock]

/-- A notice writes the queue or a stacked count (R174, R175). -/
theorem raiseAll_notices (ns : List Notice) (s : State) : ∃ notices stacked,
    (raiseAll ns s).port = { s.port with notices := notices, stacked := stacked } := by
  induction ns generalizing s with
  | nil => exact ⟨s.port.notices, s.port.stacked, rfl⟩
  | cons n ns ih =>
    obtain ⟨notices, stacked, h⟩ := ih (raise n s)
    have hone : ∃ notices stacked, (raise n s).port = { s.port with notices := notices, stacked := stacked } := by
      unfold raise
      dsimp only
      split <;> exact ⟨_, _, rfl⟩
    obtain ⟨_, _, hone⟩ := hone
    exact ⟨notices, stacked, by rw [raiseAll_cons, h, hone]⟩

/-- A restarted station has a frame to send: PRESENCE, or LOGOUT part 1 where it has frozen again (R65, R163). -/
theorem afterRestart_current (why : RestartCause) (record : FaultRecord) (tag : Tag) (s : State) :
    ∃ c, (afterRestart why record tag s).link.current = some c := by
  unfold afterRestart
  split <;> exact ⟨_, rfl⟩

/-! ## The ways out of a freeze -/

section
variable {m : Moment} {s : State} {c : CurrentFrame} {failure : Option FailCause}

/-- The station that hears of the outcome of a LOGOUT part waiting alone has an idle link. -/
theorem partCounted_idle (hqueue : ∀ d ∈ s.link.queue, c.ref = some d.ref) :
    (partCounted failure.isNone (frameOver m c failure s)).link.queue = [] :=
  overLink_queue_empty failure.isNone (by rw [endedLink_queue]; exact hqueue)

/-- The station with the next part requested and selected after the outcome of a LOGOUT part (R164). -/
def nextPart (m : Moment) (c : CurrentFrame) (failure : Option FailCause) (part : LogoutPart) (s : State) : State :=
  let told := partCounted failure.isNone (frameOver m c failure s)
  beginFrame (some told.link.nextRef) .logout (logoutPayload part told)
    (enqueue .logout (logoutPayload part told) (told.withFault { told.fault with logout := some part }))

theorem requestLogout_over (part : LogoutPart) (hq : NoFaultToFind m s) (hqueue : ∀ d ∈ s.link.queue, c.ref = some d.ref) :
    requestLogout part (partCounted failure.isNone (frameOver m c failure s)) = nextPart m c failure part s :=
  requestLogout_alone part (noBadWord_of_aside (by exact hq.2.2)) rfl (partCounted_idle hqueue)

/-- The last part's outcome restarts the station, whatever it has made of the lane and its notices (R165). -/
theorem selfRestart_over (hf : s.member.station = .frozen) :
    selfRestart .fault (partCounted failure.isNone (frameOver m c failure s)) =
      afterRestart .fault { countedRecord failure.isNone s.fault.record with
        restarts := min (s.fault.record.restarts + 1) 255 } m.tag s := by
  have hmember := (frameOver_frozen m c failure hf).1
  rw [selfRestart_eq _ _ (by change (frameOver m c failure s).member.station ≠ _; rw [hmember, hf]; decide),
    show (partCounted failure.isNone (frameOver m c failure s)).now = m.tag from withNow_now s m.tag,
    ← afterRestart_withNow _ _ m.tag s]
  exact afterRestart_congr (s := s.withNow m.tag) .fault _ m.tag rfl rfl (congrArg (·.number) hmember)
    (congrArg (·.fingerprint) hmember) rfl (raiseAll_notices _ s) rfl rfl

/-- The outcome of a FROZEN station's LOGOUT part reaches the Fault Unit (R52, R164). -/
theorem exec_ends_logout {cmd : Instr} {ref : Nat} (hq : NoFaultToFind m s) (hf : s.member.station = .frozen)
    (hcur : s.link.current = some c) (hk : c.kind = .logout) (hr : c.ref = some ref) (hu : c.unreported = false)
    (he : EndsNow m s c cmd failure) :
    exec cmd s = .next (selectNext (logoutOutcome failure.isNone (frameOver m c failure s))) := by
  obtain ⟨stamp, -, hexec⟩ := exec_ends hq (frozen_linkUp hf) hcur he
  rw [hexec, tellOutcome_logout (c := { c with lastFailure := failure.or c.lastFailure }) hk hr hu]

/-- At the logout timer's expiry a FROZEN station restarts (R165). -/
theorem exec_logoutTimerExpiry_due {d : Tag} (hups : m.upsets = []) (hheld : s.resetHeld = false) (hf : s.member.station = .frozen)
    (ht : s.fault.logoutTimer = some d) (hd : reached m.tag d = true) :
    exec (.logoutTimerExpiry m) s = .next (selfRestart .fault (s.withNow m.tag)) := by
  have hdue : logoutDue (s.withNow m.tag) = true := by
    unfold logoutDue
    rw [withNow_fault, withNow_now, ht]
    change ((s.member.station == .frozen) && reached m.tag d) = true
    rw [hf, hd]
    rfl
  change execLogoutTimerExpiry m s = _
  unfold execLogoutTimerExpiry
  rw [atMoment_live hups hheld _ (Or.inl (frozen_not_atWork hf)), if_pos hdue]

/-- A second fault, wherever it is found, restarts the station with the double-fault flag (R166). -/
theorem readFault_frozen (kind : FaultKind) (w : StoreWord) (hf : s.member.station = .frozen) :
    readFault kind w s = afterRestart .double
      { s.fault.record with doubleFault := true, restarts := min (s.fault.record.restarts + 1) 255 } s.now s := by
  unfold readFault
  rw [hf]
  exact secondFault_eq s (by rw [hf]; decide)

end

/-- Settles O50: the outcome of a LOGOUT part asks for the next one or restarts the station, and so do the timer and a second fault. -/
theorem freezeEndsInRestart : Obligations.FreezeEndsInRestart := by
  refine ⟨fun m s c ref payload tag cmd failure record hq hf hcur hk hr hu hqueue he hrec => ?_,
    fun m s d hups hheld hf htimer hdue => ?_,
    fun m s record hups hheld hf hrec => ⟨fun hbad haside => ?_, fun n hslot hcheck h1 h2 hbad => ?_⟩⟩
  · have hexec := exec_ends_logout hq hf hcur hk hr hu he
    have hown : ∀ d ∈ s.link.queue, c.ref = some d.ref := by
      rw [hqueue, hr]
      exact fun d hd => by rw [List.mem_singleton.mp hd]
    have hrecord : countedRecord failure.isNone s.fault.record = record := by
      rw [hrec]
      cases failure <;> rfl
    rw [logoutOutcome_eq] at hexec
    refine ⟨fun part hpart => ?_, fun hpart => ?_⟩
    · have hnext : exec cmd s = .next (selectNext (requestLogout part (partCounted failure.isNone (frameOver m c failure s)))) := by
        rcases hpart with ⟨hpart, rfl⟩ | ⟨hpart, rfl⟩ <;>
          rw [hexec, show (frameOver m c failure s).fault.logout = some _ from hpart]
      rw [requestLogout_over part hq hown, selectNext_busy (s := nextPart m c failure part s) rfl] at hnext
      obtain ⟨hmember, href, haccepted⟩ := frameOver_frozen m c failure hf
      refine ⟨_, _, hnext, ?_, ?_, rfl, rfl, congrArg some href, ?_, ?_, ?_, hmember, rfl, rfl, rfl, rfl, rfl⟩
      · rw [← hrecord]
        rfl
      · change (partCounted failure.isNone (frameOver m c failure s)).link.queue ++
          [⟨(frameOver m c failure s).link.nextRef, .logout, _, (s.withNow m.tag).now⟩] = _
        rw [partCounted_idle hown, href, withNow_now]
        rfl
      · change AttemptPhase.waiting ((s.withNow m.tag).now + span (Block.accessTimeoutMs (frameOver m c failure s).block * 1000)) = _
        rw [withNow_now, frameOver_block]
      · rintro rfl
        change [2, byte (2 ^ (frameOver m c failure s).link.lastAccepted.length - 1)] ++
          slice ((frameOver m c failure s).link.lastAccepted.flatMap _) 0 8 = _
        rw [haccepted]
      · rintro rfl
        rw [← frameOver_overrunSum m c failure s]
        rfl
    · rw [show (frameOver m c failure s).fault.logout = some .part3 from hpart] at hexec
      dsimp only at hexec
      obtain ⟨c', hc'⟩ := afterRestart_current .fault { countedRecord failure.isNone s.fault.record with
        restarts := min (s.fault.record.restarts + 1) 255 } m.tag s
      rw [hexec, selfRestart_over hf, selectNext_busy hc', hrecord]
  · rw [exec_logoutTimerExpiry_due hups hheld hf htimer hdue, selfRestart_eq _ _ (by change s.member.station ≠ _; rw [hf]; decide),
      withNow_now, afterRestart_withNow]
    rfl
  · rw [exec_scrubRead_eq hups hheld (frozen_linkUp hf), lookAgain_live (s := s.withNow m.tag) (Or.inl (frozen_not_atWork hf)),
      if_pos (badParity_of_flip hbad haside), readFault_frozen .scrub _ (by exact hf), hrec]
    refine congrArg _ ?_
    change afterRestart .double _ (s.withNow m.tag).now _ = _
    rw [withNow_now, ← afterRestart_withNow _ _ m.tag s]
    exact afterRestart_congr (s := s.withNow m.tag) .double _ m.tag rfl rfl rfl rfl rfl ⟨_, _, rfl⟩ rfl rfl
  · obtain ⟨u, hu, hword, haside⟩ := hbad
    obtain ⟨w, hw⟩ : ∃ w, ([StoreWord.config 0x1A, .config 0x1B, .segment n.toNat].find? fun w => badParity s w) = some w := by
      rw [← Option.isSome_iff_exists, List.find?_isSome]
      exact ⟨u.word, by simpa using hword, badParity_of_flip ⟨u, hu, rfl⟩ haside⟩
    rw [exec_readSegment_eq hups hheld (frozen_linkUp hf) hslot hcheck h1 h2,
      lookAgain_live (s := s.withNow m.tag) (Or.inl (frozen_not_atWork hf)), boardReads_found (s := s.withNow m.tag) hw,
      readFault_frozen .read _ (by exact hf), hrec, show (segmentRead m n s).now = m.tag from withNow_now s m.tag]
    exact congrArg _ (afterRestart_withNow .double _ m.tag (s.withPort { s.port with
      slot := some ⟨.readSegment, .done, segmentReply n.toNat s⟩ }))

end Sys2Proof.Machine
end

section
/-! PROOFS. Reads of words that are sound while others are faulty (R161): each parity check goes by its own words alone. And what an own
hit's start and loss hand to the Hit Window, with the configuration's words sound that come before (R25, R33, R79, R80). -/

namespace Sys2Proof.Machine

section
variable {m : Moment} {s t : State}

/-! ## Reads that find nothing -/

/-- Only the listed flips and the word set aside make a word faulty. -/
theorem badParity_congr (hf : t.fault.flipped = s.fault.flipped) (ha : t.fault.faultedWord = s.fault.faultedWord) (w : StoreWord) :
    badParity t w = badParity s w := by
  unfold badParity
  rw [hf, ha]

/-- Flips of other words leave a word sound (R161). -/
theorem badParity_of_others {w : StoreWord} (h : ∀ u ∈ s.fault.flipped, u.word ≠ w) : badParity s w = false :=
  badParity_of_sound (Or.inl h)

/-- A sound word stays sound while no bit flips. -/
theorem badParity_of_subset {w : StoreWord} (hf : ∀ u ∈ t.fault.flipped, u ∈ s.fault.flipped)
    (ha : t.fault.faultedWord = s.fault.faultedWord) (h : badParity s w = false) : badParity t w = false := by
  unfold badParity at *
  rw [ha]
  rw [Bool.and_eq_false_iff] at *
  refine h.imp_left fun h => List.any_eq_false.mpr fun u hu => List.any_eq_false.mp h u (hf u hu)

/-- Other words keep their parity when some are written anew. -/
theorem badParity_rewrite {p : StoreWord → Bool} {w : StoreWord} (h : p w = false) : badParity (rewrite p s) w = badParity s w := by
  have hone : ∀ u : Upset, (!p u.word && u.word == w) = (u.word == w) := fun u => by
    by_cases hu : u.word = w
    · rw [hu, h]
      rfl
    · rw [beq_eq_false_iff_ne.mpr hu, Bool.and_false]
  unfold badParity rewrite
  rw [withFault_fault, List.any_filter]
  simp only [hone]

theorem usingConfig_ofSound {offsets : List Nat} (h : ∀ i ∈ offsets, badParity s (.config i) = false) (f : State → State) :
    usingConfig offsets f s = f s := by
  have hnone : badConfig offsets s = none := List.find?_eq_none.mpr fun i hi => by rw [h i hi]; exact Bool.false_ne_true
  unfold usingConfig readingConfig
  rw [hnone]

theorem usingWords_ofSound {words : List StoreWord} (h : ∀ w ∈ words, badParity s w = false) (f : State → State) :
    usingWords words f s = f s := by
  have hnone : (words.find? fun w => badParity s w) = none :=
    List.find?_eq_none.mpr fun w hw => by rw [h w hw]; exact Bool.false_ne_true
  unfold usingWords
  rw [hnone]

/-- The policies stand behind the first 64 bytes of the configuration store (12.4). -/
theorem policyAt_ge (code : Nat) : 0x40 ≤ Block.policyAt code := Nat.le_add_right _ _

/-! ## An own hit's start (R25, R79) -/

/-- A sample in QUIET whose threshold words are sound is tested against the threshold (R22, R25). -/
theorem sampleStep_quiet_read {c : Channel} (env : Nat) (hq : (s.channels.units.get c).state = .quiet)
    (h : ∀ i, 0x40 ≤ i → badParity s (.config i) = false) : sampleStep c env s = quietSample c env (noted c env s) := by
  unfold sampleStep
  dsimp only
  rw [hq]
  refine usingConfig_ofSound (s := noted c env s) (fun i hi => h i ?_) _
  unfold thresholdWords at hi
  rcases List.mem_cons.mp hi with rfl | hi
  · exact (policyAt_ge _).trans (Nat.le_add_right _ _)
  · split at hi
    next =>
      rw [List.mem_singleton.mp hi]
      exact (policyAt_ge _).trans (Nat.le_add_right _ _)
    next => cases hi

/-- A sample that starts an own hit offers it to the Hit Window, with nothing but the channels changed before (R25, R79). -/
theorem exec_sample_own {ch : Channel} {v : Half} (hups : m.upsets = []) (hheld : s.resetHeld = false)
    (hr : s.member.station = .running) (ho : s.tracker.isOpen = true) (hw : s.windowOpen = false)
    (hq : (s.channels.units.get ch).state = .quiet)
    (hth : s.threshold (noteSample m.tag (envelope v) (s.channels.units.get ch)) ≤ amplitude (envelope v))
    (hsound : ∀ i, 0x40 ≤ i → badParity s (.config i) = false) :
    ∃ channels, exec (.sample m ch v) s = .next (lookAgain (s.withNow m.tag)
      (enterOwnHit ch m.tag s.tracker.phase ((s.withNow m.tag).withChannels channels))) := by
  have hwork : s.atWork = true := by
    unfold State.atWork
    rw [hr]
    rfl
  have hthreshold : (noted ch (envelope v) (s.withNow m.tag)).threshold
      ((noted ch (envelope v) (s.withNow m.tag)).channels.units.get ch) =
        s.threshold (noteSample m.tag (envelope v) (s.channels.units.get ch)) := by
    rw [noted_unit, withNow_now]
    rfl
  have hkind : hitKindNow s = .own := by
    unfold hitKindNow
    rw [if_neg (by rw [hw]; decide), if_pos ⟨hr, ho⟩]
  have htake : takeSample ch v (s.withNow m.tag) = quietSample ch (envelope v) (noted ch (envelope v) (s.withNow m.tag)) :=
    (if_pos hwork).trans (sampleStep_quiet_read (s := s.withNow m.tag) _ hq hsound)
  change ∃ channels, execSample m ch v s = _
  unfold execSample
  rw [atMoment_noUpsets hups hheld, htake, quietSample_reached (by rwa [hthreshold]), newHit_noted, hkind]
  exact ⟨_, rfl⟩

/-! ## An own hit's loss (R33, R80) -/

/-- A sample loss in IN-HIT asks for the removal of the own hit, with nothing but the channels changed before (R33, R35, R80). -/
theorem exec_sampleLoss_own {ch : Channel} {h : OpenHit} {last : Tag} (hups : m.upsets = []) (hheld : s.resetHeld = false)
    (hwork : s.atWork = true) (hi : (s.channels.units.get ch).state = .inHit) (ho : (s.channels.units.get ch).openHit = some h)
    (hk : h.kind = .own) (hwatch : (s.channels.units.get ch).watch = .watching last) (hgap : 8 ≤ elapsed m.tag last) :
    ∃ channels, exec (.sampleLoss m ch) s = .next (lookAgain (s.withNow m.tag)
      ((requestRemoval ⟨s.ownNo, chNo ch, h.arrival⟩ ((s.withNow m.tag).withChannels channels)).unlessFrozen
        (afterLoss ch (s.channels.units.get ch)))) := by
  have hdue : lossDue ch (s.withNow m.tag) = true := by
    have hwork' : (s.withNow m.tag).atWork = true := hwork
    simp [lossDue, hwork', hi, hwatch, lossGap, hgap]
  change ∃ channels, execSampleLoss m ch s = _
  unfold execSampleLoss
  rw [atMoment_noUpsets hups hheld, if_pos hdue]
  unfold sampleLost
  rw [loseChannel_eq, withNow_channels, ho]
  unfold discardHit
  dsimp only
  rw [hk]
  exact ⟨_, rfl⟩

/-! ## A settle close (R10, R13) -/

theorem exec_settleTimerExpiry_eq {d : Tag} (hups : m.upsets = []) (hheld : s.resetHeld = false) (hwork : s.atWork = true)
    (ho : s.tracker.isOpen = true) (hs : s.tracker.settle = some d) (hd : reached m.tag d = true) :
    exec (.settleTimerExpiry m) s = .next (lookAgain (s.withNow m.tag)
      ((closeCycle .settle (s.withNow m.tag)).unlessFrozen idleIfExpired)) := by
  have hdue : settleDue (s.withNow m.tag) = true := by
    unfold settleDue
    rw [withNow_tracker, withNow_now, hs, ho]
    change (s.atWork && true && reached m.tag d) = true
    rw [hwork, hd]
    rfl
  change execSettleTimerExpiry m s = _
  unfold execSettleTimerExpiry
  rw [atMoment_noUpsets hups hheld, if_pos hdue]
  rfl

/-- A NORMAL close raises no notice of its own (R13). -/
theorem closeCycle_normal (cause : CloseCause) (hd : s.tracker.disordered = false) (hab : s.tracker.abandoned = false) :
    closeCycle cause s = selectNext (closeTables s.tracker.cycle .normal (closeHits (s.withTracker (closedTracker s.tracker)))) := by
  have hkind : closeKind s.tracker.disordered s.tracker.abandoned = .normal := (closeKind_normal_iff _ _).mpr ⟨hd, hab⟩
  unfold closeCycle cycleFlagNotice
  dsimp only
  rw [hkind, if_pos rfl]

/-- Flips that all pass a test stay listed. -/
theorem flips_filter_self {f : FaultUnit} {p : Upset → Bool} (h : ∀ u ∈ f.flipped, p u = true) :
    { f with flipped := f.flipped.filter p } = f := by
  rw [List.filter_eq_self.mpr h]

/-- What a close discards before the table concerns no word but those of the Hit Window (R95, R161). -/
theorem closeHits_fault (h : ∀ u ∈ s.fault.flipped, ∀ id, u.word ≠ .window id) : (closeHits s).fault = s.fault := by
  rw [closeHits_eq]
  refine flips_filter_self (f := s.fault) fun u hu => ?_
  cases hw : u.word with
  | window id => exact absurd hw (h u hu id)
  | config => rfl
  | segment => rfl
  | snapshot => rfl
  | applied => rfl

end

end Sys2Proof.Machine
end

section
/-! PROOFS. Soft faults (R162): what the checks of the Hit Window and of the Applied Event List take out, and the steps that go on with
what remains. -/

namespace Sys2Proof.Machine

/-! ## The check of the Hit Window (R80, R162) -/

section
variable {m : Moment} {s : State}

/-- Entries are taken out of the Hit Window one after the other, each a soft fault: the window keeps the others, and no new flip
appears. -/
theorem foldl_dropHit (es : List HitEntry) (hsoft : s.fault.softFaults ≤ 65535) :
    ∃ flipped, es.foldl (fun t e => softFault (removeHit e.id t)) s =
        (s.withCoin { s.coin with window := s.coin.window.filter fun x => !es.any fun e => e.id == x.id }).withFault
          { s.fault with flipped := flipped, softFaults := min (s.fault.softFaults + es.length) 65535 } ∧
      ∀ u ∈ flipped, u ∈ s.fault.flipped := by
  induction es generalizing s with
  | nil =>
    refine ⟨s.fault.flipped, ?_, fun _ h => h⟩
    simp [min_eq_left hsoft, State.withCoin, State.withFault]
  | cons e es ih =>
    obtain ⟨flipped, heq, hsub⟩ := ih (s := softFault (removeHit e.id s)) (min_le_right _ _)
    refine ⟨flipped, ?_, fun u hu => (List.mem_filter.mp (hsub u hu)).1⟩
    have hwindow : ((s.coin.window.filter fun x => x.id != e.id).filter fun x => !es.any fun a => a.id == x.id) =
        s.coin.window.filter fun x => !(e :: es).any fun a => a.id == x.id := by
      rw [List.filter_filter]
      refine List.filter_congr fun x _ => ?_
      rw [List.any_cons, Bool.not_or, Bool.and_comm, Bool.beq_comm]
      rfl
    have hcount : min (raised s.fault.softFaults + es.length) 65535 = min (s.fault.softFaults + (e :: es).length) 65535 := by
      unfold raised
      rw [List.length_cons]
      omega
    rw [List.foldl_cons, heq, ← hwindow, ← hcount]
    rfl

/-- The entries of the Hit Window that its check keeps (R162). -/
def keptHits (s : State) : List HitEntry := s.coin.window.filter fun e => !badParity s (.window e.id)

/-- The check of the Hit Window takes the faulty entries out, each a soft fault (R80, R162). -/
theorem checkWindow_drops (hsoft : s.fault.softFaults ≤ 65535) : ∃ flipped,
    checkWindow s = (s.withCoin { s.coin with window := keptHits s }).withFault { s.fault with
      flipped := flipped
      softFaults := min (s.fault.softFaults + (s.coin.window.length - (keptHits s).length)) 65535 } ∧
      ∀ u ∈ flipped, u ∈ s.fault.flipped := by
  obtain ⟨flipped, heq, hsub⟩ := foldl_dropHit (s.coin.window.filter fun e => badParity s (.window e.id)) hsoft
  refine ⟨flipped, ?_, hsub⟩
  have hwindow : (s.coin.window.filter fun x =>
      !(s.coin.window.filter fun e => badParity s (.window e.id)).any fun e => e.id == x.id) = keptHits s := by
    refine List.filter_congr fun x hx => congrArg _ (Bool.eq_iff_iff.mpr ⟨fun h => ?_, fun h => ?_⟩)
    · obtain ⟨e, he, hid⟩ := List.any_eq_true.mp h
      rw [← eq_of_beq hid]
      exact (List.mem_filter.mp he).2
    · exact List.any_eq_true.mpr ⟨x, List.mem_filter.mpr ⟨hx, h⟩, beq_self_eq_true _⟩
  have hcount : (s.coin.window.filter fun e => badParity s (.window e.id)).length =
      s.coin.window.length - (keptHits s).length := by
    have hsplit := List.length_eq_length_filter_add (l := s.coin.window) fun e => badParity s (.window e.id)
    unfold keptHits
    omega
  unfold checkWindow
  rw [heq, hwindow, hcount]

/-- A window without a faulty entry stays (R162). -/
theorem checkWindow_clean (h : ∀ e ∈ s.coin.window, badParity s (.window e.id) = false) : checkWindow s = s := by
  have hnone : (s.coin.window.filter fun e => badParity s (.window e.id)) = [] :=
    List.filter_eq_nil_iff.mpr fun e he => by rw [h e he]; exact Bool.false_ne_true
  unfold checkWindow
  rw [hnone]
  rfl

/-- With the configuration sound, forming the group only checks the window (R85, R162). -/
theorem formGroup_checks (h : ∀ i, badParity (checkWindow s) (.config i) = false) : formGroup s = checkWindow s := by
  unfold formGroup
  dsimp only
  rw [usingConfig_ofSound fun i _ => h i]
  split <;> rfl

/-- A read of the window forms the group where an entry is faulty, and else finds nothing (R85, R162). -/
theorem readWindow_checks (h : ∀ i, badParity (checkWindow s) (.config i) = false) : readWindow s = checkWindow s := by
  unfold readWindow
  split
  next => exact formGroup_checks h
  next hclean =>
    refine (checkWindow_clean fun e he => ?_).symm
    have := List.any_eq_false.mp (Bool.not_eq_true _ ▸ hclean) e he
    simpa using this

/-- With nothing set aside, a word is faulty exactly when a flip of it is listed (R161). -/
theorem badParity_flipped (ha : s.fault.faultedWord = none) (w : StoreWord) :
    badParity s w = s.fault.flipped.any fun u => u.word == w := by
  unfold badParity
  rw [ha]
  exact Bool.and_true _

/-! ## An own hit offered (R79, R162) -/

theorem mem_insertEntry_iff {e x : HitEntry} {w : List HitEntry} : x ∈ insertEntry e w ↔ x = e ∨ x ∈ w := by
  obtain ⟨pre, post, hw, hinsert, -⟩ := insertEntry_split e w
  rw [hinsert, hw, List.mem_append, List.mem_cons, List.mem_append]
  tauto

/-- The start of an own hit checks the window, and the hit enters what remains unless 64 entries do (R79, R162; log entry 39). -/
theorem enterOwnHit_checks (c : Channel) (arrival : Tag) (phase : Phase) (hsoft : s.fault.softFaults ≤ 65535)
    (hconf : ∀ i, badParity s (.config i) = false) (hlive : s.member.station ≠ .frozen) : ∃ flipped coin,
    enterOwnHit c arrival phase s = (s.withCoin coin).withFault { s.fault with
      flipped := flipped
      softFaults := min (s.fault.softFaults + (s.coin.window.length - (keptHits s).length)) 65535 } ∧
    coin.window = if 64 ≤ (keptHits s).length then keptHits s
      else insertEntry ⟨ownHitId s c arrival, arrival, phase, none, true⟩ (keptHits s) := by
  obtain ⟨flipped, hchecked, hsub⟩ := checkWindow_drops hsoft
  have hsound : ∀ w, badParity s w = false → badParity (checkWindow s) w = false := fun w =>
    badParity_of_subset (by rw [hchecked]; exact hsub) (by rw [hchecked]; rfl)
  unfold enterOwnHit
  rw [readWindow_checks fun i => hsound _ (hconf i), unlessFrozen_live (by rw [hchecked]; exact hlive)]
  unfold offerOwnHit windowCapacity
  by_cases hfull : 64 ≤ (keptHits s).length
  · rw [if_pos (by rw [hchecked]; exact hfull), if_pos hfull, hchecked]
    exact ⟨_, _, rfl, rfl⟩
  · rw [if_neg (by rw [hchecked]; exact hfull), if_neg hfull]
    have hid : ownHitId (checkWindow s) c arrival = ownHitId s c arrival := by rw [hchecked]; rfl
    rw [hid]
    generalize hy : rewrite (fun w => w == .window (ownHitId s c arrival))
      (enterWindow ⟨ownHitId s c arrival, arrival, phase, none, true⟩ (checkWindow s)) = y
    have hkeeps : ∀ w, badParity s w = false → badParity y w = false := fun w hw =>
      badParity_of_subset (by rw [← hy]; exact fun u hu => (List.mem_filter.mp hu).1) (by rw [← hy]; rfl) (hsound w hw)
    have hentered : badParity y (.window (ownHitId s c arrival)) = false :=
      badParity_of_others (by rw [← hy]; exact fun u hu => by simpa using (List.mem_filter.mp hu).2)
    have hwindow : y.coin.window = insertEntry ⟨ownHitId s c arrival, arrival, phase, none, true⟩ (keptHits s) := by
      rw [← hy, hchecked]
      rfl
    have hclean : checkWindow y = y := checkWindow_clean fun e he => by
      rw [hwindow, mem_insertEntry_iff] at he
      rcases he with rfl | he
      · exact hentered
      · exact hkeeps _ (by simpa using (List.mem_filter.mp he).2)
    have hformed : hitEntered (ownHitId s c arrival)
        (enterWindow ⟨ownHitId s c arrival, arrival, phase, none, true⟩ (checkWindow s)) = y := by
      unfold hitEntered
      rw [hy, formGroup_checks (by rw [hclean]; exact fun i => hkeeps _ (hconf i)), hclean]
    rw [hformed]
    refine ⟨y.fault.flipped, y.coin, ?_, hwindow⟩
    rw [← hy, hchecked]
    rfl

/-! ## An own hit's entry taken out (R80, R85, R162) -/

/-- A removal takes the entry out, and the group is formed afresh from what the window's check keeps (log entry 46). -/
theorem requestRemoval_checks (id : HitId) (hsoft : s.fault.softFaults ≤ 65535) (hconf : ∀ i, badParity s (.config i) = false)
    (hin : ∃ e ∈ s.coin.window, e.id = id) : ∃ flipped,
    requestRemoval id s = (s.withCoin { s.coin with window := (keptHits s).filter fun e => e.id != id }).withFault { s.fault with
      flipped := flipped
      softFaults := min (s.fault.softFaults + ((s.coin.window.filter fun e => e.id != id).length -
        ((keptHits s).filter fun e => e.id != id).length)) 65535 } := by
  have hrest : ∀ w, w ≠ .window id → badParity (removeHit id s) w = badParity s w := fun w hw =>
    badParity_rewrite (s := s.withCoin _) (beq_eq_false_iff_ne.mpr hw)
  have hkept : keptHits (removeHit id s) = (keptHits s).filter fun e => e.id != id := by
    change (s.coin.window.filter fun e => e.id != id).filter _ = (s.coin.window.filter _).filter _
    rw [List.filter_filter, List.filter_filter]
    refine List.filter_congr fun e _ => ?_
    by_cases he : e.id = id
    · rw [he, bne_self_eq_false, Bool.and_false, Bool.false_and]
    · rw [hrest _ (by simpa using he), Bool.and_comm]
  obtain ⟨flipped, hchecked, hsub⟩ := checkWindow_drops (s := removeHit id s) hsoft
  have hany : (s.coin.window.any fun e => e.id == id) = true := by simpa using hin
  unfold requestRemoval
  rw [if_pos hany, formGroup_checks fun i =>
    badParity_of_subset (by rw [hchecked]; exact hsub) (by rw [hchecked]; rfl) ((hrest _ (by simp)).trans (hconf i)), hchecked, hkept]
  exact ⟨flipped, rfl⟩

/-- After a loss in IN-HIT, with no window waiting to be judged, only the notice is raised (R33). -/
theorem afterLoss_inHit {c : Channel} {u : ChannelUnit} (hu : u.state = .inHit) (hj : NoJudging s) :
    afterLoss c u s = raiseNow (ownSensor c s) (.sampleLoss true) s := by
  have htell : ∀ x, tellLoss u x = x := fun x => by simp [tellLoss, hu]
  unfold afterLoss raiseNow
  rw [htell, raise_eq]
  exact judgeIfReady_waits (s := s.withPort _) hj

/-! ## The check of the Applied Event List (R110, R162) -/

/-- The entries of the Applied Event List that its check keeps (R162). -/
def keptEvents (s : State) : List AppliedEvent := s.evid.applied.filter fun a => !badParity s (appliedWord a)

/-- The check of the Applied Event List takes the faulty entries out, each a soft fault, and no flip of such an entry stays listed. -/
theorem checkApplied_drops (s : State) : checkApplied s =
    (s.withEvid { s.evid with applied := keptEvents s }).withFault { s.fault with
      flipped := s.fault.flipped.filter fun u => !(match u.word with | .applied _ => true | _ => false)
      softFaults := min (s.fault.softFaults + (s.evid.applied.length - (keptEvents s).length)) 65535 } := by
  have hcount : (s.evid.applied.filter fun a => badParity s (appliedWord a)).length =
      s.evid.applied.length - (keptEvents s).length := by
    have hsplit := List.length_eq_length_filter_add (l := s.evid.applied) fun a => badParity s (appliedWord a)
    unfold keptEvents
    omega
  unfold checkApplied raisedBy
  dsimp only
  rw [hcount]
  rfl

/-- A list without a faulty entry stays (R162). -/
theorem checkApplied_clean (h : ∀ a ∈ s.evid.applied, badParity s (appliedWord a) = false) : (checkApplied s).evid = s.evid := by
  have hkept : keptEvents s = s.evid.applied := List.filter_eq_self.mpr fun a ha => by rw [h a ha]; rfl
  rw [checkApplied_drops, withFault_evid, withEvid_evid, hkept]

/-- After the check no word of the list is faulty. -/
theorem checkApplied_sound (s : State) (a : AppliedEvent) : badParity (checkApplied s) (appliedWord a) = false := by
  refine badParity_of_others fun u hu hword => ?_
  rw [checkApplied_drops] at hu
  have happlied := (List.mem_filter.mp hu).2
  rw [hword] at happlied
  exact Bool.false_ne_true happlied

/-- A second check finds nothing more (R162). -/
theorem checkApplied_twice (s : State) : checkApplied (checkApplied s) = checkApplied s := by
  have hkept : keptEvents (checkApplied s) = (checkApplied s).evid.applied :=
    List.filter_eq_self.mpr fun a _ => by rw [checkApplied_sound]; rfl
  rw [checkApplied_drops (checkApplied s), hkept, Nat.sub_self, checkApplied_drops s]
  refine state_ext rfl rfl rfl rfl rfl rfl rfl rfl rfl rfl ?_ rfl rfl rfl
  simp only [withFault_fault, List.filter_filter, Bool.and_self, Nat.add_zero, min_assoc, min_self]

/-- An EVENT is judged against the entries that the check keeps (R110, R162). -/
theorem judgeApplied_checks {st : Station} {e : EventRecord} (hwf : eventWellFormed (Block.nSeg s.block) e = true)
    (ho : s.tracker.isOpen = true) (hc : e.cycle = s.tracker.cycle) :
    (judgeApplied st e s).evid.applied = (judgeEvent (keptEvents s) ⟨e, stNo st⟩).list ∧
      (judgeApplied st e s).fault = (checkApplied s).fault := by
  unfold judgeApplied
  rw [if_neg (by rw [hwf]; decide), if_neg (by simp [ho, hc]), checkApplied_drops]
  exact ⟨rfl, rfl⟩

end

/-! ## A close leaves the Fault Unit alone once the list has been checked (R116, R132) -/

/-- The stores are sound and the Fault Unit is `k`. -/
def FaultKept (k : FaultUnit) (s : State) : Prop := NoFlips s ∧ s.fault = k

section
variable {k : FaultUnit} {s : State}

theorem FaultKept.of_same {t : State} (h : FaultKept k s) (hf : t.fault = s.fault) : FaultKept k t :=
  ⟨by unfold NoFlips; rw [hf]; exact h.1, hf.trans h.2⟩

theorem unlessFrozen_faultKept {f : State → State} (h : FaultKept k s) (hf : FaultKept k (f s)) : FaultKept k (s.unlessFrozen f) := by
  unfold State.unlessFrozen
  split
  next => exact h
  next => exact hf

theorem usingConfig_faultKept {offsets : List Nat} {f : State → State} (h : FaultKept k s) (hf : FaultKept k (f s)) :
    FaultKept k (usingConfig offsets f s) := by
  rw [usingConfig_sound h.1]
  exact hf

theorem usingWords_faultKept {words : List StoreWord} {f : State → State} (h : FaultKept k s) (hf : FaultKept k (f s)) :
    FaultKept k (usingWords words f s) := by
  rw [usingWords_sound h.1]
  exact hf

theorem rewrite_faultKept (p : StoreWord → Bool) (h : FaultKept k s) : FaultKept k (rewrite p s) := by
  rw [rewrite_sound h.1]
  exact h

theorem raise_faultKept (n : Notice) (h : FaultKept k s) : FaultKept k (raise n s) := h.of_same (by rw [raise_eq]; rfl)

theorem selectFrame_faultKept (h : FaultKept k s) : FaultKept k (selectFrame s) := by
  obtain ⟨_, _, _, hs⟩ := selectFrame_current s
  rw [hs]
  exact h

theorem selectNext_faultKept (h : FaultKept k s) : FaultKept k (selectNext s) := by
  rw [selectNext_sound h.1]
  exact selectFrame_faultKept h

theorem deriveUnlessHeld_faultKept (h : FaultKept k s) : FaultKept k (deriveUnlessHeld s) := by
  rw [deriveUnlessHeld_sound h.1]
  split <;> exact h

theorem afterFold_faultKept (closed : Option CycleNo) (old : List SegmentRecord) (h : FaultKept k s) :
    FaultKept k (afterFold closed old s) := by
  have hderived : FaultKept k (deriveUnlessHeld (raiseAge (raiseChanges closed .fold old s.evid.table s))) := by
    rw [raiseChanges_eq, raiseAll_eq]
    exact deriveUnlessHeld_faultKept (s := raiseAge (s.withPort _)) h
  exact unlessFrozen_faultKept hderived (rewrite_faultKept (s := State.withEvid _ _) _ hderived)

/-- The fold and what follows it, once the list has been checked. -/
theorem evidenceClose_faultKept (closed : Option CycleNo) (hs : s.member.station ≠ .frozen) (hc : checkApplied s = s)
    (h : FaultKept k s) : FaultKept k (evidenceClose closed .normal s) := by
  have hfolded : FaultKept k (usingConfig [0x1A] (foldTable closed) s) := by
    refine usingConfig_faultKept h ?_
    unfold foldTable
    rw [foldSegments_sound closed _ h.1 hs]
    exact h
  unfold evidenceClose
  dsimp only
  rw [hc]
  exact unlessFrozen_faultKept hfolded (afterFold_faultKept closed _ hfolded)

theorem stopSending_faultKept (h : FaultKept k s) : FaultKept k (stopSending s) := by
  unfold stopSending
  split
  next => rw [withdraw_eq]; exact h
  next => exact h
  next => exact h

theorem abandonTransfer_faultKept (cause : AbandonCause) (h : FaultKept k s) : FaultKept k (abandonTransfer cause s) := by
  unfold abandonTransfer
  split
  next => exact raise_faultKept (s := State.withAgree _ _) _ h
  next => exact h

theorem requestDigest_faultKept (snap : Snapshot) (digest : BitVec 32) (h : FaultKept k s) :
    FaultKept k (requestDigest snap digest s) := by
  unfold requestDigest request
  split
  next => exact selectNext_faultKept (s := keepNoRef _ (enqueue _ _ s)) h
  next => exact h

theorem takeSnapshot_faultKept (closed : Option CycleNo) (h : FaultKept k s) : FaultKept k (takeSnapshot closed s) := by
  have hstored : FaultKept k (storeSnapshot closed s) := rewrite_faultKept (s := s.withAgree _) _ h
  have hdigest : FaultKept k (usingConfig [0x1B] (digestSnapshot ⟨closed, s.evid.age, s.evid.table⟩) (storeSnapshot closed s)) :=
    usingConfig_faultKept hstored (requestDigest_faultKept _ _ (s := State.withAgree _ _) hstored)
  exact unlessFrozen_faultKept hdigest (usingConfig_faultKept hdigest hdigest)

theorem agreementClose_faultKept (closed : Option CycleNo) (h : FaultKept k s) : FaultKept k (agreementClose closed s) := by
  unfold agreementClose
  dsimp only
  have hcut : FaultKept k (if s.agree.window.isSome then
      agreeCounts (fun c => { c with cut := raised c.cut }) (s.withAgree { s.agree with window := none }) else s) := by
    split <;> exact h
  have hended := abandonTransfer_faultKept .close (stopSending_faultKept hcut)
  exact usingConfig_faultKept (s := State.withAgree _ _) hended
    (usingWords_faultKept (s := State.withAgree _ _) hended (takeSnapshot_faultKept closed (s := State.withAgree _ _) hended))

end

/-! ## A NORMAL close with faulty entries of the list (R116, R162) -/

section
variable {s : State}

/-- Only the checked list counts for the tables' side of a NORMAL close. -/
theorem closeTables_checked (closed : Option CycleNo) (s : State) :
    closeTables closed .normal (checkApplied s) = closeTables closed .normal s := by
  unfold closeTables evidenceClose
  rw [checkApplied_twice]

/-- What a NORMAL close discards before the table leaves the list and, where no entry of the Hit Window is faulty, the Fault Unit. -/
theorem checkApplied_closeHits (hflips : ∀ u ∈ s.fault.flipped, ∃ key, u.word = .applied key) :
    (checkApplied (closeHits (s.withTracker (closedTracker s.tracker)))).fault = (checkApplied s).fault ∧
      (checkApplied (closeHits (s.withTracker (closedTracker s.tracker)))).evid = { s.evid with applied := keptEvents s } := by
  have hfault : (closeHits (s.withTracker (closedTracker s.tracker))).fault = s.fault := by
    refine closeHits_fault (s := s.withTracker _) fun u hu id hid => ?_
    obtain ⟨key, hkey⟩ := hflips u hu
    exact StoreWord.noConfusion (hkey.symm.trans hid)
  have hevid : (closeHits (s.withTracker (closedTracker s.tracker))).evid = s.evid := by
    rw [closeHits_eq]
    rfl
  have hkept : keptEvents (closeHits (s.withTracker (closedTracker s.tracker))) = keptEvents s := by
    unfold keptEvents badParity
    rw [hfault, hevid]
  rw [checkApplied_drops, checkApplied_drops, hkept, hevid, hfault]
  exact ⟨rfl, rfl⟩

/-- A NORMAL close that finds faulty entries of the list alone folds those that remain, and only counts the others (R116, R162). -/
theorem closeCycle_drops (cause : CloseCause) (hd : s.tracker.disordered = false) (hab : s.tracker.abandoned = false)
    (hlive : s.member.station ≠ .frozen) (hflips : ∀ u ∈ s.fault.flipped, ∃ key, u.word = .applied key) :
    NoFlips (closeCycle cause s) ∧ (closeCycle cause s).member = s.member ∧
      (closeCycle cause s).fault = (checkApplied s).fault ∧
      (closeCycle cause s).evid =
        closedEvid s.block s.agree.standing s.tracker.cycle .normal { s.evid with applied := keptEvents s } := by
  obtain ⟨hzf, hze⟩ := checkApplied_closeHits hflips
  have hzn : NoFlips (checkApplied (closeHits (s.withTracker (closedTracker s.tracker)))) := by
    unfold NoFlips
    rw [hzf, checkApplied_drops]
    refine List.filter_eq_nil_iff.mpr fun u hu => ?_
    obtain ⟨key, hkey⟩ := hflips u hu
    rw [hkey]
    exact Bool.false_ne_true
  rw [closeCycle_normal cause hd hab, ← closeTables_checked]
  have hz : ∃ channels link coin evid fault, checkApplied (closeHits (s.withTracker (closedTracker s.tracker))) =
      (((((s.withTracker (closedTracker s.tracker)).withChannels { s.channels with queue := [], units := channels }).withLink link).withCoin
        coin).withEvid evid).withFault fault := by
    rw [checkApplied_drops, closeHits_eq]
    exact ⟨_, _, _, _, _, rfl⟩
  have hzc := checkApplied_twice (closeHits (s.withTracker (closedTracker s.tracker)))
  generalize checkApplied (closeHits (s.withTracker (closedTracker s.tracker))) = z at *
  obtain ⟨channels, link, coin, evid, fault, hz⟩ := hz
  have hzlive : z.member.station ≠ .frozen := by
    rw [hz]
    exact hlive
  have hzq : z.channels.queue = [] := by
    rw [hz]
    rfl
  have hblock : z.block = s.block ∧ z.agree.standing = s.agree.standing ∧ z.member = s.member := by
    rw [hz]
    exact ⟨rfl, rfl, rfl⟩
  obtain ⟨hblock, hstanding, hmember⟩ := hblock
  obtain ⟨⟨⟨-, hch, hme, -⟩, -, hcn, -⟩, -⟩ := closeTables_named s.tracker.cycle .normal hzn hzlive hzq
  obtain ⟨hevid, -⟩ := closeTables_evidence s.tracker.cycle .normal hzn hzlive hzq
  have hkept : FaultKept z.fault (closeTables s.tracker.cycle .normal z) := unlessFrozen_faultKept
    (evidenceClose_faultKept _ hzlive hzc ⟨hzn, rfl⟩) (agreementClose_faultKept _ (evidenceClose_faultKept _ hzlive hzc ⟨hzn, rfl⟩))
  generalize closeTables s.tracker.cycle .normal z = c at *
  have hcq : c.channels.queue = [] := by rw [hch, hzq]
  obtain ⟨⟨⟨-, -, hsel, -⟩, -, hflipsLeft, -⟩, -⟩ := selectNext_named hcn hcq
  refine ⟨hflipsLeft, hsel.trans (hme.trans hmember), (selectNext_faultKept hkept).2.trans hzf, ?_⟩
  rw [selectNext_sound hcn, (selectFrame_evidence hcq).1, hevid, hblock, hstanding, hze]

/-- The move to IDLE after a close touches neither the stores nor the station's state (R10). -/
theorem idleIfExpired_keeps (hn : NoFlips s) : (idleIfExpired s).member = s.member ∧ (idleIfExpired s).fault = s.fault ∧
    (idleIfExpired s).evid = s.evid := by
  rw [idleIfExpired_sound hn]
  split <;> exact ⟨rfl, rfl, rfl⟩

end

/-- Settles O49: the parity check ahead of each read drops the faulty entries and counts them, and the step goes on with the rest. -/
theorem softFaultsDropEntries : Obligations.SoftFaultsDropEntries := by
  refine ⟨fun m s ch v e kept hups hheld haside hflips hsoft hr ho hw hq hth he hkept => ?_,
    fun m s ch h last rest kept hups hheld haside hflips hsoft hwork hi ho hk hwatch hgap hin hrest hkept hj => ?_,
    fun m s d kept hups hheld haside hflips hwork ho hs hd hdis hab hkept => ?_,
    fun s st e kept haside hwf ho hc hkept => ?_⟩
  · have hconf : ∀ i, badParity s (.config i) = false := fun i => badParity_of_others fun u hu hword => by
      obtain ⟨id, hid⟩ := hflips u hu
      exact StoreWord.noConfusion (hid.symm.trans hword)
    have hkeep : keptHits s = kept := by
      unfold keptHits
      simp only [badParity_flipped haside, hkept]
    have hlive : s.member.station ≠ .frozen := by rw [hr]; decide
    obtain ⟨channels, hexec⟩ := exec_sample_own hups hheld hr ho hw hq hth fun i _ => hconf i
    obtain ⟨flipped, coin, hentered, hwindow⟩ :=
      enterOwnHit_checks (s := (s.withNow m.tag).withChannels channels) ch m.tag s.tracker.phase hsoft hconf hlive
    rw [hentered, lookAgain_live (Or.inr (by exact hlive))] at hexec
    change coin.window = if 64 ≤ (keptHits s).length then keptHits s
      else insertEntry ⟨⟨s.ownNo, chNo ch, m.tag⟩, m.tag, s.tracker.phase, none, true⟩ (keptHits s) at hwindow
    rw [hkeep, ← he] at hwindow
    refine ⟨_, hexec, rfl, rfl, rfl, ?_, fun hroom x => ?_, fun hfull => ?_⟩
    · rw [← hkeep]
      rfl
    · change x ∈ coin.window ↔ _
      rw [hwindow, if_neg (by omega), mem_insertEntry_iff]
    · exact hwindow.trans (if_pos hfull)
  · have hconf : ∀ i, badParity s (.config i) = false := fun i => badParity_of_others fun u hu hword => by
      obtain ⟨id, hid⟩ := hflips u hu
      exact StoreWord.noConfusion (hid.symm.trans hword)
    have hkeep : ((keptHits s).filter fun e => e.id != ⟨s.ownNo, chNo ch, h.arrival⟩) = kept := by
      unfold keptHits
      rw [hkept, hrest, List.filter_filter, List.filter_filter]
      simp only [badParity_flipped haside, Bool.and_comm]
    have hlive := atWork_not_frozen hwork
    obtain ⟨channels, hexec⟩ := exec_sampleLoss_own hups hheld hwork hi ho hk hwatch hgap
    obtain ⟨flipped, hremoved⟩ := requestRemoval_checks (s := (s.withNow m.tag).withChannels channels)
      ⟨s.ownNo, chNo ch, h.arrival⟩ hsoft hconf hin
    rw [hremoved, unlessFrozen_live (by exact hlive), afterLoss_inHit hi (by exact hj)] at hexec
    unfold raiseNow at hexec
    rw [raise_eq, lookAgain_live (Or.inr (by exact hlive))] at hexec
    refine ⟨_, hexec, ?_, ?_, rfl, rfl⟩
    · rw [← hkeep]
      rfl
    · rw [← hkeep, hrest]
      rfl
  · have hlive := atWork_not_frozen hwork
    have hkeep : keptEvents s = kept := by
      unfold keptEvents
      simp only [badParity_flipped haside, hkept]
      rfl
    have hexec := exec_settleTimerExpiry_eq hups hheld hwork ho hs hd
    obtain ⟨hn, hmember, hfault, hevid⟩ := closeCycle_drops .settle (s := s.withNow m.tag) hdis hab hlive hflips
    generalize closeCycle .settle (s.withNow m.tag) = u at *
    obtain ⟨htm, htf, hte⟩ := idleIfExpired_keeps hn
    rw [unlessFrozen_live (by rw [hmember]; exact hlive),
      lookAgain_live (Or.inr (by rw [htm, hmember]; exact hlive))] at hexec
    rw [checkApplied_drops] at hfault
    refine ⟨_, hexec, ?_, htm.trans hmember, ?_, ?_, ?_, ?_⟩
    · rw [htf, hfault]
      rfl
    · rw [hte, hevid, ← hkeep]
      rfl
    · rw [hte, hevid]
      rfl
    · rw [hte, hevid]
      rfl
    · rw [htf, hfault, ← hkeep]
      rfl
  · have hkeep : keptEvents s = kept := by
      unfold keptEvents
      simp only [badParity_flipped haside, hkept]
      rfl
    obtain ⟨happlied, hfault⟩ := judgeApplied_checks (st := st) hwf ho hc
    rw [happlied, hfault, checkApplied_drops, hkeep]
    exact ⟨rfl, rfl⟩

end Sys2Proof.Machine
end

section
/-! PROOFS. Freezing faults (R161, R163): the station that a freeze leaves, the read that freezes it, and the steps in which the read of a
faulty word stops everything that would follow. -/

namespace Sys2Proof.Machine

/-! ## The station that a freeze leaves (R40, R63, R98, R163) -/

/-- The freeze of `s` by word `w` has led to `t`: the station stopped, and in the Link Unit the LOGOUT request and what was selected. -/
def FrozenBy (kind : FaultKind) (w : StoreWord) (s t : State) : Prop :=
  ∃ link count, t = ((stopStation kind w s).withLink link).withFreeCount count

section
variable {m : Moment} {kind : FaultKind} {w : StoreWord} {s t : State}

theorem FrozenBy.selectFrame (h : FrozenBy kind w s t) : FrozenBy kind w s (selectFrame t) := by
  obtain ⟨link, count, rfl⟩ := h
  obtain ⟨current, count', hs, -⟩ :=
    selectFrame_noHits (s := ((stopStation kind w s).withLink link).withFreeCount count) rfl
  exact ⟨_, count', hs⟩

theorem freeze_frozenBy (kind : FaultKind) (w : StoreWord) (s : State) : FrozenBy kind w s (freeze kind w s) := by
  unfold freeze requestUnchecked
  dsimp only
  split
  next => exact FrozenBy.selectFrame ⟨(enqueue .logout _ (stopStation kind w s)).link, s.freeCount, rfl⟩
  next => exact ⟨(stopStation kind w s).link, s.freeCount, rfl⟩

/-- With no frame current, the flush leaves the LOGOUT request alone in the queue (R63, R164). -/
theorem freeze_queue (hc : s.link.current = none) :
    ∃ d, (freeze kind w s).link.queue = [d] ∧ d.kind = .logout ∧ d.ref = s.link.nextRef := by
  have hflush : (stopStation kind w s).link = { s.link with queue := [] } := by
    change flushLink s.link = _
    unfold flushLink
    rw [hc]
    exact congrArg (fun x => { s.link with queue := [], current := x }) hc.symm
  have hcan : canRequest .logout (stopStation kind w s) = true := by
    unfold canRequest
    rw [hflush]
    rfl
  unfold freeze requestUnchecked
  rw [if_pos hcan]
  obtain ⟨current, count, hs, -⟩ :=
    selectFrame_noHits (s := enqueue .logout (logoutPayload .part1 (stopStation kind w s)) (stopStation kind w s)) rfl
  rw [hs]
  refine ⟨⟨s.link.nextRef, .logout, logoutPayload .part1 (stopStation kind w s), s.now⟩, ?_, rfl, rfl⟩
  change (stopStation kind w s).link.queue ++ [⟨(stopStation kind w s).link.nextRef, _, _, _⟩] = _
  rw [hflush]
  rfl

/-- A frame on its lane finishes its attempt before LOGOUT part 1 is selected (R63). -/
theorem freeze_transmitting {c : CurrentFrame} {stamp : Tag} (hc : s.link.current = some c) (ha : c.attempt = .transmitting stamp) :
    logoutWaits (freeze kind w s).link = false := by
  have hcurrent : (stopStation kind w s).link.current = some { c with noRetry := true, unreported := true } := by
    change (flushLink s.link).current = _
    unfold flushLink
    rw [hc]
    dsimp only
    rw [ha]
  have hkept : (freeze kind w s).link.current = some { c with noRetry := true, unreported := true } := by
    unfold freeze requestUnchecked
    dsimp only
    split
    next =>
      rw [selectFrame_busy (s := enqueue _ _ _) (by change (stopStation kind w s).link.current.isSome = true; rw [hcurrent]; rfl)]
      exact hcurrent
    next => exact hcurrent
  unfold logoutWaits
  rw [hkept]
  dsimp only
  rw [ha, Bool.and_false]

/-- What a freeze at `tag` makes of the station and of its fault record. -/
theorem FrozenBy.fields {s0 : State} {tag : Tag} (h : FrozenBy kind w s t) (hnow : s.now = tag) (hm : s.member = s0.member)
    (hc : s.tracker.cycle = s0.tracker.cycle) (hp : s.tracker.phase = s0.tracker.phase)
    (hr : s.fault.record = s0.fault.record) :
    t.member = { s0.member with station := .frozen } ∧ t.fault.faultedWord = some w ∧ t.fault.logout = some .part1 ∧
      t.fault.logoutTimer = some (tag + 100000) ∧
      t.fault.record = { kind := some kind, store := some (storeOf w), cycle := some s0.tracker.cycle
                         phase := some s0.tracker.phase, tag := some tag, partsSent := 0, doubleFault := false
                         restarts := s0.fault.record.restarts } := by
  obtain ⟨link, count, rfl⟩ := h
  rw [← hm, ← hc, ← hp, ← hr, ← hnow]
  exact ⟨rfl, rfl, rfl, rfl, rfl⟩

/-- What a freeze leaves, and the coincidence state that it clears. -/
theorem FrozenBy.elsewhere (h : FrozenBy kind w s t) : t.coin = clearCoincidence s.coin ∧ t.tracker = s.tracker ∧ t.evid = s.evid ∧
    t.agree = s.agree ∧ t.coup = s.coup ∧ t.port = s.port := by
  obtain ⟨link, count, rfl⟩ := h
  exact ⟨rfl, rfl, rfl, rfl, rfl, rfl⟩

/-- The channels are OFF, with their losses kept, and the Own Hit Queue is empty; soft faults are none of a freeze's (R35, R40, R162). -/
theorem FrozenBy.channels (h : FrozenBy kind w s t) : t.fault.softFaults = s.fault.softFaults ∧ t.channels.queue = [] ∧
    ∀ c, t.channels.units.get c = { ChannelUnit.reset with losses := (s.channels.units.get c).losses } := by
  obtain ⟨link, count, rfl⟩ := h
  exact ⟨rfl, rfl, fun c => Four.get_map _ _ c⟩

theorem FrozenBy.frozen (h : FrozenBy kind w s t) : t.member.station = .frozen := by
  obtain ⟨link, count, rfl⟩ := h
  rfl

/-- After a freeze nothing of the step follows (R163). -/
theorem FrozenBy.unlessFrozen (h : FrozenBy kind w s t) (f : State → State) : t.unlessFrozen f = t := if_pos h.frozen

/-! ## One faulty word -/

/-- Bits have flipped of word `w` alone, which is not set aside. -/
def LoneFault (w : StoreWord) (s : State) : Prop :=
  s.fault.flipped ≠ [] ∧ (∀ u ∈ s.fault.flipped, u.word = w) ∧ s.fault.faultedWord ≠ some w

theorem LoneFault.badParity_eq (h : LoneFault w s) (x : StoreWord) : badParity s x = decide (x = w) := by
  obtain ⟨hne, hflips, haside⟩ := h
  by_cases hx : x = w
  · obtain ⟨u, hu⟩ := List.exists_mem_of_ne_nil _ hne
    rw [hx, decide_eq_true rfl, badParity_of_flip ⟨u, hu, hflips u hu⟩ haside]
  · rw [decide_eq_false hx, badParity_of_others fun u hu hux => hx (hux.symm.trans (hflips u hu))]

theorem LoneFault.sound (h : LoneFault w s) {x : StoreWord} (hx : x ≠ w) : badParity s x = false := by
  rw [h.badParity_eq, decide_eq_false hx]

theorem LoneFault.of_flips (h : LoneFault w s) (hf : t.fault.flipped = s.fault.flipped)
    (ha : t.fault.faultedWord = s.fault.faultedWord) : LoneFault w t := by
  unfold LoneFault
  rw [hf, ha]
  exact h

theorem LoneFault.of_fault (h : LoneFault w s) (hf : t.fault = s.fault) : LoneFault w t := h.of_flips (by rw [hf]) (by rw [hf])

/-- Of the words of a read, the faulty one is found. -/
theorem LoneFault.find (h : LoneFault w s) {words : List StoreWord} (hw : w ∈ words) :
    (words.find? fun x => badParity s x) = some w := by
  have hbad : badParity s w = true := by rw [h.badParity_eq, decide_eq_true rfl]
  have hsome : (words.find? fun x => badParity s x).isSome = true := List.find?_isSome.mpr ⟨w, hw, hbad⟩
  obtain ⟨x, hx⟩ := Option.isSome_iff_exists.mp hsome
  have hxw := List.find?_some hx
  rw [h.badParity_eq] at hxw
  rw [hx, of_decide_eq_true hxw]

theorem readFault_atWork (kind : FaultKind) (w : StoreWord) (hwork : s.atWork = true) : readFault kind w s = freeze kind w s := by
  unfold State.atWork at hwork
  unfold readFault
  cases hs : s.member.station with
  | joining => rfl
  | running => rfl
  | unconfigured | configured | frozen => rw [hs] at hwork; exact absurd hwork (by decide)

/-- A read that uses the faulty word of the configuration store freezes a station at work (R163). -/
theorem usingConfig_freezes {i : Nat} {offsets : List Nat} (h : LoneFault (.config i) s) (hi : i ∈ offsets) (hwork : s.atWork = true)
    (f : State → State) : FrozenBy .read (.config i) s (usingConfig offsets f s) := by
  have hfound : badConfig offsets s = some i := by
    have hsome : (badConfig offsets s).isSome = true :=
      List.find?_isSome.mpr ⟨i, hi, by rw [h.badParity_eq, decide_eq_true rfl]⟩
    obtain ⟨j, hj⟩ := Option.isSome_iff_exists.mp hsome
    have hji := List.find?_some hj
    rw [h.badParity_eq] at hji
    rw [hj, StoreWord.config.inj (of_decide_eq_true hji)]
  unfold usingConfig readingConfig
  rw [hfound]
  dsimp only
  rw [if_pos (linkUp_of_atWork hwork), id, readFault_atWork .read _ hwork]
  exact freeze_frozenBy _ _ _

theorem usingConfig_passes {offsets : List Nat} (h : LoneFault w s) (hne : ∀ i ∈ offsets, w ≠ .config i) (f : State → State) :
    usingConfig offsets f s = f s := usingConfig_ofSound (fun i hi => h.sound (hne i hi).symm) f

/-- A read that uses the faulty word of the table or the snapshot freezes a station at work (R163). -/
theorem usingWords_freezes {words : List StoreWord} (h : LoneFault w s) (hw : w ∈ words) (hwork : s.atWork = true)
    (f : State → State) : FrozenBy .read w s (usingWords words f s) := by
  unfold usingWords
  rw [h.find hw]
  dsimp only
  rw [readFault_atWork .read _ hwork]
  exact freeze_frozenBy _ _ _

theorem usingWords_passes {words : List StoreWord} (h : LoneFault w s) (hw : w ∉ words) (f : State → State) :
    usingWords words f s = f s := usingWords_ofSound (fun _ hx => h.sound fun he => hw (he ▸ hx)) f

/-- A station frozen by its one faulty word finds no fault any more. -/
theorem FrozenBy.noBadWord (h : FrozenBy kind w s t) (hlone : LoneFault w s) : NoBadWord t := by
  obtain ⟨link, count, rfl⟩ := h
  refine noBadWord_of_aside fun u hu => ?_
  exact congrArg some (hlone.2.1 u (List.mem_filter.mp hu).1).symm

/-- The selection that ends a close leaves a frozen station frozen as it is. -/
theorem FrozenBy.selectNext (h : FrozenBy kind w s t) (hlone : LoneFault w s) : FrozenBy kind w s (selectNext t) := by
  rw [selectNext_quiet (h.noBadWord hlone)]
  exact h.selectFrame

/-- The end of a step finds no second fault where the access timeout is sound or LOGOUT part 1 does not wait (R49, R166). -/
theorem lookAgain_passes {s0 : State} (h : badParity t (.config 0x10) = false ∨ logoutWaits t.link = false) : lookAgain s0 t = t := by
  unfold lookAgain
  rcases h with h | h
  · rw [h, Bool.and_false, Bool.false_and, if_neg Bool.false_ne_true]
  · rw [h, Bool.and_false, if_neg Bool.false_ne_true]

theorem FrozenBy.lookAgain {s0 : State} (h : FrozenBy kind w s t) (hlone : LoneFault w s) : lookAgain s0 t = t :=
  lookAgain_passes (Or.inl (h.noBadWord hlone _))

/-! ## The scrub (R161, R163) -/

/-- The scrub goes through the configuration store, the Segment Table and the snapshot held, and around (R161). -/
theorem scrubAfter_next (s : State) (w : StoreWord) :
    (∀ i, w = .config i → i + 1 < 2048 → scrubAfter s w = .config (i + 1)) ∧
    (∀ i, w = .config i → 2048 ≤ i + 1 → s.evid.table ≠ [] → scrubAfter s w = .segment 1) ∧
    (∀ i, w = .config i → 2048 ≤ i + 1 → s.evid.table = [] → scrubAfter s w = .config 0) ∧
    (∀ n, w = .segment n → n < s.evid.table.length → scrubAfter s w = .segment (n + 1)) ∧
    (∀ n, w = .segment n → s.evid.table.length ≤ n → s.agree.snapshot ≠ none → scrubAfter s w = .snapshot 0) ∧
    (∀ n, w = .segment n → s.evid.table.length ≤ n → s.agree.snapshot = none → scrubAfter s w = .config 0) ∧
    (∀ n, w = .snapshot n → n < s.evid.table.length → scrubAfter s w = .snapshot (n + 1)) ∧
    (∀ n, w = .snapshot n → s.evid.table.length ≤ n → scrubAfter s w = .config 0) := by
  refine ⟨?_, ?_, ?_, ?_, ?_, ?_, ?_, ?_⟩
  · rintro i rfl hlt
    exact if_pos hlt
  · rintro i rfl hge htable
    exact (if_neg (Nat.not_lt.mpr hge)).trans (if_neg (by simpa using htable))
  · rintro i rfl hge htable
    exact (if_neg (Nat.not_lt.mpr hge)).trans (if_pos (by simpa using htable))
  · rintro n rfl hlt
    exact if_pos hlt
  · rintro n rfl hge hsnap
    exact (if_neg (Nat.not_lt.mpr hge)).trans (if_pos (by simpa [Option.isSome_iff_ne_none] using hsnap))
  · rintro n rfl hge hsnap
    exact (if_neg (Nat.not_lt.mpr hge)).trans (if_neg (by simpa using hsnap))
  · rintro n rfl hlt
    exact if_pos hlt
  · rintro n rfl hge
    exact if_neg (Nat.not_lt.mpr hge)

/-- A scrub read of a sound word moves the scrub on (R161). -/
theorem exec_scrubRead_sound (hups : m.upsets = []) (hheld : s.resetHeld = false) (hl : s.linkUp = true)
    (hsound : badParity s s.fault.scrub = false) : exec (.scrubRead m) s = .next (scrubbed m s) := by
  have hends : lookAgain (s.withNow m.tag) (scrubbed m s) = scrubbed m s := lookAgain_live (by
    by_cases hf : s.member.station = .frozen
    · exact Or.inl (frozen_not_atWork (s := s.withNow m.tag) hf)
    · exact Or.inr hf)
  rw [exec_scrubRead_eq hups hheld hl, hsound, if_neg Bool.false_ne_true, hends]

/-- A scrub read of a faulty word freezes a station at work, where the access timeout does not make it a second fault (R163, R166). -/
theorem exec_scrubRead_faulty (hups : m.upsets = []) (hheld : s.resetHeld = false) (hwork : s.atWork = true)
    (hbad : badParity s s.fault.scrub = true)
    (htimeout : s.fault.scrub = .config 0x10 ∨ (∀ u ∈ s.fault.flipped, u.word ≠ .config 0x10) ∨
      ∃ c stamp, s.link.current = some c ∧ c.attempt = .transmitting stamp) :
    exec (.scrubRead m) s = .next (freeze .scrub s.fault.scrub (scrubbed m s)) := by
  have hends : lookAgain (s.withNow m.tag) (freeze .scrub s.fault.scrub (scrubbed m s)) =
      freeze .scrub s.fault.scrub (scrubbed m s) := by
    refine lookAgain_passes ?_
    rcases htimeout with hw | hflips | ⟨c, stamp, hc, ha⟩
    · obtain ⟨link, count, hs⟩ := freeze_frozenBy .scrub s.fault.scrub (scrubbed m s)
      rw [hs]
      exact Or.inl (badParity_of_sound (Or.inr (congrArg some hw)))
    · obtain ⟨link, count, hs⟩ := freeze_frozenBy .scrub s.fault.scrub (scrubbed m s)
      rw [hs]
      exact Or.inl (badParity_of_others fun u hu => hflips u (List.mem_filter.mp hu).1)
    · exact Or.inr (freeze_transmitting (s := scrubbed m s) hc ha)
  rw [exec_scrubRead_eq hups hheld (linkUp_of_atWork hwork), if_pos hbad, readFault_atWork (s := scrubbed m s) .scrub _ hwork, hends]

/-! ## READ SEGMENT (R161, R168) -/

theorem exec_readSegment_faulty {n : Byte} (hups : m.upsets = []) (hheld : s.resetHeld = false) (hwork : s.atWork = true)
    (hslot : s.port.slot = none) (hcheck : s.port.checking = false) (h1 : 1 ≤ n.toNat) (h2 : n.toNat ≤ Block.nSeg s.block)
    (hlone : LoneFault (.segment n.toNat) s) :
    ∃ t, exec (.readSegment m n) s = .next t ∧ FrozenBy .read (.segment n.toNat) (segmentRead m n s) t := by
  have hfrozen := freeze_frozenBy .read (.segment n.toNat) (segmentRead m n s)
  refine ⟨_, ?_, hfrozen⟩
  rw [exec_readSegment_eq hups hheld (linkUp_of_atWork hwork) hslot hcheck h1 h2,
    boardReads_found (s := s.withNow m.tag) (hlone.of_fault (t := s.withNow m.tag) rfl |>.find (by simp)),
    readFault_atWork (s := segmentRead m n s) .read _ hwork, hfrozen.lookAgain (hlone.of_fault rfl)]

/-! ## The making of a ROW (R141, R161) -/

/-- A ROW whose words, N_SEG or H are faulty is not requested (R141). -/
theorem sendRow_freezes {n : Nat} {snap : Snapshot} (hsnap : s.agree.snapshot = some snap) (hwork : s.atWork = true)
    (hlone : LoneFault w s)
    (hw : w = .config 0x1A ∨ w = .config 0x1B ∨
      ∃ k, w = .snapshot k ∧ (k = 0 ∨ (n ≤ k ∧ k < n + ((snap.records.drop (n - 1)).take 4).length))) :
    FrozenBy .read w s (sendRow n s) := by
  unfold sendRow
  rw [hsnap]
  dsimp only
  by_cases hseg : w = .config 0x1A
  · subst hseg
    exact usingConfig_freezes hlone (List.mem_singleton.mpr rfl) hwork _
  · rw [usingConfig_passes hlone fun i hi => by rw [List.mem_singleton.mp hi]; exact hseg]
    unfold makeRow rowSourceWords
    rcases hw with rfl | rfl | ⟨k, rfl, hk⟩
    · exact absurd rfl hseg
    · rw [usingWords_passes hlone (by simp)]
      exact usingConfig_freezes hlone (List.mem_singleton.mpr rfl) hwork _
    · refine usingWords_freezes hlone ?_ hwork _
      rcases hk with rfl | ⟨hk1, hk2⟩
      · exact List.mem_cons_self
      · refine List.mem_cons_of_mem _ (List.mem_map.mpr ⟨k - n, List.mem_range.mpr ?_, ?_⟩)
        · change k - n < ((snap.records.drop (n - 1)).take 4).length
          omega
        · change StoreWord.snapshot (n + (k - n)) = _
          rw [Nat.add_sub_cancel' hk1]

theorem exec_transferLeadExpiry_faulty {n : Nat} {d : Tag} {snap : Snapshot} (hups : m.upsets = []) (hheld : s.resetHeld = false)
    (hwork : s.atWork = true) (htr : s.agree.transfer = .sending n (.lead d)) (hd : reached m.tag d = true)
    (hsnap : s.agree.snapshot = some snap) (hlone : LoneFault w s)
    (hw : w = .config 0x1A ∨ w = .config 0x1B ∨
      ∃ k, w = .snapshot k ∧ (k = 0 ∨ (n ≤ k ∧ k < n + ((snap.records.drop (n - 1)).take 4).length))) :
    ∃ t, exec (.transferLeadExpiry m) s = .next t ∧ FrozenBy .read w (s.withNow m.tag) t := by
  have hdue : leadDue (s.withNow m.tag) = some n := by
    unfold leadDue
    rw [withNow_agree, htr, withNow_now]
    dsimp only
    rw [hd, show (s.withNow m.tag).atWork = true from hwork]
    rfl
  have hlone' : LoneFault w (s.withNow m.tag) := hlone.of_fault rfl
  have hfrozen := sendRow_freezes (s := s.withNow m.tag) hsnap hwork hlone' hw
  refine ⟨_, ?_, hfrozen⟩
  change execTransferLeadExpiry m s = _
  unfold execTransferLeadExpiry
  rw [atMoment_noUpsets hups hheld, hdue]
  dsimp only
  rw [hfrozen.lookAgain hlone']

end

end Sys2Proof.Machine
end

section
/-! PROOFS. Freezing faults in the forming of a group and in a settle close (R85, R116, R132, R161, R163): what a close has done when the
faulty word stops it. -/

namespace Sys2Proof.Machine

section
variable {m : Moment} {kind : FaultKind} {w : StoreWord} {s t : State}

/-! ## The forming of a group (R79, R80, R85) -/

/-- The Hit Window is empty after a freeze, whatever it was: a freeze does not show what had entered or left it (R98). -/
theorem FrozenBy.of_window {window : List HitEntry} (h : FrozenBy kind w (s.withCoin { s.coin with window := window }) t) :
    FrozenBy kind w s t := h

/-- The words written anew are none of the faulty one. -/
theorem LoneFault.rewrite_eq {p : StoreWord → Bool} (h : LoneFault w s) (hp : p w = false) : rewrite p s = s := by
  unfold rewrite
  rw [flips_filter_self fun u hu => by rw [h.2.1 u hu, hp]; rfl]
  rfl

/-- While an entry remains, the forming of the group reads CW and GA (R85). -/
theorem formGroup_freezes {k : Nat} (h : LoneFault (.config k) s) (hk : k ∈ expiryWords) (hne : s.coin.window ≠ [])
    (hwork : s.atWork = true) : FrozenBy .read (.config k) s (formGroup s) := by
  unfold formGroup
  dsimp only
  rw [checkWindow_clean fun e _ => h.sound (by simp), if_neg (by simpa using hne)]
  exact usingConfig_freezes h hk hwork id

/-- An own hit that enters the Hit Window has the group formed (R79, R85). -/
theorem enterOwnHit_freezes {k : Nat} (c : Channel) (arrival : Tag) (phase : Phase) (h : LoneFault (.config k) s)
    (hk : k ∈ expiryWords) (hroom : s.coin.window.length < 64) (hwork : s.atWork = true) :
    FrozenBy .read (.config k) s (enterOwnHit c arrival phase s) := by
  have hread : readWindow s = s := if_neg (by
    rw [Bool.not_eq_true, List.any_eq_false]
    exact fun e _ => by rw [h.sound (by simp)]; exact Bool.false_ne_true)
  unfold enterOwnHit offerOwnHit hitEntered windowCapacity
  rw [hread, unlessFrozen_live (atWork_not_frozen hwork), if_neg (by omega)]
  generalize ownHitId s c arrival = id
  have hentered : LoneFault (.config k) (enterWindow ⟨id, arrival, phase, none, true⟩ s) := h.of_fault rfl
  rw [hentered.rewrite_eq (by simp)]
  exact (formGroup_freezes hentered hk (List.ne_nil_of_mem (mem_insertEntry _ _)) hwork).of_window

/-- The removal of one entry of several has the group formed of the others (R80, R85). -/
theorem requestRemoval_freezes {k : Nat} {id : HitId} (h : LoneFault (.config k) s) (hk : k ∈ expiryWords)
    (hin : ∃ e ∈ s.coin.window, e.id = id) (hother : ∃ e ∈ s.coin.window, e.id ≠ id) (hwork : s.atWork = true) :
    FrozenBy .read (.config k) s (requestRemoval id s) := by
  obtain ⟨e, he, hid⟩ := hother
  have hremoved : LoneFault (.config k) (s.withCoin { s.coin with window := s.coin.window.filter fun e => e.id != id }) :=
    h.of_fault rfl
  unfold requestRemoval removeHit
  rw [if_pos (by simpa using hin), hremoved.rewrite_eq (by simp)]
  exact (formGroup_freezes hremoved hk (List.ne_nil_of_mem (List.mem_filter.mpr ⟨he, by simpa using hid⟩)) hwork).of_window

/-- An own hit's start freezes the station where CW or GA is faulty. -/
theorem exec_sample_faulty {ch : Channel} {v : Half} {k : Nat} (hk : k ∈ expiryWords) (hlow : k < 0x40) (hups : m.upsets = [])
    (hheld : s.resetHeld = false) (hlone : LoneFault (.config k) s) (hr : s.member.station = .running)
    (ho : s.tracker.isOpen = true) (hw : s.windowOpen = false) (hq : (s.channels.units.get ch).state = .quiet)
    (hth : s.threshold (noteSample m.tag (envelope v) (s.channels.units.get ch)) ≤ amplitude (envelope v))
    (hroom : s.coin.window.length < 64) (hwork : s.atWork = true) :
    ∃ t channels, exec (.sample m ch v) s = .next t ∧
      FrozenBy .read (.config k) ((s.withNow m.tag).withChannels channels) t := by
  obtain ⟨channels, hexec⟩ := exec_sample_own hups hheld hr ho hw hq hth fun i hi => hlone.sound fun he => by
    have := StoreWord.config.inj he
    omega
  have hlone' : LoneFault (.config k) ((s.withNow m.tag).withChannels channels) := hlone.of_fault rfl
  have hfrozen := enterOwnHit_freezes ch m.tag s.tracker.phase hlone' hk hroom hwork
  rw [hfrozen.lookAgain hlone'] at hexec
  exact ⟨_, channels, hexec, hfrozen⟩

/-- An own hit's loss freezes the station where CW or GA is faulty and another entry remains. -/
theorem exec_sampleLoss_faulty {ch : Channel} {h : OpenHit} {last : Tag} {k : Nat} (hk : k ∈ expiryWords) (hups : m.upsets = [])
    (hheld : s.resetHeld = false) (hlone : LoneFault (.config k) s) (hi : (s.channels.units.get ch).state = .inHit)
    (ho : (s.channels.units.get ch).openHit = some h) (hown : h.kind = .own)
    (hwatch : (s.channels.units.get ch).watch = .watching last) (hgap : 8 ≤ elapsed m.tag last)
    (hin : ∃ e ∈ s.coin.window, e.id = ⟨s.ownNo, chNo ch, h.arrival⟩)
    (hother : ∃ e ∈ s.coin.window, e.id ≠ ⟨s.ownNo, chNo ch, h.arrival⟩) (hwork : s.atWork = true) :
    ∃ t channels, exec (.sampleLoss m ch) s = .next t ∧
      FrozenBy .read (.config k) ((s.withNow m.tag).withChannels channels) t := by
  obtain ⟨channels, hexec⟩ := exec_sampleLoss_own hups hheld hwork hi ho hown hwatch hgap
  have hlone' : LoneFault (.config k) ((s.withNow m.tag).withChannels channels) := hlone.of_fault rfl
  have hfrozen := requestRemoval_freezes hlone' hk hin hother hwork
  rw [hfrozen.unlessFrozen, hfrozen.lookAgain hlone'] at hexec
  exact ⟨_, channels, hexec, hfrozen⟩

/-! ## A fold that the faulty word stops (R116, R118) -/

/-- The table with the segments of `ns` folded. -/
def foldedOnly (closed : Option CycleNo) (ns : List Nat) (s : State) : List SegmentRecord :=
  ns.foldl (fun t n => t.modify (n - 1) (foldRecord s.block closed (entriesOn s.block s.evid.applied n))) s.evid.table

/-- The fold stops at the faulty segment, with the segments before it folded (R116, R163). -/
theorem foldSegments_freezes (closed : Option CycleNo) {before after : List Nat} {k : Nat} (h : LoneFault (.segment k) s)
    (hk : k ∉ before) (hwork : s.atWork = true) :
    FrozenBy .read (.segment k) (s.withEvid { s.evid with table := foldedOnly closed before s })
      (foldSegments closed (before ++ k :: after) s) := by
  induction before generalizing s with
  | nil =>
    have hfrozen := usingWords_freezes h (List.mem_singleton.mpr rfl) hwork
      (usingConfig (foldReads s.block s.evid.applied k (s.segmentRecord k)) (foldOne closed k))
    change FrozenBy _ _ s ((foldSegment closed k s).unlessFrozen (foldSegments closed after))
    unfold foldSegment
    rw [hfrozen.unlessFrozen]
    exact hfrozen
  | cons n before ih =>
    rw [List.mem_cons, not_or] at hk
    obtain ⟨hn, hk⟩ := hk
    have hpass : foldSegment closed n s = foldOne closed n s := by
      unfold foldSegment
      rw [usingWords_passes h (by simpa using hn), usingConfig_passes h fun i _ => by simp]
    change FrozenBy _ _ _ ((foldSegment closed n s).unlessFrozen (foldSegments closed (before ++ k :: after)))
    rw [hpass, unlessFrozen_live (by exact atWork_not_frozen hwork)]
    exact ih (s := foldOne closed n s) (h.of_fault rfl) hk hwork

/-- Of the segments before the faulty one each is folded with the entries placed on it. -/
theorem foldedOnly_range (closed : Option CycleNo) (k : Nat) (s : State) : foldedOnly closed ((List.range (k - 1)).map (· + 1)) s =
    s.evid.table.mapIdx fun i r =>
      if i + 1 < k then foldRecord s.block closed (entriesOn s.block s.evid.applied (i + 1)) r else r := by
  have hd : ((List.range (k - 1)).map (· + 1)).Nodup := List.nodup_range.map fun a b h => Nat.add_right_cancel h
  have hp : ∀ n ∈ (List.range (k - 1)).map (· + 1), 1 ≤ n := fun n hn => by
    obtain ⟨i, -, rfl⟩ := List.mem_map.mp hn
    exact Nat.le_add_left 1 i
  have hmem : ∀ i, i + 1 ∈ (List.range (k - 1)).map (· + 1) ↔ i + 1 < k := fun i => by
    simp only [List.mem_map, List.mem_range, Nat.add_right_cancel_iff, exists_eq_right]
    omega
  unfold foldedOnly
  rw [foldl_modify_eq_mapIdx (fun n => foldRecord s.block closed (entriesOn s.block s.evid.applied n)) hd hp]
  simp only [hmem]

/-- The segment numbers up to a segment of the table, that segment, and those after it. -/
theorem segmentNumbers_split {k : Nat} (h1 : 1 ≤ k) (h2 : k ≤ s.evid.table.length) :
    ∃ after, segmentNumbers s = (List.range (k - 1)).map (· + 1) ++ k :: after := by
  obtain ⟨d, hd⟩ := Nat.exists_eq_add_of_le (show k - 1 + 1 ≤ s.evid.table.length by omega)
  unfold segmentNumbers
  rw [hd, List.range_add, List.range_succ, List.map_append, List.map_append, List.append_assoc, List.map_singleton,
    Nat.sub_add_cancel h1]
  exact ⟨_, rfl⟩

theorem LoneFault.rewrite {p : StoreWord → Bool} (h : LoneFault w s) (hp : p w = false) : LoneFault w (rewrite p s) := by
  rw [h.rewrite_eq hp]
  exact h

/-- The check of the Applied Event List finds none of its entries faulty. -/
theorem LoneFault.checkApplied (h : LoneFault w s) (hw : ∀ key, w ≠ .applied key) :
    LoneFault w (checkApplied s) ∧ (checkApplied s).evid = s.evid := by
  refine ⟨LoneFault.rewrite (s := State.withFault _ _) (h.of_flips rfl rfl) ?_,
    checkApplied_clean fun a _ => h.sound (hw _).symm⟩
  cases w with
  | applied key => exact absurd rfl (hw key)
  | config | segment | snapshot | window => rfl

/-- The fold of a NORMAL close stops at the faulty segment (R116, R118, R163). -/
theorem evidenceClose_freezes_segment (closed : Option CycleNo) {k : Nat} (h : LoneFault (.segment k) s) (hwork : s.atWork = true)
    (h1 : 1 ≤ k) (h2 : k ≤ s.evid.table.length) :
    FrozenBy .read (.segment k) ((checkApplied s).withEvid { s.evid with
        table := s.evid.table.mapIdx fun i r =>
          if i + 1 < k then foldRecord s.block closed (entriesOn s.block s.evid.applied (i + 1)) r else r })
      (evidenceClose closed .normal s) := by
  obtain ⟨hlone, hevid⟩ := h.checkApplied fun key => by simp
  obtain ⟨after, hsplit⟩ := segmentNumbers_split (s := checkApplied s) h1 (by rw [hevid]; exact h2)
  have hnot : k ∉ (List.range (k - 1)).map (· + 1) := fun hmem => by
    obtain ⟨i, hi, rfl⟩ := List.mem_map.mp hmem
    exact absurd (List.mem_range.mp hi) (by omega)
  have hfolded := foldSegments_freezes closed (after := after) hlone hnot hwork
  rw [← hsplit, foldedOnly_range, hevid] at hfolded
  unfold evidenceClose
  dsimp only
  rw [usingConfig_passes hlone fun i _ => by simp]
  unfold foldTable
  rw [hfolded.unlessFrozen]
  exact hfolded

/-- A faulty N_SEG stops a NORMAL close before the fold (R116, R163). -/
theorem evidenceClose_freezes_nSeg (closed : Option CycleNo) (h : LoneFault (.config 0x1A) s) (hwork : s.atWork = true) :
    FrozenBy .read (.config 0x1A) ((checkApplied s).withEvid s.evid) (evidenceClose closed .normal s) := by
  obtain ⟨hlone, hevid⟩ := h.checkApplied fun key => by simp
  have hfrozen := usingConfig_freezes hlone (List.mem_singleton.mpr rfl) hwork (foldTable closed)
  rw [← hevid]
  unfold evidenceClose
  dsimp only
  rw [hfrozen.unlessFrozen]
  exact hfrozen

/-! ## The Agreement Unit's close work up to N_SEG (R132) -/

/-- The previous window cut, the transfer ended and the carry list emptied. -/
def transferCut (s : State) : State :=
  let s1 := if s.agree.window.isSome then
      agreeCounts (fun k => { k with cut := raised k.cut }) (s.withAgree { s.agree with window := none })
    else s
  let s2 := abandonTransfer .close (stopSending s1)
  s2.withAgree { s2.agree with carry := [], carryOverflow := false }

theorem agreementClose_eq (closed : Option CycleNo) (s : State) :
    agreementClose closed s = usingConfig [0x1A] (copyTable closed) (transferCut s) := rfl

/-- The Agreement Unit with the previous window cut (R132). -/
def windowCut (a : Agreement) : Agreement :=
  { a with window := none, counts := { a.counts with cut := if a.window.isSome then raised a.counts.cut else a.counts.cut } }

theorem windowCut_none {a : Agreement} (h : a.window = none) : windowCut a = a := by
  cases a
  cases h
  rfl

theorem windowCut_eq (s : State) : (if s.agree.window.isSome then
      agreeCounts (fun k => { k with cut := raised k.cut }) (s.withAgree { s.agree with window := none })
    else s) = s.withAgree (windowCut s.agree) := by
  cases hw : s.agree.window with
  | none =>
    rw [windowCut_none hw]
    rfl
  | some x =>
    unfold windowCut
    rw [hw]
    rfl

/-- What the cut makes of the Agreement Unit; besides it only the queue and the notices change (R132, R142, R147). -/
theorem transferCut_eq (s : State) : ∃ link port,
    transferCut s = ((s.withAgree (cutAgreement s.agree)).withLink link).withPort port := by
  unfold transferCut
  rw [windowCut_eq]
  generalize hx : s.withAgree (windowCut s.agree) = x
  have htransfer : x.agree.transfer = s.agree.transfer := by rw [← hx]; rfl
  dsimp only
  unfold stopSending cutAgreement
  rw [htransfer]
  cases htr : s.agree.transfer with
  | idle =>
    dsimp only
    rw [abandonTransfer_other _ (by simp [htransfer, htr]), ← hx]
    refine ⟨s.link, s.port, ?_⟩
    rw [← htr]
    rfl
  | awaiting donor c v n r b =>
    dsimp only
    rw [abandonTransfer_awaiting _ (htransfer.trans htr), ← hx]
    exact ⟨_, _, rfl⟩
  | sending n stage =>
    cases stage with
    | lead d =>
      dsimp only
      rw [abandonTransfer_other (s := setTransfer .idle x) _ (by simp [setTransfer]), ← hx]
      exact ⟨_, _, rfl⟩
    | row ref last =>
      dsimp only
      rw [abandonTransfer_other (s := setTransfer .idle _) _ (by simp [setTransfer]), withdraw_eq, ← hx]
      exact ⟨_, _, rfl⟩

/-- What a close that is not NORMAL makes of the Evidence Unit (R121). -/
def unfoldedEvid (v : Evidence) : Evidence :=
  { v with applied := [], counts := { v.counts with unfolded := raisedBy v.applied.length v.counts.unfolded } }

theorem LoneFault.evidenceClose_unfolded (closed : Option CycleNo) {close : CloseKind} (hclose : close ≠ .normal)
    (h : LoneFault w s) (hw : ∀ key, w ≠ .applied key) : evidenceClose closed close s = s.withEvid (unfoldedEvid s.evid) := by
  have hcounted : LoneFault w (s.withEvid (unfoldedEvid s.evid)) := h.of_fault rfl
  have hemptied : emptyApplied (evidCounts (fun k => { k with unfolded := raisedBy s.evid.applied.length k.unfolded }) s) =
      s.withEvid (unfoldedEvid s.evid) := by
    refine hcounted.rewrite_eq ?_
    cases w with
    | applied key => exact absurd rfl (hw key)
    | config | segment | snapshot | window => rfl
  cases close with
  | normal => exact absurd rfl hclose
  | disordered | abandoned => exact hemptied

/-- A faulty N_SEG stops a close that is not NORMAL with the list emptied and the transfer cut, before the snapshot (R121, R132, R163). -/
theorem closeTables_freezes_unfolded (closed : Option CycleNo) {close : CloseKind} (hclose : close ≠ .normal)
    (h : LoneFault (.config 0x1A) s) (hwork : s.atWork = true) : ∃ link port,
    FrozenBy .read (.config 0x1A)
      ((((s.withEvid (unfoldedEvid s.evid)).withAgree (cutAgreement s.agree)).withLink link).withPort port)
      (closeTables closed close s) := by
  obtain ⟨link, port, hcut⟩ := transferCut_eq (s.withEvid (unfoldedEvid s.evid))
  have hlone : LoneFault (.config 0x1A) (transferCut (s.withEvid (unfoldedEvid s.evid))) := h.of_fault (by rw [hcut]; rfl)
  have hfrozen := usingConfig_freezes hlone (List.mem_singleton.mpr rfl) (by rw [hcut]; exact hwork) (copyTable closed)
  refine ⟨link, port, ?_⟩
  unfold closeTables
  rw [h.evidenceClose_unfolded closed hclose fun key => by simp, unlessFrozen_live (by exact atWork_not_frozen hwork),
    agreementClose_eq]
  rw [hcut] at hfrozen ⊢
  exact hfrozen

/-! ## A settle close (R10, R13) -/

/-- The station whose close has begun: the tracker closed, with what becomes of the channels, the Link Unit, the coincidence state and the
notices before the tables (R13, R29, R31, R53, R95). -/
def closeBegun (tag : Tag) (channels : Channels) (link : Link) (coin : Coincidence) (port : BoardPort) (s : State) : State :=
  (((((s.withNow tag).withTracker (closedTracker s.tracker)).withChannels channels).withLink link).withCoin coin).withPort port

/-- A close begins outside the tables; only one that is not NORMAL raises a notice (R13). -/
theorem closeHits_begun (tag : Tag) (cause : CloseCause) (hlone : LoneFault w s) (hw : ∀ id, w ≠ .window id) :
    ∃ channels link coin port,
      closeHits (cycleFlagNotice s.tracker cause ((s.withNow tag).withTracker (closedTracker s.tracker))) =
        closeBegun tag channels link coin port s ∧
      (closeKind s.tracker.disordered s.tracker.abandoned = .normal → port = s.port) := by
  obtain ⟨hnotice, -⟩ := cycleFlagNotice_eq s.tracker cause ((s.withNow tag).withTracker (closedTracker s.tracker))
  have hport : closeKind s.tracker.disordered s.tracker.abandoned = .normal →
      (cycleFlagNotice s.tracker cause ((s.withNow tag).withTracker (closedTracker s.tracker))).port = s.port := fun hk => by
    unfold cycleFlagNotice
    rw [if_pos hk]
    rfl
  generalize (cycleFlagNotice s.tracker cause ((s.withNow tag).withTracker (closedTracker s.tracker))).port = port at hnotice hport
  have hfault := closeHits_fault (s := ((s.withNow tag).withTracker (closedTracker s.tracker)).withPort port) fun u hu id => by
    rw [hlone.2.1 u hu]
    exact hw id
  rw [hnotice]
  rw [closeHits_eq] at hfault ⊢
  exact ⟨_, _, _, port, state_ext rfl rfl rfl rfl rfl rfl rfl rfl rfl rfl hfault rfl rfl rfl, hport⟩

/-- Once the tables' side of a settle close has frozen the station, nothing more of the close follows. -/
theorem exec_settle_faulty {d : Tag} {z : State} (hups : m.upsets = []) (hheld : s.resetHeld = false) (hwork : s.atWork = true)
    (ho : s.tracker.isOpen = true) (hs : s.tracker.settle = some d) (hd : reached m.tag d = true) (hlone : LoneFault w z)
    (hclose : FrozenBy .read w z (closeTables s.tracker.cycle (closeKind s.tracker.disordered s.tracker.abandoned)
      (closeHits (cycleFlagNotice s.tracker .settle ((s.withNow m.tag).withTracker (closedTracker s.tracker)))))) :
    ∃ t, exec (.settleTimerExpiry m) s = .next t ∧ FrozenBy .read w z t := by
  have hclosed : FrozenBy .read w z (closeCycle .settle (s.withNow m.tag)) := hclose.selectNext hlone
  rw [exec_settleTimerExpiry_eq hups hheld hwork ho hs hd, hclosed.unlessFrozen, hclosed.lookAgain hlone]
  exact ⟨_, rfl, hclosed⟩

/-- A NORMAL settle close whose fold reads a faulty segment (R116, R118). -/
theorem exec_settle_segment {d : Tag} {k : Nat} (hups : m.upsets = []) (hheld : s.resetHeld = false) (hlone : LoneFault (.segment k) s)
    (hwork : s.atWork = true) (ho : s.tracker.isOpen = true) (hs : s.tracker.settle = some d) (hd : reached m.tag d = true)
    (hnormal : closeKind s.tracker.disordered s.tracker.abandoned = .normal) (h1 : 1 ≤ k) (h2 : k ≤ s.evid.table.length) :
    ∃ channels link coin t, exec (.settleTimerExpiry m) s = .next t ∧
      FrozenBy .read (.segment k) ((checkApplied (closeBegun m.tag channels link coin s.port s)).withEvid { s.evid with
        table := s.evid.table.mapIdx fun i r =>
          if i + 1 < k then foldRecord s.block s.tracker.cycle (entriesOn s.block s.evid.applied (i + 1)) r else r }) t := by
  obtain ⟨channels, link, coin, port, hbegun, hport⟩ := closeHits_begun m.tag .settle hlone fun id => by simp
  obtain rfl := hport hnormal
  have hlone' : LoneFault (.segment k) (closeBegun m.tag channels link coin s.port s) := hlone.of_fault rfl
  have hfolded := evidenceClose_freezes_segment s.tracker.cycle hlone' hwork h1 h2
  obtain ⟨hchecked, -⟩ := hlone'.checkApplied fun key => by simp
  refine ⟨channels, link, coin, exec_settle_faulty hups hheld hwork ho hs hd (hchecked.of_fault rfl) ?_⟩
  unfold closeTables
  rw [hnormal, hbegun, hfolded.unlessFrozen]
  exact hfolded

/-- A NORMAL settle close that reads a faulty N_SEG (R116). -/
theorem exec_settle_nSeg {d : Tag} (hups : m.upsets = []) (hheld : s.resetHeld = false) (hlone : LoneFault (.config 0x1A) s)
    (hwork : s.atWork = true) (ho : s.tracker.isOpen = true) (hs : s.tracker.settle = some d) (hd : reached m.tag d = true)
    (hnormal : closeKind s.tracker.disordered s.tracker.abandoned = .normal) :
    ∃ channels link coin t, exec (.settleTimerExpiry m) s = .next t ∧
      FrozenBy .read (.config 0x1A) ((checkApplied (closeBegun m.tag channels link coin s.port s)).withEvid s.evid) t := by
  obtain ⟨channels, link, coin, port, hbegun, hport⟩ := closeHits_begun m.tag .settle hlone fun id => by simp
  obtain rfl := hport hnormal
  have hlone' : LoneFault (.config 0x1A) (closeBegun m.tag channels link coin s.port s) := hlone.of_fault rfl
  have hstopped := evidenceClose_freezes_nSeg s.tracker.cycle hlone' hwork
  obtain ⟨hchecked, -⟩ := hlone'.checkApplied fun key => by simp
  refine ⟨channels, link, coin, exec_settle_faulty hups hheld hwork ho hs hd (hchecked.of_fault rfl) ?_⟩
  unfold closeTables
  rw [hnormal, hbegun, hstopped.unlessFrozen]
  exact hstopped

/-- Another settle close that reads a faulty N_SEG (R121, R132). -/
theorem exec_settle_nSeg_unfolded {d : Tag} (hups : m.upsets = []) (hheld : s.resetHeld = false)
    (hlone : LoneFault (.config 0x1A) s) (hwork : s.atWork = true) (ho : s.tracker.isOpen = true)
    (hs : s.tracker.settle = some d) (hd : reached m.tag d = true)
    (hflagged : closeKind s.tracker.disordered s.tracker.abandoned ≠ .normal) :
    ∃ channels link coin port t, exec (.settleTimerExpiry m) s = .next t ∧
      FrozenBy .read (.config 0x1A) (((closeBegun m.tag channels link coin port s).withEvid (unfoldedEvid s.evid)).withAgree
        (cutAgreement s.agree)) t := by
  obtain ⟨channels, link, coin, port, hbegun, -⟩ := closeHits_begun m.tag .settle hlone fun id => by simp
  have hlone' : LoneFault (.config 0x1A) (closeBegun m.tag channels link coin port s) := hlone.of_fault rfl
  obtain ⟨link', port', hstopped⟩ := closeTables_freezes_unfolded s.tracker.cycle hflagged hlone' hwork
  refine ⟨channels, link', coin, port', exec_settle_faulty hups hheld hwork ho hs hd (hlone.of_fault rfl) ?_⟩
  rw [hbegun]
  exact hstopped

end

/-- Settles O48: the read that finds the one faulty word freezes the station, and nothing of the step follows it. -/
theorem faultyReadFreezesStation : Obligations.FaultyReadFreezesStation := by
  refine ⟨fun m s w hups hheld hl hw hsound => ?_, fun m s w hups hheld hwork hw hflip haside htimeout => ?_,
    fun m s n w hw hbad hwork hslot hcheck h1 h2 => ?_, fun m s d k w hw hbad hwork ho hs hd hdis hab h1 h2 => ?_,
    fun m s d w hw hbad hwork ho hs hd => ?_, fun m s n d snap w hbad hwork htr hd hsnap hw => ?_,
    fun m s ch k w cmd hw hk hbad hwork hcmd => ?_⟩
  · subst hw
    exact ⟨_, exec_scrubRead_sound hups hheld hl (badParity_of_sound hsound), scrubAfter_next (s.withNow m.tag) s.fault.scrub⟩
  · subst hw
    have hfrozen := freeze_frozenBy .scrub s.fault.scrub (scrubbed m s)
    obtain ⟨hmember, hword, hlogout, htimer, hrecord⟩ := hfrozen.fields (s0 := s) (withNow_now s m.tag) rfl rfl rfl rfl
    obtain ⟨hcoin, htracker, hevid, hagree, hcoup, hport⟩ := hfrozen.elsewhere
    obtain ⟨hsoft, hqueue, hunits⟩ := hfrozen.channels
    exact ⟨_, exec_scrubRead_faulty hups hheld hwork (badParity_of_flip hflip haside) htimeout, hmember, hword, hlogout, htimer,
      hsoft, hrecord, htracker, hevid, hagree, hcoup, hport, hcoin, hqueue, hunits, fun hc => freeze_queue (s := scrubbed m s) hc⟩
  · subst hw
    obtain ⟨hups, hheld, hlone⟩ := hbad
    obtain ⟨t, hexec, hfrozen⟩ := exec_readSegment_faulty hups hheld hwork hslot hcheck h1 h2 hlone
    obtain ⟨hmember, hword, hlogout, htimer, hrecord⟩ := hfrozen.fields (s0 := s) (withNow_now s m.tag) rfl rfl rfl rfl
    obtain ⟨-, htracker, hevid, hagree, hcoup, hport⟩ := hfrozen.elsewhere
    exact ⟨t, hexec, hmember, hword, hlogout, htimer, hrecord, hport, htracker, hevid, hagree, hcoup⟩
  · subst hw
    obtain ⟨hups, hheld, hlone⟩ := hbad
    obtain ⟨channels, link, coin, t, hexec, hfrozen⟩ := exec_settle_segment hups hheld hlone hwork ho hs hd
      ((closeKind_normal_iff _ _).mpr ⟨hdis, hab⟩) h1 h2
    obtain ⟨hmember, hword, hlogout, htimer, hrecord⟩ := hfrozen.fields (s0 := s) (withNow_now s m.tag) rfl rfl rfl rfl
    obtain ⟨-, htracker, hevid, hagree, hcoup, hport⟩ := hfrozen.elsewhere
    refine ⟨t, hexec, hmember, hword, hlogout, htimer, hrecord, hevid, htracker.trans ?_, hagree, hcoup, hport⟩
    exact congrArg₂ (fun dis ab : Bool => { s.tracker with
      isOpen := false, settle := none, lastClosed := s.tracker.cycle, lastDisordered := dis, lastAbandoned := ab }) hdis hab
  · subst hw
    obtain ⟨hups, hheld, hlone⟩ := hbad
    by_cases hnormal : closeKind s.tracker.disordered s.tracker.abandoned = .normal
    · obtain ⟨hdis, hab⟩ := (closeKind_normal_iff _ _).mp hnormal
      obtain ⟨channels, link, coin, t, hexec, hfrozen⟩ := exec_settle_nSeg hups hheld hlone hwork ho hs hd hnormal
      obtain ⟨hmember, hword, hlogout, htimer, hrecord⟩ := hfrozen.fields (s0 := s) (withNow_now s m.tag) rfl rfl rfl rfl
      obtain ⟨-, htracker, hevid, hagree, hcoup, hport⟩ := hfrozen.elsewhere
      refine ⟨t, hexec, hmember, hword, hlogout, htimer, hrecord, htracker, hcoup, fun _ _ => ⟨hevid, hagree, hport⟩,
        fun hflag => ?_⟩
      simp [hdis, hab] at hflag
    · have hflagged : ¬(s.tracker.disordered = false ∧ s.tracker.abandoned = false) := fun h =>
        hnormal ((closeKind_normal_iff _ _).mpr h)
      obtain ⟨channels, link, coin, port, t, hexec, hfrozen⟩ := exec_settle_nSeg_unfolded hups hheld hlone hwork ho hs hd hnormal
      obtain ⟨hmember, hword, hlogout, htimer, hrecord⟩ := hfrozen.fields (s0 := s) (withNow_now s m.tag) rfl rfl rfl rfl
      obtain ⟨-, htracker, hevid, hagree, hcoup, -⟩ := hfrozen.elsewhere
      refine ⟨t, hexec, hmember, hword, hlogout, htimer, hrecord, htracker, hcoup, fun hdis hab => absurd ⟨hdis, hab⟩ hflagged,
        fun _ => ⟨hevid, hagree.trans ?_⟩⟩
      change cutAgreement s.agree = _
      unfold cutAgreement
      cases hwin : s.agree.window <;> rfl
  · obtain ⟨hups, hheld, hlone⟩ := hbad
    obtain ⟨t, hexec, hfrozen⟩ := exec_transferLeadExpiry_faulty hups hheld hwork htr hd hsnap hlone hw
    obtain ⟨hmember, hword, hlogout, htimer, hrecord⟩ := hfrozen.fields (s0 := s) (withNow_now s m.tag) rfl rfl rfl rfl
    obtain ⟨-, htracker, hevid, hagree, hcoup, hport⟩ := hfrozen.elsewhere
    exact ⟨t, hexec, hmember, hword, hlogout, htimer, hrecord, htracker, hevid, hagree, hcoup, hport⟩
  · subst hw
    obtain ⟨hups, hheld, hlone⟩ := hbad
    have hread : k ∈ expiryWords := by simpa [expiryWords] using hk
    obtain ⟨t, channels, hexec, hfrozen⟩ : ∃ t channels, exec cmd s = .next t ∧
        FrozenBy .read (.config k) ((s.withNow m.tag).withChannels channels) t := by
      rcases hcmd with ⟨v, rfl, hr, ho, hopen, hq, hth, hroom⟩ | ⟨h, last, rfl, hi, ho, hown, hwatch, hgap, hin, hother⟩
      · exact exec_sample_faulty hread (by omega) hups hheld hlone hr ho hopen hq hth hroom hwork
      · exact exec_sampleLoss_faulty hread hups hheld hlone hi ho hown hwatch hgap hin hother hwork
    obtain ⟨hmember, hword, hlogout, htimer, hrecord⟩ := hfrozen.fields (s0 := s) (withNow_now s m.tag) rfl rfl rfl rfl
    obtain ⟨hcoin, htracker, hevid, hagree, hcoup, hport⟩ := hfrozen.elsewhere
    exact ⟨t, hexec, hmember, hword, hlogout, htimer, hrecord, hcoin, htracker, hevid, hagree, hcoup, hport⟩

end Sys2Proof.Machine
end

section
/-! PROOFS. The RESET pin, power-on and the notice queue: what a held pin stops, the power-on values and the invariants they meet, and where a
raised notice goes (R174 to R176). -/

namespace Sys2Proof.Machine

/-! ## The RESET pin (R176) -/

/-- While the RESET pin is held no command but the pin's own and a power-on has an effect (R176). -/
theorem exec_held {s : State} (h : s.resetHeld = true) (c : Instr) (hreset : c ≠ .reset) (hpower : c ≠ .powerOn)
    (hrelease : c ≠ .resetRelease) : exec c s = .next s := by
  unfold exec
  cases c with
  | reset => exact absurd rfl hreset
  | powerOn => exact absurd rfl hpower
  | resetRelease => exact absurd rfl hrelease
  | _ =>
    dsimp only
    exact atMoment_held h _

/-- No channel's drive is active at the power-on values (R23, R40). -/
theorem reset_pulseDrive (ch : Channel) : State.reset.pulseDrive ch = false := by
  cases ch <;> rfl

/-- Settles O3: the three commands are the model's equations, and every other one is stopped by the held pin. -/
theorem resetReturnsPowerOnValues : Obligations.ResetReturnsPowerOnValues := by
  refine ⟨fun _ => rfl, fun _ => rfl, fun _ => rfl, fun c s hheld => exec_held hheld c,
    rfl, rfl, rfl, rfl, rfl, rfl, rfl, rfl, rfl, reset_pulseDrive⟩

/-! ## The invariants after reset -/

theorem reset_trackerInv : TrackerInv State.reset :=
  powerOnValues_trackerInv false State.reset

/-- After reset both lanes are GOOD and the link is not LOST (R55, R63). -/
theorem reset_lanesInv : LanesInv State.reset := by
  have hgood (l : Lane) : ¬ laneFaulty l Link.reset := by
    unfold laneFaulty
    cases l <;> decide
  exact ⟨⟨fun h => Bool.noConfusion h, fun h => absurd h.1 (hgood .x)⟩, fun _ => hgood .x, fun h => Bool.noConfusion h⟩

/-- After reset every collection is empty. -/
theorem reset_capacityInv : CapacityInv State.reset :=
  ⟨Nat.zero_le _, Nat.zero_le _, Nat.zero_le _, Nat.zero_le _, Nat.zero_le _, Nat.zero_le _, Nat.zero_le _, Nat.zero_le _⟩

/-- After reset the Segment Table is empty and no transfer is under way (R131, R149). -/
theorem reset_segmentsInv : SegmentsInv State.reset :=
  ⟨fun _ hr => absurd hr List.not_mem_nil, fun _ _ _ _ _ _ h => Transfer.noConfusion h⟩

/-- Settles O59, one invariant after the other. -/
theorem invariantsHoldAtReset : Obligations.InvariantsHoldAtReset :=
  ⟨reset_trackerInv, reset_lanesInv, reset_capacityInv, reset_segmentsInv⟩

/-! ## The notice queue (R174, R175) -/

theorem raise_room {n : Notice} {s : State} (h : s.port.notices.length < 32) :
    raise n s = s.withPort { s.port with notices := s.port.notices ++ [n] } :=
  if_pos h

theorem raise_full {n : Notice} {s : State} (h : 32 ≤ s.port.notices.length) :
    raise n s = s.withPort { s.port with
      stacked := s.port.stacked.set (noticeKindCode n.detail - 1)
        (raised255 (s.port.stacked.getD (noticeKindCode n.detail - 1) 0)) } :=
  if_neg h.not_gt

theorem noticeLine_iff (s : State) : s.noticeLine = true ↔ s.port.notices ≠ [] := by
  simp [State.noticeLine]

/-- Settles O27: the queue's room decides between the two. -/
theorem noticesAreQueuedOrStacked : Obligations.NoticesAreQueuedOrStacked :=
  fun _ s => ⟨raise_room, raise_full, noticeLine_iff s⟩

end Sys2Proof.Machine
end

section
/-! PROOFS. The end of a LOAD's checks (R170, R171): which conditions each check stands for, which index a check over a table reports, and what
the verdict makes of the station. -/

namespace Sys2Proof.Machine

/-! ## Ranges and tables -/

@[simp] theorem within_iff {lo hi n : Nat} : within lo hi n = true ↔ lo ≤ n ∧ n ≤ hi := by
  simp [within]

theorem u8_le (bs : List Byte) (i : Nat) : u8 bs i ≤ 255 :=
  Nat.le_of_lt_succ (bs.getD i 0).isLt

@[simp] theorem single_none_iff {ok : Bool} : single ok = none ↔ ok = true := by
  cases ok <;> simp [single]

theorem single_index {ok : Bool} {i : Nat} (h : single ok = some i) : i = 0 := by
  cases ok <;> simp [single] at h
  exact h.symm

@[simp] theorem mem_upTo {n i : Nat} : i ∈ upTo n ↔ 1 ≤ i ∧ i ≤ n := by
  unfold upTo
  rw [List.mem_map]
  constructor
  · rintro ⟨k, hk, rfl⟩
    have := List.mem_range.mp hk
    omega
  · rintro ⟨h1, h2⟩
    exact ⟨i - 1, List.mem_range.mpr (by omega), by omega⟩

theorem upTo_sorted (n : Nat) : (upTo n).Pairwise (· < ·) :=
  List.pairwise_map.mpr (List.pairwise_lt_range.imp fun h => Nat.succ_lt_succ h)

/-- A check over these entries passes if every one is fine, and otherwise reports the first that is not (R170). -/
def ReportsFirst (entries : List Nat) (ok : Nat → Prop) (result : Option Nat) : Prop :=
  (result = none ↔ ∀ i ∈ entries, ok i) ∧
  ∀ i, result = some i ↔ i ∈ entries ∧ ¬ ok i ∧ ∀ j ∈ entries, j < i → ok j

/-- What the first failing entry of a sorted list is: the entry below which none fails. -/
theorem firstBad_found {entries : List Nat} {test : Nat → Bool} {i : Nat} (hs : entries.Pairwise (· < ·))
    (h : firstBad entries test = some i) : i ∈ entries ∧ test i = false ∧ ∀ j ∈ entries, j < i → test j = true := by
  obtain ⟨hi, before, after, rfl, hbefore⟩ := List.find?_eq_some_iff_append.mp h
  have hafter : ∀ j ∈ after, i < j := (List.pairwise_cons.mp (List.pairwise_append.mp hs).2.1).1
  refine ⟨by simp, by simpa using hi, fun j hj hlt => ?_⟩
  rcases List.mem_append.mp hj with hj | hj
  · simpa using hbefore j hj
  · rcases List.mem_cons.mp hj with rfl | hj
    · exact absurd hlt (lt_irrefl _)
    · exact absurd hlt (hafter j hj).not_gt

/-- A table's check, its entries in rising order, reports the first that fails. -/
theorem firstBad_reportsFirst {entries : List Nat} {test : Nat → Bool} {ok : Nat → Prop} (hs : entries.Pairwise (· < ·))
    (h : ∀ i, test i = true ↔ ok i) : ReportsFirst entries ok (firstBad entries test) := by
  have hnone : firstBad entries test = none ↔ ∀ i ∈ entries, ok i := by simp [firstBad, h]
  have hfound : ∀ i, firstBad entries test = some i → i ∈ entries ∧ ¬ ok i ∧ ∀ j ∈ entries, j < i → ok j := by
    intro i hi
    simpa [← h] using firstBad_found hs hi
  refine ⟨hnone, fun i => ⟨hfound i, fun ⟨hmem, hbad, hbelow⟩ => ?_⟩⟩
  cases hk : firstBad entries test with
  | none => exact absurd (hnone.mp hk i hmem) hbad
  | some k =>
    obtain ⟨hkmem, hkbad, hkbelow⟩ := hfound k hk
    have hik : ¬ i < k := fun hlt => hbad (hkbelow i hmem hlt)
    have hki : ¬ k < i := fun hlt => hkbad (hbelow k hkmem hlt)
    rw [le_antisymm (not_lt.mp hik) (not_lt.mp hki)]

/-- Values that belong to no table, checked before one, are its entry 0 (log entry 25). -/
theorem single_or_firstBad {values : Bool} {entries : List Nat} {test : Nat → Bool} (hpos : 0 ∉ entries) :
    (single values).or (firstBad entries test) = firstBad (0 :: entries) fun i => if i = 0 then values else test i := by
  unfold firstBad
  rw [List.find?_cons]
  cases values with
  | false => rfl
  | true =>
    refine List.find?_congr fun i hi => ?_
    exact congrArg (!·) (if_neg (ne_of_mem_of_not_mem hi hpos)).symm

theorem zero_upTo_sorted (n : Nat) : (0 :: upTo n).Pairwise (· < ·) :=
  List.pairwise_cons.mpr ⟨fun _ hi => (mem_upTo.mp hi).1, upTo_sorted n⟩

/-! ## The checks over tables (R171) -/

section
variable (b : List Byte)

/-- The conditions of R171 on the policy of phase `p` (check 4). -/
def PolicyInRange (p : Nat) : Prop :=
  Block.listen b p ≤ 1 ∧ 20 ≤ Block.absolute b p ∧ Block.absolute b p ≤ 90 ∧ Block.margin b p ≤ 40 ∧
    Block.evidential b p ≤ 1 ∧ Block.mask b p ≤ 127

/-- The conditions of R171 on a sensor's coupling values (check 11). -/
def CouplingInRange (p : Nat) : Prop :=
  Block.refPulser b p ≤ 8 ∧ Block.expected b p ≤ 90 ∧ Block.couplingMargin b p ≤ 30

/-- The conditions of R171 on the Coupling Unit's spacing and window (check 11). -/
def SpacingInRange : Prop :=
  5 ≤ Block.pulseSpacingMs b ∧ Block.pulseSpacingMs b ≤ 100 ∧ 5 ≤ Block.pulseWindow100Us b ∧ Block.pulseWindow100Us b ≤ 50

theorem policyOk_iff (p : Nat) : policyOk b p = true ↔ PolicyInRange b p := by
  simp [policyOk, PolicyInRange, and_assoc]

theorem couplingOk_iff (p : Nat) : couplingOk b p = true ↔ CouplingInRange b p := by
  simp [couplingOk, CouplingInRange, and_assoc]

theorem zoneOk_iff (i : Nat) : zoneOk b i = true ↔ validSensor (Block.zoneFirst b i) = true ∧
    (validSensor (Block.zoneSecond b i) = true ∨ Block.zoneSecond b i = 0) ∧ Block.zoneSegment b i ≤ Block.nSeg b := by
  simp [zoneOk, and_assoc]

theorem referenceOk_iff (p : Nat) : referenceOk b p = true ↔ Block.refPulser b p = 0 ∨
    (Block.pulseChannel b (Block.refPulser b p) ≠ 0 ∧ ¬ (Block.refPulser b p = (p - 1) / 4 + 1 ∧
      Block.pulseChannel b (Block.refPulser b p) = (p - 1) % 4 + 1)) := by
  simp [referenceOk, -not_and, not_and_or]

/-- The test of check 11 before the sensors: the values that belong to no table as entry 0, then the pulse channels. -/
def pulseOk (p : Nat) : Bool :=
  if p = 0 then within 5 100 (Block.pulseSpacingMs b) && within 5 50 (Block.pulseWindow100Us b)
  else within 0 4 (Block.pulseChannel b p)

/-- Check 11 goes through the values, the pulse channels and the sensors, in this order; every check period is in range. -/
theorem loadCheck_coupling : loadCheck b 11 = (firstBad (0 :: upTo 8) (pulseOk b)).or (firstBad (upTo 32) (couplingOk b)) := by
  have hperiod : within 0 255 (Block.checkPeriod b) = true := within_iff.mpr ⟨Nat.zero_le _, u8_le b _⟩
  unfold loadCheck pulseOk
  rw [← single_or_firstBad (by simp), Option.or_assoc, hperiod]
  rfl

theorem loadCheck_zones : loadCheck b 12 = firstBad (0 :: upTo (Block.zoneCount b)) fun i =>
    if i = 0 then within 0 256 (Block.zoneCount b)
    else within 0 2000 (Block.zoneLow b i) && within 0 2000 (Block.zoneHigh b i) := by
  rw [← single_or_firstBad (by simp)]
  rfl

theorem policies_reportsFirst : ReportsFirst (List.range 8) (PolicyInRange b) (loadCheck b 4) :=
  firstBad_reportsFirst List.pairwise_lt_range (policyOk_iff b)

theorem zones_reportsFirst : ReportsFirst (upTo (Block.zoneCount b)) (fun i => validSensor (Block.zoneFirst b i) = true ∧
    (validSensor (Block.zoneSecond b i) = true ∨ Block.zoneSecond b i = 0) ∧ Block.zoneSegment b i ≤ Block.nSeg b)
    (loadCheck b 16) :=
  firstBad_reportsFirst (upTo_sorted _) (zoneOk_iff b)

theorem singleHits_reportsFirst : ReportsFirst (upTo 32) (fun p => Block.singleHit b p ≤ Block.nSeg b) (loadCheck b 17) :=
  firstBad_reportsFirst (upTo_sorted _) fun _ => decide_eq_true_iff

theorem references_reportsFirst : ReportsFirst (upTo 32) (fun p => Block.refPulser b p = 0 ∨
    (Block.pulseChannel b (Block.refPulser b p) ≠ 0 ∧ ¬ (Block.refPulser b p = (p - 1) / 4 + 1 ∧
      Block.pulseChannel b (Block.refPulser b p) = (p - 1) % 4 + 1))) (loadCheck b 18) :=
  firstBad_reportsFirst (upTo_sorted _) (referenceOk_iff b)

theorem zoneTimes_reportsFirst : ReportsFirst (0 :: upTo (Block.zoneCount b))
    (fun i => if i = 0 then Block.zoneCount b ≤ 256 else Block.zoneLow b i ≤ 2000 ∧ Block.zoneHigh b i ≤ 2000)
    (loadCheck b 12) := by
  rw [loadCheck_zones]
  refine firstBad_reportsFirst (zero_upTo_sorted _) fun i => ?_
  split
  next => simp
  next => simp

theorem pulse_reportsFirst : ReportsFirst (0 :: upTo 8)
    (fun p => if p = 0 then SpacingInRange b else Block.pulseChannel b p ≤ 4) (firstBad (0 :: upTo 8) (pulseOk b)) := by
  refine firstBad_reportsFirst (zero_upTo_sorted _) fun i => ?_
  unfold pulseOk
  split
  next => simp [SpacingInRange, and_assoc]
  next => simp

/-- Where the spacing and window, a pulse channel, or else no sensor fails, check 11 is its part before the sensors. -/
theorem loadCheck_coupling_early (h : (∃ j ∈ 0 :: upTo 8, ¬ if j = 0 then SpacingInRange b else Block.pulseChannel b j ≤ 4) ∨
    ∀ p ∈ upTo 32, CouplingInRange b p) :
    ReportsFirst (0 :: upTo 8) (fun p => if p = 0 then SpacingInRange b else Block.pulseChannel b p ≤ 4) (loadCheck b 11) := by
  have hearly := pulse_reportsFirst b
  rw [loadCheck_coupling]
  rcases h with ⟨j, hj, hbad⟩ | hsensors
  · obtain ⟨k, hk⟩ := Option.ne_none_iff_exists'.mp fun hnone => hbad (hearly.1.mp hnone j hj)
    rw [hk, Option.some_or, ← hk]
    exact hearly
  · rw [((firstBad_reportsFirst (upTo_sorted 32) (couplingOk_iff b)).1).mpr hsensors, Option.or_none]
    exact hearly

/-- Where they are in range, check 11 is that of the sensors. -/
theorem loadCheck_coupling_sensors (hspacing : SpacingInRange b) (hchannels : ∀ st ∈ upTo 8, Block.pulseChannel b st ≤ 4) :
    ReportsFirst (upTo 32) (CouplingInRange b) (loadCheck b 11) := by
  rw [loadCheck_coupling, (pulse_reportsFirst b).1.mpr, Option.none_or]
  · exact firstBad_reportsFirst (upTo_sorted 32) (couplingOk_iff b)
  · intro i hi
    split
    next => exact hspacing
    next h => exact hchannels i ((List.mem_cons.mp hi).resolve_left h)

end

/-! ## The checks of single values (R171) -/

/-- A check that is none of the six over tables has one condition, and reports index 0 (R170). -/
theorem loadCheck_single (b : List Byte) {k : Nat} (hk : k ∉ [4, 11, 12, 16, 17, 18]) : ∃ ok, loadCheck b k = single ok := by
  unfold loadCheck
  split
  case h_4 | h_11 | h_12 | h_16 | h_17 | h_18 => simp at hk
  case h_20 => exact ⟨true, rfl⟩
  all_goals exact ⟨_, rfl⟩

theorem loadCheck_single_index {b : List Byte} {k i : Nat} (hk : k ∉ [4, 11, 12, 16, 17, 18]) (h : loadCheck b k = some i) :
    i = 0 := by
  obtain ⟨ok, hok⟩ := loadCheck_single b hk
  exact single_index (hok ▸ h)

/-! ## The verdict (R170, R171) -/

/-- The first failing check of a list, the ones before it passing. -/
theorem firstFailure_some {b : List Byte} {checks : List Nat} {check index : Nat} (hs : checks.Pairwise (· < ·))
    (h : firstFailure b checks = some (check, index)) :
    check ∈ checks ∧ loadCheck b check = some index ∧ ∀ k ∈ checks, k < check → loadCheck b k = none := by
  induction checks with
  | nil => exact absurd h (by simp [firstFailure])
  | cons n ns ih =>
    obtain ⟨hlt, hs⟩ := List.pairwise_cons.mp hs
    unfold firstFailure at h
    split at h
    next i hi =>
      obtain ⟨rfl, rfl⟩ := Prod.mk.inj (Option.some.inj h)
      refine ⟨List.mem_cons_self, hi, fun k hk hlow => ?_⟩
      rcases List.mem_cons.mp hk with rfl | hk
      · exact absurd hlow (lt_irrefl _)
      · exact absurd hlow (hlt k hk).not_gt
    next hnone =>
      obtain ⟨hmem, hfail, hbefore⟩ := ih hs h
      refine ⟨List.mem_cons_of_mem _ hmem, hfail, fun k hk hlow => ?_⟩
      rcases List.mem_cons.mp hk with rfl | hk
      · exact hnone
      · exact hbefore k hk hlow

theorem loadVerdict_some {b : List Byte} {check index : Nat} (h : loadVerdict b = some (check, index)) :
    1 ≤ check ∧ check ≤ 19 ∧ loadCheck b check = some index ∧ ∀ k, 1 ≤ k → k < check → loadCheck b k = none := by
  obtain ⟨hmem, hfail, hbefore⟩ := firstFailure_some (upTo_sorted 19) h
  obtain ⟨h1, h19⟩ := mem_upTo.mp hmem
  exact ⟨h1, h19, hfail, fun k hk hlt => hbefore k (mem_upTo.mpr ⟨hk, by omega⟩) hlt⟩

section
variable {m : Moment} {s : State} {b : List Byte}

/-- With a check under way LOAD_CHECK_COMPLETE brings the verdict (R170). -/
theorem exec_loadCheckComplete_checking (hS : Sound m s) (hc : s.port.checking = true) :
    exec (.loadCheckComplete m) s = .next (endCheck (s.withNow m.tag)) := by
  rw [exec_loadCheckComplete_quiet m s hS.noFaultToFind, withNow_port, if_pos hc]

theorem block_of_config (hb : s.port.config = some b) : s.block = b := by
  unfold State.block
  rw [hb]
  rfl

theorem endCheck_failed {check index : Nat} (hb : s.block = b) (h : loadVerdict b = some (check, index)) :
    endCheck s = loadFailed check index s := by
  unfold endCheck
  rw [hb, h]

theorem endCheck_passed (hb : s.block = b) (h : loadVerdict b = none) : endCheck s = loadPassed b s := by
  unfold endCheck
  rw [hb, h]

/-- With sound stores a passed check has no flipped bit to forget (R170). -/
theorem loadPassed_sound (hn : NoFlips s) : loadPassed b s = { s with
    member := { s.member with
      station := .configured, number := stOf (Block.stationNumber b), fingerprint := some (Block.fingerprint b) }
    evid := { s.evid with table := List.replicate (Block.nSeg b) (.clean false) }
    port := { s.port with checking := false, loadResult := .passed } } := by
  refine state_ext rfl rfl rfl rfl rfl rfl rfl rfl rfl rfl ?_ rfl rfl rfl
  change { s.fault with flipped := [] } = s.fault
  rw [← show s.fault.flipped = [] from hn]

end

/-- Settles O52: the verdict's two ends, and what each check stands for. -/
theorem loadCheckEnds : Obligations.LoadCheckEnds := by
  intro m s b hS hc hb
  have hblock : (s.withNow m.tag).block = b := block_of_config hb
  refine ⟨fun check index hv => ?_, fun hv => ?_, fun check index => loadVerdict_some, fun b => ?_, fun b check entries ok hcheck => ?_⟩
  · rw [exec_loadCheckComplete_checking hS hc, endCheck_failed hblock hv]
    rfl
  · rw [exec_loadCheckComplete_checking hS hc, endCheck_passed hblock hv, loadPassed_sound (by exact hS.noFlips)]
    rfl
  · have hqW : Block.qW b ≤ 255 := u8_le b _
    have hqS : Block.qS b ≤ 255 := u8_le b _
    have hage : Block.minAge b ≤ 255 := u8_le b _
    refine ⟨?_, ?_, ?_, ?_, ?_, ?_, ?_, ?_, ?_, ?_, ?_, ?_, ?_, fun k i => loadCheck_single_index⟩
    all_goals
      refine single_none_iff.trans ?_
      simp [and_assoc, Nat.mul_comm, hqW, hqS, hage]
  · rcases hcheck with ⟨rfl, rfl, rfl⟩ | ⟨rfl, rfl, rfl⟩ | ⟨rfl, rfl, rfl⟩ | ⟨rfl, rfl, rfl⟩ | ⟨rfl, rfl, rfl, hfirst⟩ |
      ⟨rfl, rfl, hlow, hhigh, hwide, hnarrow, hchannels, rfl⟩ | ⟨rfl, rfl, rfl⟩
    · exact policies_reportsFirst b
    · exact zones_reportsFirst b
    · exact singleHits_reportsFirst b
    · exact references_reportsFirst b
    · exact loadCheck_coupling_early b hfirst
    · exact loadCheck_coupling_sensors b ⟨hlow, hhigh, hwide, hnarrow⟩ hchannels
    · exact zoneTimes_reportsFirst b

end Sys2Proof.Machine
end

section
/-! PROOFS. The deselect of a transaction (R168): whether it takes effect, and what each command's effect is where no read can find a fault
(R170, R172 to R175). -/

namespace Sys2Proof.Machine

/-! ## Whether the command takes effect (R168) -/

/-- The station at the command's moment, its command slot emptied. -/
def slotEmptied (m : Moment) (s : State) : State := (s.withNow m.tag).withPort { s.port with slot := none }

theorem slotEmptied_now (m : Moment) (s : State) : (slotEmptied m s).now = m.tag := withNow_now s m.tag

section
variable {m : Moment} {s : State} {n : Nat} {j : Judged}

theorem slotEmptied_noBadWord (hq : NoFaultToFind m s) : NoBadWord (slotEmptied m s) := noBadWord_of_aside (by exact hq.2.2)

theorem exec_selectRise_slot (hq : NoFaultToFind m s) (hslot : s.port.slot = some j) : exec (.selectRise m n) s = .next
    (if n = 0 ∨ j.status ≠ .done then slotEmptied m s
     else if takenIn j.command s.member.station then applyCommand j.command n (slotEmptied m s)
     else lateCommand j.command (slotEmptied m s)) := by
  rw [exec_selectRise_quiet m n s hq]
  unfold deselect
  rw [withNow_port, hslot]
  rfl

/-- A transaction whose status byte was not clocked out, or is not DONE, is discarded. -/
theorem exec_selectRise_discards (hq : NoFaultToFind m s) (hslot : s.port.slot = some j) (h : n = 0 ∨ j.status ≠ .done) :
    exec (.selectRise m n) s = .next (slotEmptied m s) := by
  rw [exec_selectRise_slot hq hslot, if_pos h]

theorem exec_selectRise_applies (hq : NoFaultToFind m s) (hslot : s.port.slot = some j) (hdone : j.status = .done) (hn : 1 ≤ n)
    (ht : takenIn j.command s.member.station = true) :
    exec (.selectRise m n) s = .next (applyCommand j.command n (slotEmptied m s)) := by
  rw [exec_selectRise_slot hq hslot, if_neg (not_or.mpr ⟨by omega, not_not.mpr hdone⟩), if_pos ht]

theorem exec_selectRise_late (hq : NoFaultToFind m s) (hslot : s.port.slot = some j) (hdone : j.status = .done) (hn : 1 ≤ n)
    (ht : takenIn j.command s.member.station = false) :
    exec (.selectRise m n) s = .next (lateCommand j.command (slotEmptied m s)) := by
  rw [exec_selectRise_slot hq hslot, if_neg (not_or.mpr ⟨by omega, not_not.mpr hdone⟩), if_neg (by rw [ht]; decide)]

/-- The commands that only read, and a NEXT NOTICE that returned none, have no effect at deselect. -/
theorem reading_noEffect {c : PortCommand} (h : c = .status ∨ c = .readPeer ∨ c = .readCoupling ∨ c = .readFault ∨
    c = .readSegment ∨ c = .nextNotice false) (n : Nat) (s : State) : applyCommand c n s = s ∧ lateCommand c s = s := by
  rcases h with rfl | rfl | rfl | rfl | rfl | rfl <;> exact ⟨rfl, rfl⟩

/-! ## The notice returned (R174, R175) -/

theorem removeNotice_short (h : n < 17) : removeNotice true n s = s := if_neg fun hc => absurd hc.2 h.not_ge

theorem removeNotice_whole (h : 17 ≤ n) :
    removeNotice true n s = offerStacked (s.withPort { s.port with notices := s.port.notices.drop 1 }) := if_pos ⟨rfl, h⟩

theorem offerStacked_none (h : ∀ k ∈ s.port.stacked, k = 0) : offerStacked s = s := by
  unfold offerStacked
  rw [if_neg]
  simpa using h

theorem offerStacked_some (h : ∃ k ∈ s.port.stacked, 0 < k) : offerStacked s = s.withPort { s.port with
    notices := s.port.notices ++ [⟨s.tracker.cycle, s.ownNo, .stacked s.port.stacked⟩], stacked := List.replicate 12 0 } := by
  unfold offerStacked
  rw [if_pos]
  simpa using h

/-! ## SEGMENT CONTROL (R173) -/

theorem canRequest_control : canRequest .control s = true ↔ s.link.queue.length < 12 ∧ ∀ d ∈ s.link.queue, d.kind ≠ .control := by
  unfold canRequest queueCapacity
  rw [Bool.and_eq_true, decide_eq_true_iff]
  simp

/-- A SEGMENT CONTROL that comes too late or is refused is UNDELIVERED (R168, R173). -/
theorem controlResult_undelivered (hq : NoFaultToFind m s) (c : Control) : controlResult false c none 0 (slotEmptied m s) =
    raise ⟨s.tracker.cycle, lowestSelected c s, .controlResult false c none 0⟩ (slotEmptied m s) :=
  controlResult_quiet (slotEmptied_noBadWord hq) false c none 0

theorem requestControl_refused (hq : NoFaultToFind m s) (c : Control)
    (h : 12 ≤ s.link.queue.length ∨ ∃ d ∈ s.link.queue, d.kind = .control) : requestControl c (slotEmptied m s) =
      raise ⟨s.tracker.cycle, lowestSelected c s, .controlResult false c none 0⟩ (slotEmptied m s) := by
  have hfull : canRequest .control (slotEmptied m s) = false := by
    rw [Bool.eq_false_iff, ne_eq, canRequest_control]
    rintro ⟨hroom, hnone⟩
    rcases h with h | ⟨d, hd, hk⟩
    · exact absurd hroom h.not_gt
    · exact hnone d hd hk
  unfold requestControl request
  rw [hfull]
  exact controlResult_undelivered hq c

theorem requestControl_taken (hn : NoBadWord s) (c : Control) (h : canRequest .control s = true) :
    SelectedFrom (controlTaken c s.link.nextRef (enqueue .control (controlBytes c) s)) (requestControl c s) := by
  unfold requestControl
  rw [request_quiet _ _ _ _ (hn.of_fault rfl), if_pos h]
  exact selectFrame_from _

end

/-- Settles O54: each command's effect, and that of a SEGMENT CONTROL by the room in the transmit queue. -/
theorem deselectServesTheProcessor : Obligations.DeselectServesTheProcessor := by
  intro m s n j hq hslot hdone hn
  have happly := exec_selectRise_applies hq hslot hdone hn
  have hlate := exec_selectRise_late hq hslot hdone hn
  refine ⟨fun hc => ?_, fun hc hshort => ?_, fun hc hlong hzero => ?_, fun hc hlong hsome => ?_, fun hc hf => ?_, fun hc hf => ?_,
    fun c hc hrun hroom hnone => ?_, fun c hc hrefused => ?_⟩
  · obtain ⟨hnone, hnoneLate⟩ := reading_noEffect hc n (slotEmptied m s)
    cases ht : takenIn j.command s.member.station with
    | true => rw [happly ht, hnone]; rfl
    | false => rw [hlate ht, hnoneLate]; rfl
  · rw [hc] at happly
    rw [happly rfl]
    exact congrArg _ (removeNotice_short hshort)
  · rw [hc] at happly
    rw [happly rfl]
    exact congrArg _ ((removeNotice_whole hlong).trans (offerStacked_none hzero))
  · rw [hc] at happly
    rw [happly rfl]
    exact congrArg _ ((removeNotice_whole hlong).trans (offerStacked_some hsome))
  · rw [hc] at happly
    rw [happly (by simpa [takenIn] using hf)]
    rfl
  · rw [hc] at hlate
    rw [hlate (by rw [hf]; rfl)]
    rfl
  · rw [hc] at happly
    have ht := requestControl_taken (slotEmptied_noBadWord hq) c (canRequest_control.mpr ⟨hroom, hnone⟩)
    refine ⟨_, happly (by rw [hrun]; rfl), ht.port, ht.queue.trans ?_⟩
    change s.link.queue ++ [⟨s.link.nextRef, .control, controlBytes c, (slotEmptied m s).now⟩] = _
    rw [slotEmptied_now]
  · rw [hc] at happly hlate
    by_cases hrun : s.member.station = .running
    · rw [happly (by rw [hrun]; rfl)]
      exact congrArg _ (requestControl_refused hq c (hrefused.resolve_left (not_not.mpr hrun)))
    · rw [hlate (by simpa [takenIn] using hrun)]
      exact congrArg _ (controlResult_undelivered hq c)


/-! ## START (R65, R172) -/

section
variable {s : State}

/-- What JOINING's beginning makes of the Membership Unit (R65). -/
theorem startBlocks_member (s : State) : (startBlocks s).member = { s.member with
    station := .joining
    peers := (startBlocks s).member.peers
    joinTimer := some (s.now + span (Block.joinWindow100Ms s.block * 100000))
    presenceTimer := some (s.now + span (Block.presence10Ms s.block * 10000)) } := rfl

/-- A request writes the Link Unit, the Own Hit Queue and the count of free choices. -/
theorem requestUnchecked_writes (kind : FrameKind) (payload : List Byte) (s : State) : ∃ link queue count,
    requestUnchecked kind payload s =
      ((s.withLink link).withChannels { s.channels with queue := queue }).withFreeCount count := by
  unfold requestUnchecked
  split
  next =>
    obtain ⟨current, queue, count, h⟩ := selectFrame_current (enqueue kind payload s)
    exact ⟨_, queue, count, h⟩
  next => exact ⟨s.link, s.channels.queue, s.freeCount, rfl⟩

/-- Where no read can find a fault, entry to JOINING puts the blocks to work and asks for the first PRESENCE (R65). -/
theorem enterJoining_quiet (h : NoBadWord s) :
    enterJoining s = requestUnchecked .presence (startBlocks s).presencePayload (startBlocks s) := by
  have hstart : NoBadWord (startBlocks s) := fun w => (badParity_congr (s := s) (by rfl) (by rfl) w).trans (h w)
  have hasked : NoBadWord (requestUnchecked .presence (startBlocks s).presencePayload (startBlocks s)) := by
    obtain ⟨_, _, _, hr⟩ := requestUnchecked_writes .presence (startBlocks s).presencePayload (startBlocks s)
    exact hstart.of_fault (by rw [hr]; rfl)
  unfold enterJoining
  dsimp only
  rw [badConfig_quiet hasked]

/-- What entry to JOINING leaves as it is, and what the first PRESENCE leaves of the blocks at work. -/
theorem enterJoining_fields (h : NoBadWord s) : ∃ t, enterJoining s = t ∧ t.member = (startBlocks s).member ∧
    t.channels.units = (startBlocks s).channels.units ∧ t.port = s.port ∧ t.tracker = s.tracker ∧ t.evid = s.evid ∧
    t.coin = s.coin ∧ t.agree = s.agree ∧ t.coup = s.coup ∧ t.fault = { s.fault with scrub := .config 0 } ∧ t.clock = s.clock := by
  obtain ⟨_, _, _, hr⟩ := requestUnchecked_writes .presence (startBlocks s).presencePayload (startBlocks s)
  rw [enterJoining_quiet h, hr]
  exact ⟨_, rfl, rfl, rfl, rfl, rfl, rfl, rfl, rfl, rfl, rfl, rfl⟩

/-- With nothing else to send, the first PRESENCE is selected at once (R48, R65). -/
theorem enterJoining_idle (h : NoBadWord s) (hq : s.link.queue = []) (hc : s.link.current = none) (hh : s.channels.queue = []) :
    enterJoining s = beginFrame (some s.link.nextRef) .presence (startBlocks s).presencePayload
      (enqueue .presence (startBlocks s).presencePayload (startBlocks s)) := by
  have hcan : canRequest .presence (startBlocks s) = true := by
    rw [canRequest_presence, show (startBlocks s).link.queue = [] from hq]
    rfl
  rw [enterJoining_quiet h]
  unfold requestUnchecked
  rw [if_pos hcan]
  refine selectFrame_single ⟨s.link.nextRef, .presence, (startBlocks s).presencePayload, s.now⟩ hc ?_ hh
  change s.link.queue ++ [_] = _
  rw [hq]
  rfl

/-- The first PRESENCE, selected at START. -/
def firstFrame (s : State) : CurrentFrame :=
  { ref := some s.link.nextRef, kind := .presence, payload := s.presencePayload, cycle := s.tracker.cycle, lane := s.link.home
    attempt := .waiting (s.now + span (Block.accessTimeoutMs s.block * 1000)), retries := 0, lastFailure := none
    noRetry := false, unreported := false }

theorem enterJoining_idle_link (h : NoBadWord s) (hq : s.link.queue = []) (hc : s.link.current = none)
    (hh : s.channels.queue = []) : (enterJoining s).link = { s.link with
      queue := [⟨s.link.nextRef, .presence, s.presencePayload, s.now⟩], nextRef := s.link.nextRef + 1
      current := some (firstFrame s)
      lanes := ⟨{ s.link.lanes.x with idleFrom := s.clock }, { s.link.lanes.y with idleFrom := s.clock }⟩ } := by
  rw [enterJoining_idle h hq hc hh]
  change ({ (startBlocks s).link with
    queue := s.link.queue ++ [⟨s.link.nextRef, .presence, s.presencePayload, s.now⟩], nextRef := s.link.nextRef + 1
    current := some (firstFrame s) } : Link) = _
  rw [hq]
  rfl

end

/-! ## RESTART (R172) -/

section
variable {m : Moment} {s : State}

theorem commandRestart_configured (h : s.member.station ≠ .unconfigured) :
    commandRestart s = afterRestart .command s.fault.record s.now s := by
  unfold commandRestart
  dsimp only
  rw [if_neg h, enterJoining_reset _ _ h]

theorem commandRestart_unconfigured (h : s.member.station = .unconfigured) : commandRestart s = resetBlocks .command s := by
  unfold commandRestart
  dsimp only
  rw [if_pos h]

/-- An UNCONFIGURED station's blocks return to their reset values, its table with no record (R131, R172). -/
theorem resetBlocks_unconfigured (why : RestartCause) (h : s.member.station = .unconfigured) : resetBlocks why s = { s with
    tracker := .reset, channels := .reset, link := .reset, coin := .reset, evid := .reset 0, agree := .reset, coup := .reset
    fault := { FaultUnit.reset with record := s.fault.record, flipped := keptFlips s }
    member := { Membership.reset with number := s.member.number, fingerprint := s.member.fingerprint }
    port := { s.port with
      slot := s.port.slot.map slotAfterRestart, control := none, notices := [⟨none, s.ownNo, .restarted why⟩]
      stacked := List.replicate 12 0 } } := by
  unfold resetBlocks
  rw [h]
  rfl

end

/-- Settles O53: the effects of LOAD, START and RESTART, and the transactions that have none. -/
theorem deselectStartsAndRestarts : Obligations.DeselectStartsAndRestarts := by
  intro m s n j hq hslot
  refine ⟨exec_selectRise_discards hq hslot, fun b hc hdone hn hs => ?_, fun hc hdone hn hs => ?_,
    fun hc hdone hn hlive => ⟨fun hs => ?_, fun hs => ?_⟩, fun hlate => ?_⟩
  · rw [exec_selectRise_applies hq hslot hdone hn (by rw [hc, hs]; rfl), hc]
    rfl
  · have hbad := slotEmptied_noBadWord hq
    obtain ⟨t, ht, hmember, hunits, hport, htracker, hevid, hcoin, hagree, hcoup, hfault, hclock⟩ := enterJoining_fields hbad
    have hnow : t.now = m.tag := (congrArg (BitVec.ofNat 32) hclock).trans (slotEmptied_now m s)
    refine ⟨t, ?_, ?_, fun st hst => ?_, fun c => ?_, fun hqueue hcur hhits => ⟨firstFrame (slotEmptied m s), _, rfl, ?_, ?_⟩,
      hport, htracker, hevid, hcoin, hagree, hcoup, hfault, hnow, hclock⟩
    · rw [exec_selectRise_applies hq hslot hdone hn (by rw [hc, hs]; rfl), hc, ← ht]
      rfl
    · rw [hmember, startBlocks_member, slotEmptied_now]
      rfl
    · rw [hmember]
      change (match s.member.number with | some n => _ | none => _) = _
      rw [hst]
      rfl
    · rw [hunits]
      change ((slotEmptied m s).channels.units.map fun _ u => startUnit _ (slotEmptied m s).now u).get c = _
      rw [Four.get_map, slotEmptied_now]
      rfl
    · unfold firstFrame
      rw [slotEmptied_now]
      rfl
    · rw [hclock, ← ht, enterJoining_idle_link hbad hqueue hcur hhits, slotEmptied_now]
      rfl
  · have hrestart := commandRestart_configured (s := slotEmptied m s) hs
    rw [exec_selectRise_applies hq hslot hdone hn (by rw [hc]; simpa [takenIn] using hlive), hc]
    refine congrArg _ (hrestart.trans ?_)
    rw [slotEmptied_now]
    exact afterRestart_withNow .command s.fault.record m.tag (s.withPort { s.port with slot := none })
  · rw [exec_selectRise_applies hq hslot hdone hn (by rw [hc]; simpa [takenIn] using hlive), hc]
    exact congrArg _ ((commandRestart_unconfigured (s := slotEmptied m s) hs).trans (resetBlocks_unconfigured .command hs))
  · by_cases hd : n = 0 ∨ j.status ≠ .done
    · exact exec_selectRise_discards hq hslot hd
    · obtain ⟨hn, hdone⟩ := not_or.mp hd
      have hnone : takenIn j.command s.member.station = false ∧ lateCommand j.command (slotEmptied m s) = slotEmptied m s := by
        rcases hlate with ⟨hc, hs⟩ | ⟨hc, hs⟩ | ⟨b, hc, hs⟩ <;> rw [hc]
        · exact ⟨by rw [hs]; rfl, rfl⟩
        · exact ⟨by simpa [takenIn] using hs, rfl⟩
        · exact ⟨by simpa [takenIn] using hs, rfl⟩
      rw [exec_selectRise_late hq hslot (not_not.mp hdone) (by omega) hnone.1, hnone.2]
      rfl

end Sys2Proof.Machine
end

section
/-! PROOFS. The replies of the Board Port byte by byte (12.3): the status reply, the notice, the peer, coupling and fault records, and the
segment's. -/

namespace Sys2Proof.Machine

/-! ## Parts of a record -/

/-- Each part of a record stands where the lengths of the parts before it say. -/
theorem slice_part {parts : List (List Byte)} {x : List Byte} {i n : Nat} (k : Nat) (hk : parts[k]? = some x)
    (hi : ((parts.take k).map List.length).sum = i) (hn : x.length = n) : slice parts.flatten i n = x := by
  obtain ⟨hlt, hx⟩ := List.getElem?_eq_some_iff.mp hk
  have hsplit : parts.flatten = (parts.take k).flatten ++ x ++ (parts.drop (k + 1)).flatten := by
    conv_lhs => rw [← List.take_append_drop k parts, List.drop_eq_getElem_cons hlt, hx]
    rw [List.flatten_append, List.flatten_cons, List.append_assoc]
  rw [hsplit]
  exact slice_of_append (by rw [List.length_flatten, hi]) hn

/-- A part of a part. -/
theorem slice_within {bs x : List Byte} {i n : Nat} (k l : Nat) (h : slice bs i n = x) (hkl : k + l ≤ n) :
    slice bs (i + k) l = slice x k l := by
  unfold slice at *
  refine List.map_congr_left fun j hj => ?_
  have hj := List.mem_range.mp hj
  rw [Nat.add_assoc]
  exact getD_of_slice h (by omega)

/-- An absent field of one byte is sent as 0 (R177). -/
theorem optBytes_byte {α : Type} (f : α → Nat) (o : Option α) : optBytes 1 (fun a => [byte (f a)]) o = [byte ((o.map f).getD 0)] := by
  cases o <;> rfl

theorem optBytes_be16 {α : Type} (f : α → Nat) (o : Option α) : optBytes 2 (fun a => be16 (f a)) o = be16 ((o.map f).getD 0) := by
  cases o with
  | none =>
    change List.replicate 2 0 = be16 0
    decide
  | some a => rfl

/-! ## Codes that fit a byte (12.1) -/

theorem stationStateCode_lt (x : StationState) : stationStateCode x < 256 := by cases x <;> decide
theorem phaseCode_lt (x : Phase) : phaseCode x < 256 := by cases x <;> decide
theorem standingCode_lt (x : Standing) : standingCode x < 256 := by cases x <;> decide
theorem peerStateCode_lt (x : PeerState) : peerStateCode x < 256 := by cases x <;> decide
theorem couplingCode_lt (x : Coupling) : couplingCode x < 4 := by cases x <;> decide
theorem faultKindCode_lt (x : FaultKind) : faultKindCode x < 256 := by cases x <;> decide
theorem storeCode_lt (x : Store) : storeCode x < 256 := by cases x <;> decide
theorem noticeKindCode_lt (x : NoticeDetail) : noticeKindCode x < 256 := by cases x <;> simp [noticeKindCode]

/-! ## STATUS -/

theorem loadResult_layout {l : LoadResult} {r : List Byte} (h : slice r 10 4 = loadResultBytes l) : LoadResultLayout l r := by
  have h0 := getD_of_slice h (k := 0) (by decide)
  have h1 := getD_of_slice h (k := 1) (by decide)
  have h2 := getD_of_slice h (k := 2) (by decide)
  have h3 := getD_of_slice h (k := 3) (by decide)
  cases l with
  | none =>
    exact ⟨fun _ => ⟨u8_of_byte (n := 0) h0, u8_of_byte (n := 0) h1, u16_of_bytes (n := 0) h2 h3⟩, nofun, nofun⟩
  | passed =>
    exact ⟨nofun, fun _ => ⟨u8_of_byte (n := 1) h0, u8_of_byte (n := 0) h1, u16_of_bytes (n := 0) h2 h3⟩, nofun⟩
  | failed check index =>
    refine ⟨nofun, nofun, ?_⟩
    rintro _ _ ⟨rfl, rfl⟩
    exact ⟨u8_of_byte (n := 2) h0, u8_of_byte h1, u16_of_bytes h2 h3⟩

/-- What each of the first 27 bytes of the status reply says, and the counts after them. -/
theorem statusReply_layout (s : State) : StatusLayout s (statusReply s) := by
  obtain ⟨a, b, c, d, hload, hr⟩ := statusReply_eq s
  rw [hr]
  obtain ⟨hopen, hdisordered, habandoned, hlastDisordered, hlastAbandoned, -⟩ := flags_of_byte s.tracker.isOpen s.tracker.disordered
    s.tracker.abandoned s.tracker.lastDisordered s.tracker.lastAbandoned false false false
  obtain ⟨hx, hy, hhome, hlost, hlane⟩ := fields_of_laneByte (healthOf s.link.lanes.x.run) (healthOf s.link.lanes.y.run)
    s.link.home s.link.lost
  have hwarn : bit s.evid.warn + 2 * bit s.evid.stop < 256 := by
    have := bit_le_one s.evid.warn
    have := bit_le_one s.evid.stop
    omega
  refine ⟨?_, u8_of_lt (stationStateCode_lt _) rfl, u8_of_lt (phaseCode_lt _) rfl, u16_of_cycle rfl rfl, u16_of_cycle rfl rfl,
    hopen, hdisordered, habandoned, hlastDisordered, hlastAbandoned, five_flags_lt _ _ _ _ _, u8_of_lt (standingCode_lt _) rfl,
    hx, hy, hhome, hlost, hlane, u8_of_lt hwarn rfl, loadResult_layout hload.symm, fun ch => ?_, u8_of_byte rfl, u16_of_bytes rfl rfl,
    u16_of_bytes rfl rfl, fun k n hk => ?_⟩
  · rw [List.length_append, countBytes_length]
    rfl
  · obtain ⟨hstate, hrole⟩ := fields_of_channelByte (s.channels.units.get ch)
    cases ch <;> exact ⟨hstate, hrole, u8_of_byte rfl⟩
  · exact (u16_append (k := 2 * k) rfl).trans (u16_countBytes _ k n hk)

/-! ## NEXT NOTICE -/

/-- The kind and the used detail bytes of a notice (12.3). -/
theorem detailBytes_layout (d : NoticeDetail) : NoticeDetailLayout d (noticeKindCode d) ((detailBytes d).take 12) := by
  refine ⟨?_, ?_, ?_, ?_, ?_, ?_, ?_, ?_, ?_, ?_, ?_, ?_, ?_, ?_, ?_⟩
  · rintro st ex c rfl; exact ⟨rfl, rfl⟩
  · rintro n rfl; exact ⟨rfl, rfl⟩
  · rintro n rfl; exact ⟨rfl, rfl⟩
  · rintro l e rfl; exact ⟨rfl, rfl⟩
  · rintro n rfl; exact ⟨rfl, rfl⟩
  · rintro ok c f n rfl
    cases ok <;> exact ⟨rfl, rfl⟩
  · rintro rfl; exact ⟨rfl, rfl⟩
  · rintro rfl; exact ⟨rfl, rfl⟩
  · rintro rfl; exact ⟨rfl, rfl⟩
  · rintro k rfl
    cases k <;> exact ⟨rfl, rfl⟩
  · rintro l rfl; exact ⟨rfl, rfl⟩
  · rintro lost rfl
    cases lost <;> exact ⟨rfl, rfl⟩
  · rintro c dis ab k rfl; exact ⟨rfl, rfl⟩
  · rintro k rfl; exact ⟨rfl, rfl⟩
  · rintro ns rfl
    exact ⟨rfl, List.map_take.symm⟩

theorem noticeReply_layout (s : State) : NoticeLayout s.port.notices (noticeReply s) := by
  unfold noticeReply
  cases s.port.notices with
  | nil => exact ⟨rfl, fun _ => rfl, nofun⟩
  | cons n rest =>
    refine ⟨by simp [noticeBytes, be16, slice_length], nofun, ?_⟩
    rintro _ _ ⟨rfl, rfl⟩
    refine ⟨u16_of_cycle rfl rfl, u8_of_byte rfl, (detailBytes n.detail).take 12, ?_, ?_⟩
    · rw [u8_of_lt (r := noticeBytes n) (noticeKindCode_lt n.detail) rfl]
      exact detailBytes_layout n.detail
    · change slice (detailBytes n.detail) 0 12 = _
      rw [slice_zero, List.length_take]
      congr 2
      omega

/-! ## READ COUPLING and READ FAULT -/

theorem couplingReply_layout (s : State) : CouplingLayout s (couplingReply s) := by
  refine ⟨rfl, fun c hm => ?_⟩
  have hcode := couplingCode_lt (s.coup.records.get c).state
  have hbit := bit_le_one (s.coup.records.get c).lastPeak.isSome
  cases c <;> exact ⟨u8_of_lt (by omega) rfl, u8_of_byte rfl⟩

/-- The fault record's bytes: the five flags, the optional fields, and the counts. -/
theorem faultRecordBytes_eq (f : FaultRecord) : faultRecordBytes f =
    byte (bit f.kind.isSome + 2 * bit f.store.isSome + 4 * bit f.cycle.isSome + 8 * bit f.phase.isSome + 16 * bit f.tag.isSome) ::
      byte ((f.kind.map faultKindCode).getD 0) :: byte ((f.store.map storeCode).getD 0) ::
      (be16 ((f.cycle.map cycleValue).getD 0) ++ byte ((f.phase.map phaseCode).getD 0) :: (be32 (f.tag.getD 0) ++
        [byte f.partsSent, byte (bit f.doubleFault), byte f.restarts])) := by
  unfold faultRecordBytes
  rw [optBytes_byte faultKindCode, optBytes_byte storeCode, optBytes_be16 cycleValue, optBytes_byte phaseCode, optBytes_be32]
  rfl

/-- An optional code that fits a byte, or the 0 of its absence, fits too. -/
theorem getD_code_lt {α : Type} {f : α → Nat} {k : Nat} (h : ∀ a, f a < k) (hk : 0 < k) (o : Option α) : (o.map f).getD 0 < k := by
  cases o with
  | none => exact hk
  | some a => exact h a

theorem faultRecord_layout (f : FaultRecord) : FaultLayout f (faultRecordBytes f) := by
  have hkind := getD_code_lt faultKindCode_lt (by decide) f.kind
  have hstore := getD_code_lt storeCode_lt (by decide) f.store
  have hcycle := getD_code_lt cycleValue_lt (by decide) f.cycle
  have hdouble : bit f.doubleFault < 256 := Nat.lt_of_le_of_lt (bit_le_one _) (by decide)
  obtain ⟨hk, hs, hc, hp, ht, -⟩ := flags_of_byte f.kind.isSome f.store.isSome f.cycle.isSome f.phase.isSome f.tag.isSome
    false false false
  rw [faultRecordBytes_eq]
  exact ⟨rfl, hk, hs, hc, hp, ht, five_flags_lt _ _ _ _ _, u8_of_lt hkind rfl, u8_of_lt hstore rfl,
    (u16_of_bytes rfl rfl).trans (Nat.mod_eq_of_lt hcycle), u8_of_lt (getD_code_lt phaseCode_lt (by decide) _) rfl,
    u32_of_slice rfl, u8_of_byte rfl, u8_of_lt hdouble rfl, u8_of_byte rfl⟩

/-! ## READ PEER -/

theorem presenceContentBytes_length (c : PresenceContent) : (presenceContentBytes c).length = 6 := rfl

theorem digestContentBytes_length (d : DigestContent) : (digestContentBytes d).length = 27 := by
  simp [digestContentBytes, be16, be32, slice_length]

/-- The parts of a peer record, in their order (12.3). -/
def peerParts (p : PeerRecord) : List (List Byte) :=
  [[byte (peerStateCode p.state)],
   [byte (bit p.lastHeard.isSome + 2 * bit p.offset.isSome + 4 * bit p.fingerprint.isSome + 8 * bit p.presence.isSome
    + 16 * bit p.digest.isSome + 32 * bit p.logout.part1.isSome + 64 * bit p.logout.part2.isSome
    + 128 * bit p.logout.part3.isSome)],
   be32 (p.lastHeard.getD 0), be32 (p.offset.getD 0), be32 (p.fingerprint.getD 0),
   optBytes 6 presenceContentBytes p.presence, optBytes 27 digestContentBytes p.digest,
   slice (p.logout.part1.getD []) 0 9, slice (p.logout.part2.getD []) 0 9, slice (p.logout.part3.getD []) 0 8,
   be16 p.taken, be16 p.heldBack]

theorem peerBytes_eq (p : PeerRecord) : peerBytes p = (peerParts p).flatten := by
  unfold peerBytes peerParts
  rw [optBytes_be32, optBytes_be32, optBytes_be32, optBytes_slice, optBytes_slice, optBytes_slice]
  simp

theorem peerParts_lengths (p : PeerRecord) : (peerParts p).map List.length = [1, 1, 4, 4, 4, 6, 27, 9, 9, 8, 2, 2] := by
  simp [peerParts, be16, be32, slice_length, optBytes_length 6 _ p.presence presenceContentBytes_length,
    optBytes_length 27 _ p.digest digestContentBytes_length]

/-- Part `k` of a peer record stands after the lengths of the parts before it. -/
theorem peerBytes_part (p : PeerRecord) {x : List Byte} {i n : Nat} (k : Nat) (hk : (peerParts p)[k]? = some x)
    (hi : ([1, 1, 4, 4, 4, 6, 27, 9, 9, 8, 2, 2].take k).sum = i) (hn : x.length = n) : slice (peerBytes p) i n = x := by
  rw [peerBytes_eq]
  refine slice_part k hk ?_ hn
  rw [List.map_take, peerParts_lengths, hi]

theorem presenceContent_layout {c : PresenceContent} {r : List Byte} {i : Nat} (h : slice r i 6 = presenceContentBytes c) :
    r.getD i 0 = c.phase ∧ u16 r (i + 1) = c.age % 65536 ∧ r.getD (i + 3) 0 = c.standing ∧ r.getD (i + 4) 0 = c.coupling ∧
      r.getD (i + 5) 0 = c.lanes :=
  ⟨getD_of_slice h (k := 0) (by decide),
    u16_of_bytes (getD_of_slice h (k := 1) (by decide)) (getD_of_slice h (k := 2) (by decide)),
    getD_of_slice h (k := 3) (by decide), getD_of_slice h (k := 4) (by decide), getD_of_slice h (k := 5) (by decide)⟩

theorem digestContent_layout {d : DigestContent} {r : List Byte} {i : Nat} (h : slice r i 27 = digestContentBytes d) :
    u16 r i = cycleValue d.cycle ∧ u32 r (i + 2) = d.digest ∧ u16 r (i + 6) = d.age % 65536 ∧ r.getD (i + 8) 0 = d.standing ∧
      slice r (i + 9) 14 = slice d.counts 0 14 ∧ u32 r (i + 23) = d.arrival := by
  have hcounts : slice (digestContentBytes d) 9 14 = slice d.counts 0 14 := slice_of_append rfl (slice_length _ _ _)
  exact ⟨u16_of_cycle (getD_of_slice h (k := 0) (by decide)) (getD_of_slice h (k := 1) (by decide)),
    u32_of_slice (slice_within 2 4 h (by decide)),
    u16_of_bytes (getD_of_slice h (k := 6) (by decide)) (getD_of_slice h (k := 7) (by decide)),
    getD_of_slice h (k := 8) (by decide), (slice_within 9 14 h (by decide)).trans hcounts,
    u32_of_slice (slice_within 23 4 h (by decide))⟩

theorem peerBytes_layout (p : PeerRecord) : PeerLayout p (peerBytes p) := by
  have hpresence := peerBytes_part p (i := 14) (n := 6) 5 rfl rfl (optBytes_length 6 _ p.presence presenceContentBytes_length)
  have hdigest := peerBytes_part p (i := 20) (n := 27) 6 rfl rfl (optBytes_length 27 _ p.digest digestContentBytes_length)
  have htaken := peerBytes_part p (i := 73) (n := 2) 10 rfl rfl rfl
  have hheld := peerBytes_part p (i := 75) (n := 2) 11 rfl rfl rfl
  obtain ⟨f0, f1, f2, f3, f4, f5, f6, f7⟩ := flags_of_byte p.lastHeard.isSome p.offset.isSome p.fingerprint.isSome
    p.presence.isSome p.digest.isSome p.logout.part1.isSome p.logout.part2.isSome p.logout.part3.isSome
  refine ⟨?_, u8_of_lt (peerStateCode_lt _) rfl, f0, f1, f2, f3, f4, f5, f6, f7,
    u32_of_slice (peerBytes_part p 2 rfl rfl rfl), u32_of_slice (peerBytes_part p 3 rfl rfl rfl),
    u32_of_slice (peerBytes_part p 4 rfl rfl rfl), fun c hc => ?_, fun hnone => ?_, fun d hd => ?_, fun hnone => ?_,
    peerBytes_part p 7 rfl rfl (slice_length _ _ _), peerBytes_part p 8 rfl rfl (slice_length _ _ _),
    peerBytes_part p 9 rfl rfl (slice_length _ _ _),
    u16_of_bytes (getD_of_slice htaken (k := 0) (by decide)) (getD_of_slice htaken (k := 1) (by decide)),
    u16_of_bytes (getD_of_slice hheld (k := 0) (by decide)) (getD_of_slice hheld (k := 1) (by decide))⟩
  · rw [peerBytes_eq, List.length_flatten, peerParts_lengths]
    rfl
  · rw [hc] at hpresence
    exact presenceContent_layout hpresence
  · rw [hnone] at hpresence
    exact hpresence
  · rw [hd] at hdigest
    exact digestContent_layout hdigest
  · rw [hnone] at hdigest
    exact hdigest

theorem stOf_stNo (st : Station) : stOf (stNo st) = some st := by cases st <;> rfl

theorem peerReply_layout (s : State) (st : Station) : PeerLayout (s.member.peers.get st) (peerReply (stNo st) s) := by
  unfold peerReply
  rw [stOf_stNo]
  exact peerBytes_layout _

/-! ## READ SEGMENT -/

/-- A record without a flipped bit is returned as it is stored (R161). -/
theorem segmentReply_unflipped {s : State} {n : Nat} (h : ∀ u ∈ s.fault.flipped, u.word ≠ .segment n) : segmentReply n s =
    byte n :: segmentBytes (Block.histLen s.block) (s.evid.table.getD (n - 1) (.clean false)) := by
  have hnone : flippedBits (.segment n) s = [] := by
    unfold flippedBits
    rw [List.map_eq_nil_iff, List.filter_eq_nil_iff]
    exact fun u hu => by simpa using h u hu
  unfold segmentReply
  rw [hnone]
  rfl


/-! ## Judging (R168, R169) -/

section
variable {s : State}

/-- With the slot taken a command is ignored (R168; log entry 26). -/
theorem judgeCommand_taken (h : s.port.slot ≠ none) (c : PortCommand) (inRange : Bool) (reply : List Byte) :
    judgeCommand c inRange reply s = s := by
  obtain ⟨j, hj⟩ := Option.ne_none_iff_exists'.mp h
  unfold judgeCommand
  rw [hj]

theorem judgeCommand_free (h : s.port.slot = none) (c : PortCommand) (inRange : Bool) (reply : List Byte) :
    judgeCommand c inRange reply s = s.withPort { s.port with
      slot := some ⟨c, statusOf c inRange s, if statusOf c inRange s = .done then reply else []⟩ } := by
  unfold judgeCommand
  rw [h]

/-- The status of a command that names one, none of its kind being outstanding (R168). -/
theorem statusOf_known {c : PortCommand} (hk : c.known = true) (ho : isOutstanding c s = false) (inRange : Bool) :
    statusOf c inRange s = if s.port.checking then .busy
      else if takenIn c s.member.station then (if inRange then .done else .invalid) else .refused := by
  unfold statusOf judgeStatus
  rw [hk, ho]
  cases s.port.checking <;> cases takenIn c s.member.station <;> cases inRange <;> rfl

/-- A SEGMENT CONTROL that would be DONE is BUSY while another is outstanding (R168, R173). -/
theorem statusOf_control {ctl : Control} {inRange : Bool} {status : Status}
    (hs : status = if s.port.checking then .busy
      else if s.member.station == .running then (if inRange then .done else .invalid) else .refused) :
    statusOf (.segmentControl ctl) inRange s =
      if status = .done ∧ s.port.control.isSome = true then .busy else status := by
  subst hs
  unfold statusOf judgeStatus takenIn isOutstanding
  cases s.port.checking <;> cases s.member.station == .running <;> cases inRange <;> cases s.port.control.isSome <;> rfl

theorem within_eq_decide (lo hi n : Nat) : within lo hi n = decide (lo ≤ n ∧ n ≤ hi) := (Bool.decide_and _ _).symm

theorem namesNoCommand_iff (b : Byte) : namesNoCommand b = true ↔ b.toNat = 0 ∨ 11 < b.toNat := by
  simp [namesNoCommand]

/-- What the port clocks out for a judged command: its status, its reply, then zeros (R168). -/
theorem dataOut_reply (j : Judged) : (∀ i v, j.reply[i]? = some v → j.dataOut (i + 1) = v) ∧
    ∀ i, j.reply.length ≤ i → j.dataOut (i + 1) = 0 := by
  have hrest (i : Nat) : j.dataOut (i + 1) = j.reply.getD i 0 := rfl
  refine ⟨fun i v h => ?_, fun i h => ?_⟩
  · rw [hrest, List.getD_eq_getElem?_getD, h]
    rfl
  · rw [hrest, List.getD_eq_default _ _ h]

theorem dataOut_status (j : Judged) : j.dataOut 0 = byte (statusCode j.status) := rfl

end

/-! ## The twelve commands -/

section
variable {m : Moment} {s : State}

/-- Each of the twelve commands of the port is ignored while the slot is taken (R168; log entry 26). -/
theorem exec_ignored (hq : NoFaultToFind m s) (hslot : s.port.slot ≠ none) {c : Instr}
    (hc : (∃ block, c = .load m block) ∨ c = .start m ∨ c = .restart m ∨ c = .status m ∨ c = .nextNotice m ∨
      (∃ n, c = .readSegment m n) ∨ (∃ n, c = .readPeer m n) ∨ c = .readCoupling m ∨ c = .readFault m ∨
      c = .clearFault m ∨ (∃ kind group value mask, c = .segmentControl m kind group value mask) ∨
      (∃ byte, c = .noCommandByte m byte)) : exec c s = .next (s.withNow m.tag) := by
  have htaken := judgeCommand_taken (s := s.withNow m.tag) hslot
  have hbad : NoBadWord (s.withNow m.tag) := noBadWord_of_aside (by exact hq.2.2)
  rcases hc with ⟨block, rfl⟩ | rfl | rfl | rfl | rfl | ⟨n, rfl⟩ | ⟨n, rfl⟩ | rfl | rfl | rfl |
    ⟨kind, group, value, mask, rfl⟩ | ⟨b, rfl⟩
  · rw [exec_load_quiet m block s hq, htaken, ite_self]
  · rw [exec_start_quiet m s hq, htaken]
  · rw [exec_restart_quiet m s hq, htaken]
  · rw [exec_status_quiet m s hq, htaken]
  · rw [exec_nextNotice_quiet m s hq, htaken]
  · rw [exec_readSegment_quiet m n s hq, readSegmentStep_quiet hbad, judgeReadSegment, htaken]
  · rw [exec_readPeer_quiet m n s hq, htaken]
  · rw [exec_readCoupling_quiet m s hq, htaken]
  · rw [exec_readFault_quiet m s hq, htaken]
  · rw [exec_clearFault_quiet m s hq, htaken]
  · rw [exec_segmentControl_quiet m kind group value mask s hq, segmentControlStep_quiet hbad, judgeControl, htaken]
  · rw [exec_noCommandByte_quiet m b s hq, htaken, ite_self]

end

/-- Settles O51: with the slot free each command is judged by its station states and ranges, with it taken it is ignored; then the port's
bytes, and the replies' layouts. -/
theorem commandsAreJudged : Obligations.CommandsAreJudged := by
  refine ⟨fun m s status judged hq hslot hstatus hjudged => ?_, fun m s c hq hslot hc => exec_ignored hq hslot hc, fun s i => rfl,
    fun j => ⟨fun h => ?_, fun h => ?_, fun h => ?_, fun h => ?_, dataOut_reply j⟩,
    fun s => ⟨statusReply_layout s, noticeReply_layout s, couplingReply_layout s, faultRecord_layout _, peerReply_layout s,
      fun n => segmentReply_unflipped⟩⟩
  · have hbad : NoBadWord (s.withNow m.tag) := noBadWord_of_aside (by exact hq.2.2)
    have hfree (c : PortCommand) (inRange : Bool) (reply : List Byte) :
        judgeCommand c inRange reply (s.withNow m.tag) = judged c (statusOf c inRange s) reply :=
      (judgeCommand_free (s := s.withNow m.tag) hslot c inRange reply).trans (hjudged _ _ _).symm
    have hknown {c : PortCommand} (hk : c.known = true) (ho : isOutstanding c s = false) (inRange : Bool) (reply : List Byte) :
        judgeCommand c inRange reply (s.withNow m.tag) = judged c (status (takenIn c s.member.station) inRange) reply := by
      rw [hfree, statusOf_known hk ho, hstatus]
    refine ⟨fun block hlen => ?_, ?_, ?_, ?_, ?_, fun n => ?_, fun n => ?_, ?_, ?_, ?_, fun kind group value mask => ?_, fun b hb => ?_⟩
    · rw [exec_load_quiet m block s hq, if_pos hlen.ge, List.take_of_length_le hlen.le, hknown rfl rfl]
      rfl
    · rw [exec_start_quiet m s hq, hknown rfl rfl]
      rfl
    · rw [exec_restart_quiet m s hq, hknown rfl rfl]
      rfl
    · rw [exec_status_quiet m s hq, hknown rfl rfl]
      rfl
    · rw [exec_nextNotice_quiet m s hq, hknown rfl rfl]
      rfl
    · rw [exec_readSegment_quiet m n s hq, readSegmentStep_quiet hbad, judgeReadSegment, hknown rfl rfl, within_eq_decide]
      rfl
    · rw [exec_readPeer_quiet m n s hq, hknown rfl rfl, within_eq_decide]
      rfl
    · rw [exec_readCoupling_quiet m s hq, hknown rfl rfl]
      rfl
    · rw [exec_readFault_quiet m s hq, hknown rfl rfl]
      rfl
    · rw [exec_clearFault_quiet m s hq, hknown rfl rfl]
      rfl
    · rw [exec_segmentControl_quiet m kind group value mask s hq, segmentControlStep_quiet hbad, judgeControl, hfree,
        statusOf_control (hstatus _ _)]
      rfl
    · rw [exec_noCommandByte_quiet m b s hq, if_pos ((namesNoCommand_iff b).mpr hb), hfree]
      rfl
  · rw [dataOut_status, h]; rfl
  · rw [dataOut_status, h]; rfl
  · rw [dataOut_status, h]; rfl
  · rw [dataOut_status, h]; rfl

end Sys2Proof.Machine
end

section
/-! PROOFS. The queue of waiting commands: a step takes its front command, and every command answers a next state and leaves the queue as
it was, since no operation touches it (Laws/Pending.lean). -/

namespace Sys2Proof.Machine

/-! ## The step -/

theorem step_of_front {c : Instr} {rest : List Instr} {s : State} (h : s.pending = c :: rest) :
    step s = exec c (s.withPending rest) := by
  unfold step
  rw [h]

theorem step_of_empty {s : State} (h : s.pending = []) : step s = .next (tick s) := by
  unfold step
  rw [h]

theorem tick_counts {s : State} (h : s.resetHeld = false) : tick s = { s with clock := s.clock + 1 } := by
  unfold tick
  rw [if_neg (by simp [h])]
  rfl

theorem tick_held {s : State} (h : s.resetHeld = true) : tick s = s := by
  unfold tick
  rw [if_pos h]

theorem now_of_next_clock (s : State) : State.now { s with clock := s.clock + 1 } = s.now + 1 := BitVec.ofNat_add _ _

/-- Settles O1: the step by the queue's front, and the tick by the pin. -/
theorem stepRunsFrontCommand : Obligations.StepRunsFrontCommand :=
  ⟨fun _ _ _ hfront => step_of_front hfront,
    fun s hempty hfree => by rw [step_of_empty hempty, tick_counts hfree],
    fun s hempty hheld => by rw [step_of_empty hempty, tick_held hheld],
    now_of_next_clock⟩

/-! ## Effects that leave the queue -/

/-- An effect that leaves the queue of waiting commands as it was. -/
def LeavesQueue (f : State → State) : Prop := ∀ s, (f s).pending = s.pending

/-- A command's meaning that answers a next state, with the queue as it was. -/
def Completes (e : State → Host.Outcome State Fault Refusal) : Prop := ∀ s, ∃ t, e s = .next t ∧ t.pending = s.pending

/-- A command at its moment answers a next state whatever its effect; the arrival and the second look at a fault leave the queue too. -/
theorem atMoment_completes {m : Moment} {f : State → State} (hf : LeavesQueue f) : Completes fun s => atMoment m s f := by
  intro s
  refine ⟨_, rfl, ?_⟩
  split
  next => rfl
  next => rw [lookAgain_pending, hf, arrive_pending]

/-- What is done only where its moment has come. -/
theorem guarded_leavesQueue {p : State → Prop} [DecidablePred p] {f : State → State} (hf : LeavesQueue f) :
    LeavesQueue fun s => if p s then f s else s := by
  intro s
  dsimp only
  split
  next => exact hf s
  next => rfl

/-- What reads words of the configuration store first, chosen by the state. -/
theorem usingConfig_leavesQueue {words : State → List Nat} {f : State → State} (hf : LeavesQueue f) :
    LeavesQueue fun s => usingConfig (words s) f s :=
  fun s => usingConfig_pending (words s) f s hf

/-! ## Every command -/

/-- Every command answers a next state and leaves the queue: those with a moment by their effect, the pin's three by their values. -/
theorem exec_completes (c : Instr) : Completes (exec c) := by
  cases c with
  | cycRising m =>
    change Completes (execCycRising m)
    exact atMoment_completes fun s => takeEdge_pending _ s cycEdge_pending
  | filRising m =>
    change Completes (execFilRising m)
    exact atMoment_completes fun s => takeEdge_pending _ s filEdge_pending
  | vibRising m =>
    change Completes (execVibRising m)
    exact atMoment_completes fun s => takeEdge_pending _ s vibEdge_pending
  | strRising m =>
    change Completes (execStrRising m)
    exact atMoment_completes fun s => takeEdge_pending _ s strEdge_pending
  | strFalling m =>
    change Completes (execStrFalling m)
    exact atMoment_completes fun s => takeEdge_pending _ s strFall_pending
  | settleTimerExpiry m =>
    change Completes (execSettleTimerExpiry m)
    exact atMoment_completes (guarded_leavesQueue settleClose_pending)
  | cycleTimerExpiry m =>
    change Completes (execCycleTimerExpiry m)
    exact atMoment_completes (guarded_leavesQueue cycleExpired_pending)
  | sample m c v =>
    change Completes (execSample m c v)
    exact atMoment_completes (takeSample_pending c v)
  | lockoutTimerExpiry m c =>
    change Completes (execLockoutTimerExpiry m c)
    exact atMoment_completes (guarded_leavesQueue (usingConfig_leavesQueue (endLockout_pending c)))
  | sampleLoss m c =>
    change Completes (execSampleLoss m c)
    exact atMoment_completes (guarded_leavesQueue (sampleLost_pending c))
  | sampleRecovery m c =>
    change Completes (execSampleRecovery m c)
    refine atMoment_completes fun s => ?_
    split
    next last _ => exact usingConfig_pending _ _ s (sampleRecovered_pending c last)
    next => rfl
  | pulseWidthEnd m c =>
    change Completes (execPulseWidthEnd m c)
    exact atMoment_completes (guarded_leavesQueue (usingConfig_leavesQueue (endPulseWidth_pending c)))
  | recoveryEnd m c =>
    change Completes (execRecoveryEnd m c)
    exact atMoment_completes (guarded_leavesQueue (endRecovery_pending c))
  | accessGapReached m lane =>
    change Completes (execAccessGapReached m lane)
    exact atMoment_completes fun s => whileWaiting_pending _ s fun c _ s =>
      (takeGap_pending lane.lane c _).trans (hearBytes_pending lane s)
  | accessTimerExpiry m =>
    change Completes (execAccessTimerExpiry m)
    exact atMoment_completes fun s => whileWaiting_pending _ s starve_pending
  | attemptSent m =>
    change Completes (execAttemptSent m)
    exact atMoment_completes fun s => whileTransmitting_pending _ s attemptSucceeded_pending
  | echoMismatch m =>
    change Completes (execEchoMismatch m)
    exact atMoment_completes fun s => whileTransmitting_pending _ s fun c _ => echoFailed_pending c .clash
  | echoTimeout m index =>
    change Completes (execEchoTimeout m index)
    exact atMoment_completes fun s => whileTransmitting_pending _ s fun c _ => echoFailed_pending c (timeoutCause index)
  | frameComplete m l bytes =>
    change Completes (execFrameComplete m l bytes)
    refine atMoment_completes fun s => ?_
    split
    next stamp own _ => exact completeFrame_pending l ⟨bytes, stamp, own⟩ s
    next => rfl
  | frameBroken m l cause =>
    change Completes (execFrameBroken m l cause)
    refine atMoment_completes fun s => ?_
    split
    next => exact breakFrame_pending l _ s
    next => rfl
  | frameHandlerTake m =>
    change Completes (execFrameHandlerTake m)
    refine atMoment_completes fun s => ?_
    split
    next l f _ => exact guarded_leavesQueue (p := fun s => s.linkUp = true) (handleFrame_pending l f) s
    next => rfl
  | joinTimerExpiry m =>
    change Completes (execJoinTimerExpiry m)
    exact atMoment_completes (guarded_leavesQueue (joinAdopt_pending 0))
  | silenceTimerExpiry m st =>
    change Completes (execSilenceTimerExpiry m st)
    exact atMoment_completes (guarded_leavesQueue (goMissing_pending st))
  | presenceTimerExpiry m =>
    change Completes (execPresenceTimerExpiry m)
    exact atMoment_completes (guarded_leavesQueue (usingConfig_leavesQueue askPresence_pending))
  | closeExpiry m =>
    change Completes (execCloseExpiry m)
    exact atMoment_completes (guarded_leavesQueue takeCloseExpiry_pending)
  | publicationDeadline m key =>
    change Completes (execPublicationDeadline m key)
    refine atMoment_completes fun s => ?_
    split
    next p _ => exact guarded_leavesQueue (p := fun s => s.atWork = true) (publishAsStandIn_pending p) s
    next => rfl
  | digestWindowExpiry m =>
    change Completes (execDigestWindowExpiry m)
    exact atMoment_completes (guarded_leavesQueue (usingConfig_leavesQueue decide__pending))
  | transferLeadExpiry m =>
    change Completes (execTransferLeadExpiry m)
    refine atMoment_completes fun s => ?_
    split
    next n _ => exact sendRow_pending n s
    next => rfl
  | slotTagReached m =>
    change Completes (execSlotTagReached m)
    refine atMoment_completes fun s => ?_
    split
    next tag _ => exact usingConfig_pending _ _ s (takeSlot_pending tag)
    next => rfl
  | slotWaitEnd m =>
    change Completes (execSlotWaitEnd m)
    exact atMoment_completes (guarded_leavesQueue (usingConfig_leavesQueue endWait_pending))
  | fireTagReached m =>
    change Completes (execFireTagReached m)
    exact atMoment_completes (guarded_leavesQueue (usingConfig_leavesQueue takeFire_pending))
  | windowFireTag m =>
    change Completes (execWindowFireTag m)
    exact atMoment_completes (guarded_leavesQueue fun s => (reofferPulse_pending _).trans (openWindow_pending s))
  | endTagReached m =>
    change Completes (execEndTagReached m)
    exact atMoment_completes (guarded_leavesQueue takeEndTag_pending)
  | scrubRead m =>
    change Completes (execScrubRead m)
    exact atMoment_completes (guarded_leavesQueue scrubStep_pending)
  | logoutTimerExpiry m =>
    change Completes (execLogoutTimerExpiry m)
    exact atMoment_completes (guarded_leavesQueue (selfRestart_pending .fault))
  | load m block =>
    change Completes (execLoad m block)
    exact atMoment_completes (guarded_leavesQueue (judgeCommand_pending _ _ _))
  | loadCheckComplete m =>
    change Completes (execLoadCheckComplete m)
    exact atMoment_completes (guarded_leavesQueue endCheck_pending)
  | start m =>
    change Completes (execStart m)
    exact atMoment_completes (judgeCommand_pending _ _ _)
  | restart m =>
    change Completes (execRestart m)
    exact atMoment_completes (judgeCommand_pending _ _ _)
  | status m =>
    change Completes (execStatus m)
    exact atMoment_completes fun s => judgeCommand_pending _ _ _ s
  | nextNotice m =>
    change Completes (execNextNotice m)
    exact atMoment_completes fun s => judgeCommand_pending _ _ _ s
  | readSegment m n =>
    change Completes (execReadSegment m n)
    exact atMoment_completes (readSegmentStep_pending n.toNat)
  | readPeer m n =>
    change Completes (execReadPeer m n)
    exact atMoment_completes fun s => judgeCommand_pending _ _ _ s
  | readCoupling m =>
    change Completes (execReadCoupling m)
    exact atMoment_completes fun s => judgeCommand_pending _ _ _ s
  | readFault m =>
    change Completes (execReadFault m)
    exact atMoment_completes fun s => judgeCommand_pending _ _ _ s
  | clearFault m =>
    change Completes (execClearFault m)
    exact atMoment_completes (judgeCommand_pending _ _ _)
  | segmentControl m kind group value mask =>
    change Completes (execSegmentControl m kind group value mask)
    exact atMoment_completes (segmentControlStep_pending kind group value mask)
  | selectRise m bytesOut =>
    change Completes (execSelectRise m bytesOut)
    exact atMoment_completes (deselect_pending bytesOut)
  | frameStart m l =>
    change Completes (execFrameStart m l)
    exact atMoment_completes (guarded_leavesQueue (beginFrameOn_pending l))
  | noCommandByte m b =>
    change Completes (execNoCommandByte m b)
    exact atMoment_completes (guarded_leavesQueue (judgeCommand_pending _ _ _))
  | reset => exact fun s => ⟨_, rfl, powerOnValues_pending true s⟩
  | powerOn => exact fun s => ⟨_, rfl, powerOnValues_pending false s⟩
  | resetRelease => exact fun s => ⟨_, rfl, rfl⟩

/-- Settles O2: every command completes, whatever the state. -/
theorem everyCommandCompletes : Obligations.EveryCommandCompletes := exec_completes

end Sys2Proof.Machine
end

section
/-! PROOFS. The records and payloads of the Mould Link byte by byte (12.2), the codes (12.1), and what reading a written record gives. A
record is read back through its layout: the bytes say each field. -/

namespace Sys2Proof.Machine

/-! ## Codes and values read back -/

theorem phaseOf_phaseCode (p : Phase) : phaseOf (phaseCode p) = p := by cases p <;> rfl

theorem segStateCode_lt (st : SegState) : segStateCode st < 4 := by cases st <;> decide

/-- The state of a record is read from the low two bits alone. -/
theorem segStateOf_of_code {n : Nat} {st : SegState} (h : n % 4 = segStateCode st) : segStateOf n = st := by
  unfold segStateOf
  rw [h]
  cases st <;> rfl

theorem cycleOf_cycleValue (c : Option CycleNo) : cycleOf (cycleValue c) = c := by
  cases c with
  | none => rfl
  | some c => exact dif_pos c.isLt

theorem controlKindOf_code (k : ControlKind) : controlKindOf (u8 [byte (controlKindCode k)] 0) = some k := by cases k <;> rfl

theorem controlOf_controlBytes (c : Control) : controlOf (controlBytes c) = some c := by
  unfold controlOf
  rw [show u8 (controlBytes c) 0 = u8 [byte (controlKindCode c.kind)] 0 from rfl, controlKindOf_code]
  rfl

/-! ## Blocks of equal length -/

/-- Block `i` of a list's blocks of `n` bytes each stands `i * n` bytes after what precedes them. -/
theorem slice_block {α : Type} {f : α → List Byte} {n i : Nat} {l : List α} {a : α} (pre : List Byte) (hf : ∀ a, (f a).length = n)
    (h : l[i]? = some a) : slice (pre ++ l.flatMap f) (pre.length + i * n) n = f a := by
  obtain ⟨hlt, -⟩ := List.getElem?_eq_some_iff.mp h
  have hlengths : (l.map f).map List.length = List.replicate l.length n := by
    rw [List.map_map, List.eq_replicate_iff]
    exact ⟨List.length_map _, fun b hb => by obtain ⟨a, -, rfl⟩ := List.mem_map.mp hb; exact hf a⟩
  have hparts : pre ++ l.flatMap f = (pre :: l.map f).flatten := by rw [List.flatten_cons, List.flatMap_def]
  rw [hparts]
  refine slice_part (i + 1) (by rw [List.getElem?_cons_succ, List.getElem?_map, h]; rfl) ?_ (hf a)
  rw [List.take_succ_cons, List.map_cons, List.sum_cons, List.map_take, hlengths, List.take_replicate, List.sum_replicate_nat,
    Nat.min_eq_left hlt.le]

theorem flatMap_length {α : Type} {f : α → List Byte} {n : Nat} (hf : ∀ a, (f a).length = n) (l : List α) :
    (l.flatMap f).length = l.length * n := by
  rw [List.length_flatMap, List.map_congr_left fun a _ => hf a, List.map_const', List.sum_replicate_nat]

/-- Beyond the end every byte is read as 0. -/
theorem slice_beyond {bs : List Byte} {i : Nat} (n : Nat) (h : bs.length ≤ i) : slice bs i n = List.replicate n 0 := by
  unfold slice
  rw [List.map_congr_left fun k _ => List.getD_eq_default bs 0 (Nat.le_add_right_of_le h), List.map_const', List.length_range]

/-! ## The frame (R43) -/

/-- The nine bytes between the sync and the payload. -/
def frameHeader (kind : FrameKind) (sender : Nat) (stamp : Tag) (cycle : Option CycleNo) (p : List Byte) : List Byte :=
  [byte (frameKindCode kind), byte sender] ++ be32 stamp ++ be16 (cycleValue cycle) ++ [byte p.length]

theorem frameHeader_length (kind : FrameKind) (sender : Nat) (stamp : Tag) (cycle : Option CycleNo) (p : List Byte) :
    (frameHeader kind sender stamp cycle p).length = 9 := rfl

theorem frameBytes_eq (kind : FrameKind) (sender : Nat) (stamp : Tag) (cycle : Option CycleNo) (p : List Byte) :
    frameBytes kind sender stamp cycle p = [0xD5#8, 0x6B#8] ++ (frameHeader kind sender stamp cycle p ++ p) ++
      be16 (crc16 (frameHeader kind sender stamp cycle p ++ p)).toNat := rfl

/-- The sync bytes are fixed, the payload stands between the header and the check, and the check is taken over header and payload. -/
theorem frameBytes_layout (kind : FrameKind) (sender : Nat) (stamp : Tag) (cycle : Option CycleNo) (p : List Byte) :
    FrameLayout kind sender stamp cycle p (frameBytes kind sender stamp cycle p) := by
  have hbody : slice (frameBytes kind sender stamp cycle p) 2 (9 + p.length) = frameHeader kind sender stamp cycle p ++ p :=
    slice_of_append (x := frameHeader kind sender stamp cycle p ++ p) rfl (by rw [List.length_append, frameHeader_length])
  have hpayload : slice (frameBytes kind sender stamp cycle p) 11 p.length = p :=
    slice_of_append (bs := [0xD5#8, 0x6B#8] ++ frameHeader kind sender stamp cycle p) rfl rfl
  have hlength : ([0xD5#8, 0x6B#8] ++ (frameHeader kind sender stamp cycle p ++ p)).length = 11 + p.length := by
    rw [List.length_append, List.length_append, frameHeader_length, ← Nat.add_assoc]
    rfl
  have hcrc : u16 (frameBytes kind sender stamp cycle p) (11 + p.length) =
      (crc16 (frameHeader kind sender stamp cycle p ++ p)).toNat := by
    rw [frameBytes_eq, u16_append (k := 0) hlength.symm, u16_of_bytes rfl rfl, Nat.mod_eq_of_lt (BitVec.isLt _)]
  have hkind : frameKindCode kind < 256 := by cases kind <;> decide
  refine ⟨?_, rfl, rfl, u8_of_lt hkind rfl, u8_of_byte rfl, u32_of_slice rfl, u16_of_cycle rfl rfl, u8_of_byte rfl, hpayload, ?_⟩
  · rw [frameBytes_eq, List.length_append, hlength, Nat.add_right_comm]
    rfl
  · rw [hcrc, hbody]

/-- An attempt that transmits sends the frame of its payload (R43). -/
theorem sendingFrame_of_transmitting {s : State} {c : CurrentFrame} {stamp : Tag} (hc : s.link.current = some c)
    (hstamp : c.attempt = .transmitting stamp) : s.sendingFrame = some (frameBytes c.kind s.ownNo stamp c.cycle c.payload) := by
  unfold State.sendingFrame
  rw [hc]
  dsimp only
  rw [hstamp]

/-! ## HIT -/

theorem hitBytes_layout (h : HitRecord) : HitLayout h (hitBytes h) := by
  have hsaturated := bit_le_one h.features.saturated
  have hlong := bit_le_one h.features.long
  exact ⟨rfl, u8_of_byte rfl, u32_of_slice rfl, u8_of_byte rfl, u16_of_bytes rfl rfl, u16_of_bytes rfl rfl, u16_of_bytes rfl rfl,
    u16_of_bytes rfl rfl, u8_of_lt (by omega) rfl, u8_of_lt (phaseCode_lt h.phase) rfl⟩

/-- The two marks of a byte that holds no other. -/
theorem marks_of_byte {b : Byte} {saturated long : Bool} (h : b.toNat = bit saturated + 2 * bit long) :
    b.getLsbD 0 = saturated ∧ b.getLsbD 1 = long := by
  have hb : b = byte (bit saturated + 2 * bit long) := by rw [byte, ← h, BitVec.ofNat_toNat, BitVec.setWidth_eq]
  subst hb
  cases saturated <;> cases long <;> decide

/-- Bytes laid out as a record whose fields fit them are read as that record. -/
theorem hitOf_of_layout {h : HitRecord} {r : List Byte} (hr : HitLayout h r) (hstation : h.station ≤ 8) (hchannel : h.channel ≤ 4)
    (hpeak : h.features.peak < 256) (hrise : h.features.rise < 65536) (hduration : h.features.duration < 65536)
    (hcrossings : h.features.crossings < 4096) (henergy : h.features.energy < 65536) : hitOf r = h := by
  obtain ⟨-, r0, r1, r5, r6, r8, r10, r12, r14, r15⟩ := hr
  obtain ⟨hsaturated, hlong⟩ := marks_of_byte r14
  have hsensor : u8 r 0 / 16 = h.station ∧ u8 r 0 % 16 = h.channel := by omega
  unfold hitOf
  rw [hsensor.1, hsensor.2, r1, r5, r6, r8, r10, r12, r15, phaseOf_phaseCode, hsaturated, hlong, Nat.mod_eq_of_lt hpeak,
    Nat.mod_eq_of_lt hrise, Nat.mod_eq_of_lt hduration, Nat.mod_eq_of_lt (Nat.lt_trans hcrossings (by decide)),
    Nat.mod_eq_of_lt hcrossings, Nat.mod_eq_of_lt henergy]

/-! ## EVENT -/

theorem idBytes_length (id : HitId) : (idBytes id).length = 6 := rfl

/-- The twelve bytes before the member identities. -/
def eventHead (e : EventRecord) : List Byte :=
  be16 (cycleValue e.cycle) ++ [byte (phaseCode e.phase + 16 * e.method.toNat), byte e.segment, e.attrs,
    byte ((e.hitCount - 1) * 16 + (e.sensorCount - 1)), byte e.peak] ++ be24 e.energy ++ be16 e.longest

theorem eventBytes_eq (e : EventRecord) : eventBytes e = eventHead e ++ e.ids.flatMap idBytes := rfl

theorem eventBytes_layout (e : EventRecord) : EventLayout e (eventBytes e) := by
  have hphase : phaseCode e.phase < 8 := by cases e.phase <;> decide
  have hmethod : e.method.toNat < 4 := e.method.isLt
  refine ⟨?_, u16_of_cycle rfl rfl, u8_of_lt (by omega) rfl, u8_of_byte rfl, rfl, fun _ _ _ _ => ?_, u8_of_byte rfl, u24_of_slice rfl,
    u16_of_bytes rfl rfl, fun i id hid => ?_⟩
  · rw [eventBytes_eq, List.length_append, flatMap_length idBytes_length, Nat.mul_comm]
    rfl
  · have hcounts : u8 (eventBytes e) 5 = (e.hitCount - 1) * 16 + (e.sensorCount - 1) := u8_of_lt (by omega) rfl
    omega
  · have hslice : slice (eventBytes e) (12 + 6 * i) 6 = idBytes id := by
      rw [Nat.mul_comm 6 i]
      exact slice_block (eventHead e) idBytes_length hid
    have htag := slice_within 2 4 hslice (by decide)
    rw [show 12 + 6 * i + 2 = 14 + 6 * i by omega] at htag
    have hchannel := getD_of_slice hslice (k := 1) (by decide)
    rw [show 12 + 6 * i + 1 = 13 + 6 * i by omega] at hchannel
    exact ⟨u8_of_byte (getD_of_slice hslice (k := 0) (by decide)), u8_of_byte hchannel, u32_of_slice htag⟩

/-! ## PRESENCE -/

theorem healthCode_lt (x : LaneHealth) : healthCode x < 4 := by cases x <;> decide

theorem presencePayload_layout (s : State) : PresenceLayout s s.presencePayload := by
  have h1 := couplingCode_lt s.coup.records.c1.state
  have h2 := couplingCode_lt s.coup.records.c2.state
  have h3 := couplingCode_lt s.coup.records.c3.state
  have h4 := couplingCode_lt s.coup.records.c4.state
  have hx := healthCode_lt (healthOf s.link.lanes.x.run)
  have hy := healthCode_lt (healthOf s.link.lanes.y.run)
  have hcoupling : u8 s.presencePayload 8 = couplingCode s.coup.records.c1.state + 4 * couplingCode s.coup.records.c2.state
      + 16 * couplingCode s.coup.records.c3.state + 64 * couplingCode s.coup.records.c4.state := u8_of_lt (by omega) rfl
  refine ⟨rfl, u32_of_slice rfl, u8_of_lt (phaseCode_lt _) rfl, u16_of_bytes rfl rfl, u8_of_lt (standingCode_lt _) rfl, fun c => ?_,
    u8_of_lt (by omega) rfl⟩
  rw [hcoupling]
  cases c <;> simp only [chNo, Four.get] <;> omega

/-! ## The segment record -/

theorem historyBytes_length (e : HistoryEntry) : (historyBytes e).length = 2 := rfl

/-- The eight bytes before the history. -/
def segmentHead (hLen : Nat) (g : SegmentRecord) : List Byte :=
  [byte (segStateCode g.state + 4 * bit g.excluded + 8 * bit g.suspectSince.isSome + 16 * bit g.crackedSince.isSome)]
    ++ be16 g.quietRun ++ be16 ((g.suspectSince.map cycleValue).getD 0) ++ be16 ((g.crackedSince.map cycleValue).getD 0)
    ++ [byte (g.history.take hLen).length]

theorem segmentBytes_eq (hLen : Nat) (g : SegmentRecord) : segmentBytes hLen g =
    segmentHead hLen g ++ slice ((g.history.take hLen).flatMap historyBytes) 0 (2 * hLen) := by
  unfold segmentBytes segmentHead
  cases g.suspectSince <;> cases g.crackedSince <;> rfl

/-- The two bytes of a place of the history are those of the entries laid one after the other. -/
theorem segmentBytes_place {hLen j : Nat} (g : SegmentRecord) (hj : j < hLen) :
    slice (segmentBytes hLen g) (8 + 2 * j) 2 = slice ((g.history.take hLen).flatMap historyBytes) (j * 2) 2 := by
  have hhistory : slice (segmentBytes hLen g) 8 (2 * hLen) = slice ((g.history.take hLen).flatMap historyBytes) 0 (2 * hLen) := by
    rw [segmentBytes_eq, ← List.append_nil (_ ++ slice _ _ _)]
    exact slice_of_append rfl (slice_length _ _ _)
  have hwithin : 2 * j + 2 ≤ 2 * hLen := by omega
  rw [slice_within (2 * j) 2 hhistory hwithin, ← slice_within (2 * j) 2 rfl hwithin, Nat.zero_add, Nat.mul_comm]

theorem segmentBytes_entry {hLen j : Nat} {g : SegmentRecord} {e : HistoryEntry} (hj : j < hLen) (he : g.history[j]? = some e) :
    slice (segmentBytes hLen g) (8 + 2 * j) 2 = historyBytes e := by
  have hentry := slice_block (l := g.history.take hLen) (i := j) [] historyBytes_length ((List.getElem?_take_of_lt hj).trans he)
  rw [segmentBytes_place g hj]
  simpa using hentry

theorem segmentBytes_noEntry {hLen j : Nat} {g : SegmentRecord} (hj : j < hLen) (he : g.history[j]? = none) :
    slice (segmentBytes hLen g) (8 + 2 * j) 2 = [0, 0] := by
  have hlength := List.getElem?_eq_none_iff.mp he
  rw [segmentBytes_place g hj, slice_beyond]
  · rfl
  · rw [flatMap_length historyBytes_length, List.length_take]
    omega

/-- The state, the three flags and the range of a segment record's first byte. -/
theorem fields_of_segmentByte (st : SegState) (excluded suspect cracked : Bool) :
    let r := byte (segStateCode st + 4 * bit excluded + 8 * bit suspect + 16 * bit cracked)
    r.toNat % 4 = segStateCode st ∧ r.getLsbD 2 = excluded ∧ r.getLsbD 3 = suspect ∧ r.getLsbD 4 = cracked ∧ r.toNat < 32 := by
  cases st <;> cases excluded <;> cases suspect <;> cases cracked <;> decide

theorem segmentBytes_layout (hLen : Nat) (g : SegmentRecord) : SegmentLayout hLen g (segmentBytes hLen g) := by
  have hsince (o : Option (Option CycleNo)) := getD_code_lt cycleValue_lt (by decide) o
  obtain ⟨hstate, hexcluded, hsuspect, hcracked, hrange⟩ := fields_of_segmentByte g.state g.excluded g.suspectSince.isSome
    g.crackedSince.isSome
  refine ⟨segmentBytes_length hLen g, ?_⟩
  have hplaces (j : Nat) (hj : j < hLen) :
      (∀ e, g.history[j]? = some e → u8 (segmentBytes hLen g) (8 + 2 * j) = e.count % 256 ∧
        (segmentBytes hLen g).getD (9 + 2 * j) 0 = e.phases) ∧
      (g.history[j]? = none → u8 (segmentBytes hLen g) (8 + 2 * j) = 0 ∧ u8 (segmentBytes hLen g) (9 + 2 * j) = 0) := by
    rw [show 9 + 2 * j = 8 + 2 * j + 1 by omega]
    refine ⟨fun e he => ?_, fun he => ?_⟩
    · have hentry := segmentBytes_entry hj he
      exact ⟨u8_of_byte (getD_of_slice hentry (k := 0) (by decide)), getD_of_slice hentry (k := 1) (by decide)⟩
    · have hzero := segmentBytes_noEntry hj he
      exact ⟨u8_of_byte (n := 0) (getD_of_slice hzero (k := 0) (by decide)),
        u8_of_byte (n := 0) (getD_of_slice hzero (k := 1) (by decide))⟩
  have hlength : (g.history.take hLen).length = min g.history.length hLen := by rw [List.length_take, Nat.min_comm]
  rw [segmentBytes_eq] at hplaces ⊢
  exact ⟨hstate, hexcluded, hsuspect, hcracked, hrange, u16_of_bytes rfl rfl,
    (u16_of_bytes rfl rfl).trans (Nat.mod_eq_of_lt (hsince _)), (u16_of_bytes rfl rfl).trans (Nat.mod_eq_of_lt (hsince _)),
    hlength ▸ u8_of_byte rfl, hplaces⟩

/-- A since-field is read as it was written, absent or present. -/
theorem since_of_value (o : Option (Option CycleNo)) :
    (if o.isSome then some (cycleOf ((o.map cycleValue).getD 0)) else none) = o := by
  cases o with
  | none => rfl
  | some c => exact congrArg some (cycleOf_cycleValue c)

/-- Bytes laid out as a record whose history fits H and whose counts fit their fields are read as that record. -/
theorem segmentOf_of_layout {hLen : Nat} {g : SegmentRecord} {r : List Byte} (hr : SegmentLayout hLen g r) (hLen16 : hLen ≤ 16)
    (hfits : g.history.length ≤ hLen) (hquiet : g.quietRun < 65536) (hcounts : ∀ e ∈ g.history, e.count < 256) :
    segmentOf hLen r = g := by
  obtain ⟨-, hstate, hexcluded, hsuspect, hcracked, -, r1, r3, r5, r7, hplaces⟩ := hr
  have hlength : min (u8 r 7) hLen = g.history.length := by omega
  have hhistory : (List.range g.history.length).map (fun j => (⟨u8 r (8 + 2 * j), r.getD (9 + 2 * j) 0⟩ : HistoryEntry)) =
      g.history := by
    refine List.ext_getElem (by simp) fun j _ hj => ?_
    obtain ⟨hcount, hphases⟩ := (hplaces j (by omega)).1 g.history[j] (List.getElem?_eq_getElem hj)
    rw [List.getElem_map, List.getElem_range, hcount, hphases, Nat.mod_eq_of_lt (hcounts _ (List.getElem_mem hj))]
  unfold segmentOf
  rw [segStateOf_of_code hstate, hexcluded, hsuspect, hcracked, r1, r3, r5, since_of_value, since_of_value, hlength, hhistory,
    Nat.mod_eq_of_lt hquiet]

/-! ## ROW -/

/-- The ten bytes before the segment records. -/
def rowHead (row : RowFrame) : List Byte :=
  be16 (cycleValue row.cycle) ++ be32 row.digest ++ be16 row.age ++ [byte row.first, byte (row.count + 128 * bit row.last)]

theorem rowBytes_eq (hLen : Nat) (row : RowFrame) : rowBytes hLen row = rowHead row ++ row.records.flatMap (segmentBytes hLen) := rfl

theorem rowBytes_layout (hLen : Nat) (row : RowFrame) : RowLayout hLen row (rowBytes hLen row) := by
  have hlast := bit_le_one row.last
  refine ⟨?_, u16_of_cycle rfl rfl, u32_of_slice rfl, u16_of_bytes rfl rfl, u8_of_byte rfl, fun hcount => u8_of_lt (by omega) rfl,
    fun i g hg => slice_block (rowHead row) (segmentBytes_length hLen) hg⟩
  rw [rowBytes_eq, List.length_append, flatMap_length (segmentBytes_length hLen)]
  rfl

/-! ## The obligation -/

/-- Settles O60: each record is read back through its layout, and the codes are those of the tables. -/
theorem recordsReadBackAsWritten : Obligations.RecordsReadBackAsWritten := by
  refine ⟨fun h _ hstation _ hchannel hpeak hrise hduration hcrossings henergy =>
      hitOf_of_layout (hitBytes_layout h) hstation hchannel hpeak hrise hduration hcrossings henergy,
    controlOf_controlBytes, fun hLen g hLen16 hfits hquiet hcounts =>
      segmentOf_of_layout (segmentBytes_layout hLen g) hLen16 hfits hquiet hcounts,
    frameBytes_layout, fun _ _ _ => sendingFrame_of_transmitting, hitBytes_layout, eventBytes_layout, presencePayload_layout,
    rowBytes_layout, segmentBytes_layout, fun _ => rfl, fun _ => rfl, ?_⟩
  exact ⟨rfl, rfl, rfl, rfl, rfl, rfl, rfl, rfl, rfl, rfl, rfl, rfl, rfl, rfl, rfl, rfl, rfl, rfl, rfl, rfl, rfl, rfl⟩

end Sys2Proof.Machine
end
